-- ==== Sys2Proof/Word.lean ====
section
/-! DEFINITION. The bit-vector types of the manual's words, and nothing else: every field that the manual numbers by bits
is one of these. Rule R12 fixes the writing of numbers, R13 the order of bits and bytes. -/

namespace Sys2Proof

/-- One byte (R13). -/
abbrev Byte := BitVec 8

/-- A 32-bit register of the leaf port or of a mailbox port (R249, R423). -/
abbrev Word := BitVec 32

/-- Block time, digests, handles and limbs are 64 bits wide (R33, R86, R110, R441). -/
abbrev Quad := BitVec 64

end Sys2Proof
end

