-- ==== Sys2Proof/Machine/Types.lean ====
section
/-! DEFINITION. The closed sets of names and the small records that the commands' operands and the state share. -/

namespace Sys2Proof.Machine

/-- The three sources of block reset (R512). -/
inductive ResetSource where
  | pwrok | rstN | cxReset
deriving DecidableEq, Repr

/-- The straps sampled when block reset ends (R515, Table 16.1). -/
structure Straps where
  ndieM1 : BitVec 5
  mfrId  : BitVec 11
  smbAddr : BitVec 3
  debug  : Bool
deriving DecidableEq, Repr

/-- Twin A and twin B of a duplex node (R18, R24). -/
inductive Twin where
  | a | b
deriving DecidableEq, Repr

/-- What a self-test or a maintenance step found failed (R565, R576). A node is named by its node index (R446), which
carries the control-path bit; a link of the datapath by its counter index (R449). -/
inductive Part where
  | twin (node : Nat) (t : Twin)
  | pair (node : Nat)
  | ctrlLink (node : Nat)
  | link (key : Nat)
  | leaf (leaf : Nat)
  | dieSlice (die : Nat)
deriving DecidableEq, Repr

/-- Leaf fault classes that a read or a write outside the block can answer with (Table 8.14). -/
inductive IoClass where
  | addr | data
deriving DecidableEq, Repr

/-- What a read of scratchpad or of the push buffer gave: the bytes, or the failure (R282, R284). -/
inductive ReadResult where
  | ok (bytes : List Byte)
  | bad (c : IoClass)
deriving DecidableEq, Repr

/-- What a bisque pass read: its bytes, or the index of the first failed chunk and the failure (R282). -/
inductive PassRead where
  | ok (bytes : List Byte)
  | bad (chunk : Nat) (c : IoClass)
deriving DecidableEq, Repr

/-- Data areas of a descriptor, in the order in which chunk indices count through them (R270). -/
inductive Area where
  | src | src2 | preload | result | aux
deriving DecidableEq, Repr

/-- The two registers blocks that take plain register writes (R249, R423). -/
inductive RegBlock where
  | leaf (leaf : Nat)
  | port (port : Nat)
deriving DecidableEq, Repr

/-- Direction of a link: 0 upward, 1 downward (R449). -/
inductive Dir where
  | up | down
deriving DecidableEq, Repr

/-- The outcome of a node's two twins for one output flit (Table 1.3): which residue checks fired, and whether the
CRC-24 compare of the two outputs differed. -/
structure Handoff where
  firedA : Bool
  firedB : Bool
  differ : Bool
deriving DecidableEq, Repr

/-- What shows a twin's fault outside a hand-off: its residue check or SECDED (R386), the CRC-24 of the control link copy that
it drives (R399), or on the control path a compare of the two twins that differs with no residue firing (Table 12.6). -/
inductive TwinCause where
  | residue | linkCrc | compare
deriving DecidableEq, Repr

/-- A twin and what shows its fault. -/
structure TwinFire where
  twin  : Twin
  cause : TwinCause
deriving DecidableEq, Repr

/-- A handshake that a stage cone watches (R317): a datapath link by its counter index (R449), or one copy of the
control link whose lower end is the named control node (its node index), the copy being the twin that drives it, or one copy of
a leaf port's control link: downward the copy that the named twin of the cluster node drives, upward the leaf port's own. -/
inductive Handshake where
  | link (key : Nat)
  | ctrl (node : Nat) (copy : Twin)
  | leafCtrl (leaf : Nat) (copy : Twin) (dir : Dir)
deriving DecidableEq, Repr

/-- Which copy of a configuration table (R411). -/
inductive Copy where
  | a | b
deriving DecidableEq, Repr

/-- A word of a configuration table: the set (none for the global set, a saggar number otherwise), the bank (shadow or
active), the table code of Table 14.1 and the index of the entry. The derived tables RANK_TO_LEAF and LEAF_TO_RANK take the
codes of their state items (Table 13.13), 0x04 and 0x05. -/
structure CfgWord where
  set    : Option Nat
  shadow : Bool
  table  : Nat
  index  : Nat
deriving DecidableEq, Repr

/-- The memories of Table 12.4. -/
inductive MemUnit where
  | twin (node : Nat) (t : Twin)
  | retry (key : Nat) (count : BitVec 16)
  | setter (setter : Nat)
  | kacc (k : Nat)
  | bisque (leaf : Nat) (i : Nat)
  | digest (i : Nat)
  | leafStaging (leaf : Nat) (slot : Nat) (area : Area) (chunk : Nat)
  | leafState (leaf : Nat)
deriving DecidableEq, Repr

/-- A word of one of those memories with an error: a single bit, which SECDED corrects (R381), or more (R414). -/
structure MemError where
  mem       : MemUnit
  corrected : Bool
deriving DecidableEq, Repr

/-- One finding of a scrub (R412): a corrected single-bit error, or an uncorrectable word of one copy together with
what the other copy and the rewritten word then gave. -/
structure ScrubFind where
  word : CfgWord
  copy : Copy
  uncorrectable : Bool
  otherBad : Bool
  rewriteBad : Bool
deriving DecidableEq, Repr

/-- What the tests and the scrub of a maintenance activity found: the failed parts (R571), the scrubbed words (R580). -/
structure MaintFound where
  failed : List Part
  finds  : List ScrubFind
deriving DecidableEq, Repr

/-- How a completion record is written (R284): whether its own write went through, and the chunks of the segment status entries
whose writes failed (R283). -/
structure RecordWrite where
  ok     : Bool
  segBad : List Nat
deriving DecidableEq, Repr

/-- A response of memory on the deposit port (Table 16.11). -/
inductive DepCode where
  | ok | mappedOut | dataError
deriving DecidableEq, Repr

/-- How a Host Notify attempt went on the bus (R530). -/
inductive NotifyResult where
  | acked | nack | lostArbitration
deriving DecidableEq, Repr

/-- Causes of a controller exception that the hardware records (Table 13.17). -/
inductive ExcCause where
  | badStack | onEmergency | watchdog | ramError | request | imageCheck
deriving DecidableEq, Repr

/-- What raises an exception of the controller: the core in its program, an uncorrectable word of its RAM, or its firmware's request
(R461, Table 13.17). -/
inductive ExcKind where
  | core | ramError | request
deriving DecidableEq, Repr

/-- A control-path link of a die slice that a pyrometer measures (R351): the bridge to the kiln, that of a cluster node, that of a leaf. -/
inductive EchoLink where
  | bridge
  | cluster (c : Nat)
  | leaf (l : Nat)
deriving DecidableEq, Repr

end Sys2Proof.Machine
end

