-- ==== Sys2Proof/Syntax.lean ====
section
/-! DEFINITION. The commands of the block: one constructor per row of the spec's table of steps. A row is a step, whole and
indivisible; its operands are what comes from outside the block at that step (the value written, the bytes a read of the
surroundings returned, a measured quantity, which part failed). Everything else a step reads stands in the state. -/

namespace Sys2Proof
open Machine

/-- The commands (opcode table rows; the docstring of each names the row and the rule that governs it). -/
inductive Instr where
  /-- BLOCK_RESET_ASSERT (R512). -/
  | blockResetAssert (src : ResetSource)
  /-- BLOCK_RESET_END (R561). -/
  | blockResetEnd (straps : Straps)
  /-- SRAM_ZEROED (R410). -/
  | sramZeroed
  /-- IMAGE_CHECK (R456). -/
  | imageCheck (img : List Byte)
  /-- CONFIG_RECORD_LOAD (R564). -/
  | configRecordLoad (record : List Byte)
  /-- STARTUP_SELF_TEST_DONE (R565). -/
  | startupSelfTestDone (failed : List Part)
  /-- FIRST_GLOBAL_COMMIT (R566). -/
  | firstGlobalCommit
  /-- CONTROLLER_SERVES (R562). -/
  | controllerServes
  /-- REFCLK_EDGE (R33). -/
  | refclkEdge
  /-- REF_LOST (R337). -/
  | refLost
  /-- REF_RETURN (R337). -/
  | refReturn
  /-- PACE_LOCK (R336). -/
  | paceLock
  /-- PACE_SWITCH (R335). -/
  | paceSwitch
  /-- LP_ENABLE (R252). -/
  | lpEnable (leaf : Nat) (v : Word)
  /-- LP_DISABLE (R290). -/
  | lpDisable (leaf : Nat) (v : Word)
  /-- LP_RESET (R291). -/
  | lpReset (leaf : Nat) (v : Word)
  /-- LP_RESET_DONE (R291). -/
  | lpResetDone (leaf : Nat)
  /-- LP_DOORBELL (R256). -/
  | lpDoorbell (leaf : Nat) (v : Word)
  /-- LP_CQ_HEAD_WRITE (R257). -/
  | lpCqHeadWrite (leaf : Nat) (v : Word)
  /-- LP_INT_STATUS_CLEAR (R286). -/
  | lpIntStatusClear (leaf : Nat) (v : Word)
  /-- REGISTER_WRITE (R15). -/
  | registerWrite (blk : RegBlock) (off : Nat) (wide : Bool) (v : Word)
  /-- LP_PUSH (R274). -/
  | lpPush (leaf off : Nat) (wide : Bool) (data : BitVec 128)
  /-- TILE_DRAIN (R277). -/
  | tileDrain (leaf slot fmt : Nat) (data : List Byte)
  /-- TILE_LANDED (R246). -/
  | tileLanded (leaf slot tile : Nat)
  /-- TAKE_DESCRIPTOR (R262). -/
  | takeDescriptor (leaf : Nat) (words : Option (BitVec 1024)) (segs : List (BitVec 256))
  /-- RAG_TAIL_PROBE (R244). -/
  | ragTailProbe (leaf slot : Nat) (fault : Option (Nat × IoClass))
  /-- SEND_ARM (R263). -/
  | sendArm (leaf : Nat)
  /-- BISQUE_CLEAR (R172). -/
  | bisqueClear (leaf : Nat)
  /-- BISQUE_LOAD (R172). -/
  | bisqueLoad (leaf : Nat) (r : PassRead)
  /-- BISQUE_ADD_SUM (R172). -/
  | bisqueAddSum (leaf : Nat) (x : PassRead)
  /-- BISQUE_ADD_SUMSQ (R172). -/
  | bisqueAddSumsq (leaf : Nat) (x : PassRead)
  /-- BISQUE_ADD_DOT (R172). -/
  | bisqueAddDot (leaf : Nat) (x y : PassRead)
  /-- BISQUE_ADD_SHERD (R172). -/
  | bisqueAddSherd (leaf : Nat) (r : PassRead)
  /-- BISQUE_STORE (R172). -/
  | bisqueStore (leaf : Nat) (bad : Option Nat)
  /-- CHUNK_READ_DONE (R271). -/
  | chunkReadDone (leaf slot : Nat) (area : Area) (chunk : Nat) (r : ReadResult)
  /-- CHUNK_WRITE_DONE (R283). -/
  | chunkWriteDone (leaf slot chunk : Nat) (ok : Bool)
  /-- ARM_MERGE (R298). -/
  | armMerge (node input : Nat)
  /-- ARM_AT_KILN (R304). -/
  | armAtKiln (input : Nat)
  /-- GRANT (R306). -/
  | grant
  /-- GRANT_RECEIVE (R301). -/
  | grantReceive (leaf : Nat)
  /-- REDEAL_GRANT_RECEIVE (R393). -/
  | redealGrantReceive (leaf : Nat)
  /-- LEAF_FLIT_SEND (R72). -/
  | leafFlitSend (leaf plane : Nat)
  /-- NODE_FLIT_ARRIVE (R31). -/
  | nodeFlitArrive (node : Nat) (dir : Dir) (input : Nat) (err : BitVec 568) (h : Handoff)
  /-- TWIN_RESIDUE_FIRE (R386). -/
  | twinResidueFire (node : Nat) (f : TwinFire)
  /-- BRIDGE_FLIT_RECEIVE (R47). -/
  | bridgeFlitReceive (key : Nat) (err : BitVec 568)
  /-- LINK_NAK_RECEIVE (R47). -/
  | linkNakReceive (key : Nat) (err : BitVec 568)
  /-- LINK_NAK_REPEAT (R47). -/
  | linkNakRepeat (key : Nat)
  /-- BRIDGE_RETRY_EXHAUSTED (R47). -/
  | bridgeRetryExhausted (key : Nat)
  /-- STAGE_CONE_EXPIRY (R317). -/
  | stageConeExpiry (h : Handshake)
  /-- LOSS_REGISTER (R391). -/
  | lossRegister
  /-- REDEAL_RESOURCE_FREE (R394). -/
  | redealResourceFree
  /-- OVERFLOW_REPLAY (R142). -/
  | overflowReplay (setter : Nat)
  /-- FIRING_END (R309). -/
  | firingEnd (group seq : Nat)
  /-- END_RECEIVE (R301). -/
  | endReceive (leaf : Nat)
  /-- RESULT_FLIT_RECEIVE (R407). -/
  | resultFlitReceive (leaf plane : Nat) (err : BitVec 568)
  /-- COMPLETION_RECORD_WRITE (R310). -/
  | completionRecordWrite (leaf slot : Nat) (w : RecordWrite)
  /-- SETTER_REST_END (R311). -/
  | setterRestEnd (setter : Nat)
  /-- FIRING_CONE_EXPIRY (R315). -/
  | firingConeExpiry (group seq : Nat)
  /-- BARRIER_ARRIVE (R220). -/
  | barrierArrive (group : Nat)
  /-- BARRIER_RELEASE (R348). -/
  | barrierRelease (leaf : Nat) (ok : Bool)
  /-- LEAF_FAILURE_REGISTER (R403). -/
  | leafFailureRegister (leaf : Nat)
  /-- CONFIG_WORD_UNCORRECTABLE (R411). -/
  | configWordUncorrectable (w : CfgWord) (copy : Copy) (otherBad rewriteBad : Bool)
  /-- MEMORY_UNCORRECTABLE (R414). -/
  | memoryUncorrectable (e : MemError)
  /-- SCRUB_PERIODIC (R412). -/
  | scrubPeriodic (finds : List ScrubFind)
  /-- PYRO_PASS_START (R352). -/
  | pyroPassStart (die : Nat)
  /-- PYRO_PASS_COMPLETE (R353). -/
  | pyroPassComplete (die : Nat) (echoes : List (EchoLink × List Rat))
  /-- PYRO_PASS_ABANDON (R352). -/
  | pyroPassAbandon (die : Nat)
  /-- LOAD_CORRECTION (R355). -/
  | loadCorrection (die : Nat)
  /-- TRIM_EPOCH_FLIP (R356). -/
  | trimEpochFlip (die : Nat)
  /-- TRIM_STALE_SET (R357). -/
  | trimStaleSet (die : Nat)
  /-- TEMP_SAMPLE (R351). -/
  | tempSample (die : Nat) (temp : BitVec 11)
  /-- QUIET_HOLD_START (R358). -/
  | quietHoldStart (die : Nat)
  /-- QUIET_HOLD_END (R358). -/
  | quietHoldEnd (die : Nat)
  /-- ACTIVITY_ESTIMATE (R508). -/
  | activityEstimate (die tests : Nat)
  /-- GOVERNOR_SLOT (R503). -/
  | governorSlot (die : Nat) (v rLink : Rat)
  /-- WAKE_SLOT (R498). -/
  | wakeSlot (die : Nat)
  /-- WAKE_RAMP_END (R498). -/
  | wakeRampEnd (die seg : Nat)
  /-- PARK_RAMP_END (R498). -/
  | parkRampEnd (die seg : Nat)
  /-- PARK_DUE (R501). -/
  | parkDue (die seg : Nat)
  /-- COMMIT_SWAP (R481). -/
  | commitSwap
  /-- SAGGAR_DESTROY_EFFECT (R473). -/
  | saggarDestroyEffect (saggar : Nat)
  /-- MBX_RING (R425). -/
  | mbxRing (port : Nat) (v : Word)
  /-- MBX_PORT_RESET (R429). -/
  | mbxPortReset (port : Nat) (v : Word)
  /-- MBX_INT_STATUS_CLEAR (R424). -/
  | mbxIntStatusClear (port : Nat) (v : Word)
  /-- HELLO (R438). -/
  | hello (port : Nat)
  /-- GOODBYE (R437). -/
  | goodbye (port : Nat)
  /-- SAGGAR_CREATE (R471). -/
  | saggarCreate (port : Nat)
  /-- SAGGAR_DESTROY (R473). -/
  | saggarDestroy (port : Nat)
  /-- SAGGAR_LIST (R443). -/
  | saggarList (port : Nat)
  /-- SHADOW_WRITE (R477). -/
  | shadowWrite (port : Nat)
  /-- SHADOW_READ (R443). -/
  | shadowRead (port : Nat)
  /-- COMMIT (R480). -/
  | commit (port : Nat)
  /-- DISCARD (R479). -/
  | discard (port : Nat)
  /-- STATE_READ (R446). -/
  | stateRead (port : Nat)
  /-- SNAPSHOT (R447). -/
  | snapshot (port : Nat)
  /-- SNAPSHOT_RELEASE (R448). -/
  | snapshotRelease (port : Nat)
  /-- FIRING_QUERY (R450). -/
  | firingQuery (port : Nat)
  /-- FIRING_ABORT (R451). -/
  | firingAbort (port : Nat)
  /-- COUNTER_READ (R449). -/
  | counterRead (port : Nat)
  /-- DIGEST_OPEN (R374). -/
  | digestOpen (port : Nat)
  /-- DIGEST_READ (R377). -/
  | digestRead (port : Nat)
  /-- DIGEST_CLOSE (R377). -/
  | digestClose (port : Nat)
  /-- KEY_READ (R366). -/
  | keyRead (port : Nat)
  /-- CALIBRATE (R579). -/
  | calibrate (port : Nat)
  /-- SCRUB (R580). -/
  | scrub (port : Nat)
  /-- SELF_TEST (R572). -/
  | selfTest (port : Nat)
  /-- NODE_OFFLINE (R573). -/
  | nodeOffline (port : Nat)
  /-- NODE_ONLINE (R574). -/
  | nodeOnline (port : Nat)
  /-- PLANE_OFFLINE (R575). -/
  | planeOffline (port : Nat)
  /-- PLANE_ONLINE (R576). -/
  | planeOnline (port : Nat)
  /-- LEAF_OFFLINE (R577). -/
  | leafOffline (port : Nat)
  /-- LEAF_ONLINE (R578). -/
  | leafOnline (port : Nat)
  /-- MAINT_STATUS (R443). -/
  | maintStatus (port : Nat)
  /-- MAINT_ACTIVITY_END (R571). -/
  | maintActivityEnd (id : Nat) (found : MaintFound)
  /-- FW_STAGE (R457). -/
  | fwStage (port : Nat)
  /-- FW_VERIFY (R457). -/
  | fwVerify (port : Nat)
  /-- BACKGROUND_COMMAND_DONE (R426). -/
  | backgroundCommandDone
  /-- FW_ACTIVATE (R458). -/
  | fwActivate (port : Nat)
  /-- FW_ACTIVATION_SWITCH (R458). -/
  | fwActivationSwitch
  /-- FW_BANK_CONFIRM (R459). -/
  | fwBankConfirm
  /-- FW_FALLBACK (R459). -/
  | fwFallback
  /-- FW_STATUS (R443). -/
  | fwStatus (port : Nat)
  /-- ENERGY_READ (R509). -/
  | energyRead (port : Nat)
  /-- EVENT_SUBSCRIBE (R452). -/
  | eventSubscribe (port : Nat)
  /-- EVENT_READ (R453). -/
  | eventRead (port : Nat)
  /-- FAULT_LOG_READ (R419). -/
  | faultLogRead (port : Nat)
  /-- DEBUG_ACC_READ (R454). -/
  | debugAccRead (port : Nat)
  /-- DEBUG_TABLE_POKE (R487). -/
  | debugTablePoke (port : Nat)
  /-- CONTROLLER_LOG_READ (R465). -/
  | controllerLogRead (port : Nat)
  /-- CONTROLLER_EXCEPTION (R462). -/
  | controllerException (kind : ExcKind) (pc sp : Word)
  /-- WATCHDOG_EXPIRY (R464). -/
  | watchdogExpiry (pc sp : Word)
  /-- CONTROLLER_RESTART_DONE (R462). -/
  | controllerRestartDone
  /-- SMB_BLK_VERSION (R527). -/
  | smbBlkVersion
  /-- SMB_STATUS (R527). -/
  | smbStatus
  /-- SMB_NOTIFY_CTRL (R529). -/
  | smbNotifyCtrl (data : Byte) (pec : Option Byte)
  /-- SMB_MBX_WRITE (R528). -/
  | smbMbxWrite (data : List Byte) (pec : Option Byte)
  /-- SMB_MBX_READ (R528). -/
  | smbMbxRead (data : List Byte) (count : Nat)
  /-- SMB_TIMEOUT (R527). -/
  | smbTimeout
  /-- HOST_NOTIFY_ATTEMPT (R529). -/
  | hostNotifyAttempt (r : NotifyResult)
  /-- HOST_NOTIFY_RETRY (R530). -/
  | hostNotifyRetry (r : NotifyResult)
  /-- EXTEST (R523). -/
  | extest (pins din : List Bool)
  /-- IDCODE (R524). -/
  | idcode
  /-- SAMPLE_PRELOAD (R523). -/
  | samplePreload (pins din : List Bool)
  /-- BYPASS (R523). -/
  | bypass
  /-- CX_VERSION (R523). -/
  | cxVersion
  /-- CX_MBX (R525). -/
  | cxMbx (din : BitVec 64)
  /-- CX_RESET (R523). -/
  | cxReset (din : Word)
  /-- CX_TRACE_CFG (R521). -/
  | cxTraceCfg (din : Option Word)
  /-- CX_STRAPS (R523). -/
  | cxStraps
  /-- CX_PORT_CNT (R526). -/
  | cxPortCnt (din : BitVec 64)
  /-- TEST_PORT_RESET (R523). -/
  | testPortReset
  /-- TRACE_RECORD_SEND (R519). -/
  | traceRecordSend
  /-- GW_PKG_RANK_SAMPLE (R534). -/
  | gwPkgRankSample (rank : BitVec 16)
  /-- GW_TX_HDR (R536). -/
  | gwTxHdr (who : BitVec 16) (buf : Nat) (hdr : BitVec 128)
  /-- TRANSMIT_DATA (R536). -/
  | transmitData (who : BitVec 16) (buf off : Nat) (data : List Byte)
  /-- GW_TX_GO (R536). -/
  | gwTxGo (who : BitVec 16) (buf : Nat) (v : Word)
  /-- GW_TX_FLIT_ACCEPT (R536). -/
  | gwTxFlitAccept (buf : Nat)
  /-- GW_CLAIM_EXPIRE (R536). -/
  | gwClaimExpire (buf : Nat)
  /-- GW_RX_FLIT (R538). -/
  | gwRxFlit (flit : BitVec 664)
  /-- GW_BOX_STALE (R538). -/
  | gwBoxStale (box : Nat)
  /-- GW_COLLIDE_EXPIRE (R540). -/
  | gwCollideExpire
  /-- GW_BOX_FREE (R539). -/
  | gwBoxFree (who : BitVec 16) (box : Nat) (v : Word)
  /-- DEPOSIT_RESPONSE (R552). -/
  | depositResponse (id : Nat) (code : DepCode) (data : BitVec 512)
  /-- DEPOSIT_REQUEST_ACCEPT (R553). -/
  | depositRequestAccept (waited : Nat)
  /-- GW_PKG_RANK_VALID_FALL (R534). -/
  | gwPkgRankValidFall
  /-- CONTROL_PATH_DOWNWARD_MESSAGE (R395). -/
  | controlPathDownwardMessage (node : Nat)
  /-- LEAF_PORT_FAILURE_SIGNAL (R402). -/
  | leafPortFailureSignal (leaf : Nat)
deriving DecidableEq, Repr

end Sys2Proof
end

