-- ==== Sys2Proof/Decode.lean ====
section
/-! DEFINITION. The commands of this block have no words: no row of the spec's table gives bits, so no word spells a command.
(The block's own encodings, of descriptors, flits, messages and records, are in the files of the units that read them.) -/

namespace Sys2Proof

/-- The command that a word spells by the table's bits: none, since no row has bits. -/
def decodeTableWord (_nbits _w : Nat) : Option Instr := none

end Sys2Proof
end

