-- ==== Sys2Proof/Config.lean ====
section
/-! DEFINITION. What the spec leaves open and the machine goes on with: free values. None has a body, so nothing can be
proved about one. -/

namespace Sys2Proof.Config

/-- The block handle (R441), whose value the spec does not give. Applied to the model's counter. -/
opaque handle : Nat → BitVec 64

/-- The capability handles of each saggar number (R441): the spec gives that they do not repeat and not their value. Applied to the
number of handles formed before, they differ from one creation to the next for as long as that count fits 64 bits. -/
opaque handleOf : Nat → Equiv.Perm (BitVec 64)

/-- The fixed turnaround of a pyrometer's echo in ns (R352). -/
opaque echoTurnaround : Rat

/-- The stack limits, upper and lower, that an image of a version sets (R461): hosts cannot see them. -/
opaque stackLimits : Byte → Byte → BitVec 16 → BitVec 32 × BitVec 32

/-- Bytes of the controller's exception frame (R461). -/
opaque excFrame : Nat

/-- Whether (r, s) is a valid ECDSA P-384 signature of a digest under the Viseaz public key (R456): the key is not in the
spec. -/
opaque signatureValid : List Byte → List Byte → List Byte → Bool

/-- Bytes that a rule calls not defined (R143, R283, R325): applied to the model's counter and the byte's index. -/
opaque openByte : Nat → Nat → Byte

/-- Whether a firmware image other than Edhorn 2.4 supports a protocol version (R460): its version is major, minor and patch. -/
opaque imageSupports : Byte → Byte → BitVec 16 → Byte × Byte → Bool

end Sys2Proof.Config
end

