-- ==== Sys2Proof/Machine/Table.lean ====
section
/-! DEFINITION. Sparse tables in one canonical form: a list of keys and values, keys strictly rising, no value equal to
what an unlisted key reads as. Register banks, buffers and RAMs of the block are held this way. -/

namespace Sys2Proof.Machine

/-- A sparse table from indices to values. -/
abbrev Table (α : Type) := List (Nat × α)

/-- What entry `k` holds; `d` is what an unlisted entry reads as. -/
def tget {α : Type} (d : α) : Table α → Nat → α
  | [], _ => d
  | (j, v) :: t, k => if j = k then v else tget d t k

/-- Puts `v` at `k` in a table whose keys rise, before any larger key. -/
def tinsert {α : Type} (k : Nat) (v : α) : Table α → Table α
  | [] => [(k, v)]
  | (j, w) :: t =>
    if k < j then (k, v) :: (j, w) :: t
    else if k = j then (k, v) :: t
    else (j, w) :: tinsert k v t

/-- Removes entry `k`. -/
def terase {α : Type} (k : Nat) : Table α → Table α
  | [] => []
  | (j, w) :: t => if j = k then t else (j, w) :: terase k t

/-- Writes `v` at `k`; writing what an unlisted entry reads as removes the entry, so equal tables are equal data. -/
def tset {α : Type} [DecidableEq α] (d : α) (t : Table α) (k : Nat) (v : α) : Table α :=
  if v = d then terase k t else tinsert k v t

/-- Changes entry `k` by `f`. -/
def tmod {α : Type} [DecidableEq α] (d : α) (t : Table α) (k : Nat) (f : α → α) : Table α :=
  tset d t k (f (tget d t k))

/-- The keys of a table rise strictly from `lo`. -/
def keysRise {α : Type} (lo : Nat) : Table α → Bool
  | [] => true
  | (j, _) :: t => decide (lo ≤ j) && keysRise (j + 1) t

/-- The canonical form: keys rise strictly and no value is the default. -/
def tableWf {α : Type} [DecidableEq α] (d : α) (t : Table α) : Bool :=
  keysRise 0 t && t.all (fun e => decide (e.2 ≠ d))

/-- Writes consecutive entries from `k`. -/
def tsetRun {α : Type} [DecidableEq α] (d : α) (t : Table α) (k : Nat) : List α → Table α
  | [] => t
  | v :: vs => tsetRun d (tset d t k v) (k + 1) vs

/-- Changes every listed value of a table; one that becomes the default leaves. -/
def tmapAll {α : Type} [DecidableEq α] (d : α) (f : α → α) : Table α → Table α
  | [] => []
  | (k, v) :: t => if f v = d then tmapAll d f t else (k, f v) :: tmapAll d f t

/-- Reads `n` consecutive entries from `k`. -/
def tgetRun {α : Type} (d : α) (t : Table α) (k : Nat) : Nat → List α
  | 0 => []
  | n + 1 => tget d t k :: tgetRun d t (k + 1) n

end Sys2Proof.Machine
end

