-- ==== Sys2Proof/Machine/Bits.lean ====
section
/-! DEFINITION. Bit fields, byte order and the cyclic redundancy codes of the manual. -/

namespace Sys2Proof.Machine
open Sys2Proof

/-- Bits [lo + n - 1 : lo] of a number (R13). -/
def slice (v lo n : Nat) : Nat := (v >>> lo) % 2 ^ n

/-- One bit of a number. -/
def bitOf (v i : Nat) : Bool := decide (slice v i 1 = 1)

/-- 1 for true. -/
def b2n (b : Bool) : Nat := if b then 1 else 0

/-- The first `n` bytes of a number, little-endian (R13). -/
def leBytes : Nat → Nat → List Byte
  | 0, _ => []
  | n + 1, v => BitVec.ofNat 8 v :: leBytes n (v / 256)

/-- The number that little-endian bytes hold (R13). -/
def ofLe : List Byte → Nat
  | [] => 0
  | b :: bs => b.toNat + 256 * ofLe bs

/-- Two's-complement reading of the low `n` bits. -/
def toSigned (n v : Nat) : Int :=
  let u := v % 2 ^ n
  if 2 * u < 2 ^ n then (u : Int) else (u : Int) - 2 ^ n

/-- The low `n` bits of an integer in two's complement. -/
def ofSigned (n : Nat) (v : Int) : Nat := (v % (2 : Int) ^ n).toNat

/-- `n` bytes at `off`, short lists reading as zero bytes. -/
def bytesAt (bs : List Byte) (off n : Nat) : List Byte :=
  let t := (bs.drop off).take n
  t ++ List.replicate (n - t.length) 0

/-- The little-endian number in `n` bytes at `off`. -/
def numAt (bs : List Byte) (off n : Nat) : Nat := ofLe (bytesAt bs off n)

/-- Pads with zero bytes to `n`, or cuts. -/
def padTo (n : Nat) (bs : List Byte) : List Byte := bs.take n ++ List.replicate (n - bs.length) 0

/-- Cuts a list into pieces of `n`, at most `fuel` of them. -/
def chunksOf {α : Type} (n : Nat) : Nat → List α → List (List α)
  | 0, _ => []
  | _ + 1, [] => []
  | fuel + 1, x :: xs => (x :: xs).take n :: chunksOf n fuel ((x :: xs).drop n)

/-- Pieces of `n`, none empty. -/
def piecesOf {α : Type} (n : Nat) (xs : List α) : List (List α) := chunksOf n (xs.length + 1) xs

/-- One bit into a CRC register of width `w`, most significant bit first, no reflection. -/
def crcBit (w poly r : Nat) (b : Bool) : Nat :=
  let top := bitOf r (w - 1)
  let s := (r * 2) % 2 ^ w
  if top != b then s ^^^ poly else s

/-- One byte into a CRC register, most significant bit first. -/
def crcByte (w poly r : Nat) (b : Byte) : Nat :=
  [7, 6, 5, 4, 3, 2, 1, 0].foldl (fun acc i => crcBit w poly acc (bitOf b.toNat i)) r

/-- The CRC of a byte sequence from initial value `init`, no final inversion. -/
def crcOf (w poly init : Nat) (bs : List Byte) : Nat := bs.foldl (crcByte w poly) init

/-- CRC-24 of RFC 4880 (R42). -/
def crc24 (bs : List Byte) : Nat := crcOf 24 0x864CFB 0xB704CE bs

/-- CRC-64/ECMA-182 with an initial value (R86, R370). -/
def crc64From (init : Nat) (bs : List Byte) : Nat := crcOf 64 0x42F0E1EBA9EA3693 init bs

/-- CRC-64 with initial value 0 (R86). -/
def crc64 (bs : List Byte) : Quad := BitVec.ofNat 64 (crc64From 0 bs)

/-- The CRC-8 of field checks (R303). -/
def crc8 (bs : List Byte) : Byte := BitVec.ofNat 8 (crcOf 8 0x07 0 bs)

/-- Adds one to a saturating counter (Tables 9.6, 12.6, 16.5). -/
def satInc {n : Nat} (c : BitVec n) : BitVec n := if c = BitVec.allOnes n then c else c + 1

/-- Adds to a saturating counter. -/
def satAdd {n : Nat} (c : BitVec n) (k : Nat) : BitVec n :=
  if c.toNat + k < 2 ^ n then c + BitVec.ofNat n k else BitVec.allOnes n

/-- Serial comparison (R327): whether a is before b; none is the function's `undefined`, outside the window. -/
def before (a b modulus window : Nat) : Option Bool :=
  let a := if modulus = 2 ^ 48 - 1 then a + modulus - 1 else a
  let b := if modulus = 2 ^ 48 - 1 then b + modulus - 1 else b
  let d := (b + modulus - a % modulus) % modulus
  if d = 0 then some false
  else if d < window then some true
  else if modulus - window < d then some false
  else none

/-- Whether a moment of block time has come (R326, R327): the time now is not before it. Outside the window, where R326 lets no
comparison happen, it has (assumption log 89). -/
def hasCome (t now : Quad) : Bool := before now.toNat t.toNat (2 ^ 64) (2 ^ 62) != some true

/-- Whether some element of a list passes. -/
def has {α : Type} [DecidableEq α] (xs : List α) (x : α) : Bool := xs.contains x

/-- Adds an element to a list kept without repeats. -/
def addOnce {α : Type} [DecidableEq α] (xs : List α) (x : α) : List α := if xs.contains x then xs else xs ++ [x]

/-- The least number of a list. -/
def minOf : List Nat → Option Nat
  | [] => none
  | x :: xs => match minOf xs with
    | none => some x
    | some y => some (min x y)

/-- Inserts a number in a rising list without repeats. -/
def insertRise (x : Nat) : List Nat → List Nat
  | [] => [x]
  | y :: ys => if x < y then x :: y :: ys else if x = y then y :: ys else y :: insertRise x ys

/-- The rising list of a list's numbers, each once. -/
def sortRise (xs : List Nat) : List Nat := xs.foldr insertRise []

/-- Numbers from `lo` upward, `n` of them. -/
def upFrom (lo n : Nat) : List Nat := (List.range n).map (· + lo)

/-- Updates the first element that passes `p`. -/
def modFirst {α : Type} (p : α → Bool) (f : α → α) : List α → List α
  | [] => []
  | x :: xs => if p x then f x :: xs else x :: modFirst p f xs

/-- Division rounding up. -/
def ceilDiv (a b : Nat) : Nat := (a + b - 1) / b

end Sys2Proof.Machine
end

