-- ==== Sys2Proof/Machine/Formats.lean ====
section
/-! DEFINITION. Element formats (chapter 3): codes, encodings, NaNs, order, and the arithmetic of one floating-point
operation, exact and then rounded once. -/

namespace Sys2Proof.Machine
open Sys2Proof

/-- The floating-point formats (Table 3.3). -/
inductive Fp where
  | b64 | b32 | b16 | bf16 | e4m3 | e5m2
deriving DecidableEq, Repr

/-- Width in bits. -/
def Fp.width : Fp → Nat
  | .b64 => 64 | .b32 => 32 | .b16 => 16 | .bf16 => 16 | .e4m3 => 8 | .e5m2 => 8

/-- Fraction bits f (Table 3.3). -/
def Fp.frac : Fp → Nat
  | .b64 => 52 | .b32 => 23 | .b16 => 10 | .bf16 => 7 | .e4m3 => 3 | .e5m2 => 2

/-- Exponent bias (Table 3.3). -/
def Fp.bias : Fp → Nat
  | .b64 => 1023 | .b32 => 127 | .b16 => 15 | .bf16 => 127 | .e4m3 => 7 | .e5m2 => 15

/-- emin (Table 3.3). -/
def Fp.emin (t : Fp) : Int := 1 - (t.bias : Int)

/-- emax (Table 3.3). -/
def Fp.emax : Fp → Int
  | .b64 => 1023 | .b32 => 127 | .b16 => 15 | .bf16 => 127 | .e4m3 => 8 | .e5m2 => 15

/-- All ones in the exponent field. -/
def Fp.expOnes (t : Fp) : Nat := 2 ^ (t.width - 1 - t.frac) - 1

/-- Encoding of the largest finite value, positive (Tables 3.3, 3.4). -/
def Fp.maxFin (t : Fp) : Nat :=
  match t with
  | .e4m3 => 0x7E
  | _ => t.expOnes * 2 ^ t.frac - 1

/-- Significand of the largest finite value, in units of 2^(emax - f). -/
def Fp.maxSig (t : Fp) : Nat := 2 ^ t.frac + t.maxFin % 2 ^ t.frac

/-- What an encoding stands for (R91, R92). -/
inductive FVal where
  | nan (s : Bool) (frac : Nat)
  | inf (s : Bool)
  | fin (s : Bool) (m : Nat) (e : Int)
deriving DecidableEq, Repr

/-- The value of an encoding (R91). -/
def Fp.decode (t : Fp) (x : Nat) : FVal :=
  let s := bitOf x (t.width - 1)
  let fr := slice x 0 t.frac
  let ex := slice x t.frac (t.width - 1 - t.frac)
  let ones := decide (ex = t.expOnes)
  if t = .e4m3 then
    if ones && decide (fr = 7) then .nan s 7
    else if ex = 0 then .fin s fr (t.emin - t.frac)
    else .fin s (2 ^ t.frac + fr) ((ex : Int) - t.bias - t.frac)
  else if ones then (if fr = 0 then .inf s else .nan s fr)
  else if ex = 0 then .fin s fr (t.emin - t.frac)
  else .fin s (2 ^ t.frac + fr) ((ex : Int) - t.bias - t.frac)

/-- The sign bit in its place. -/
def Fp.signBit (t : Fp) (s : Bool) : Nat := if s then 2 ^ (t.width - 1) else 0

/-- Encoding of a zero of sign s. -/
def Fp.zero (t : Fp) (s : Bool) : Nat := t.signBit s

/-- Encoding of an infinity, or E4M3's NaN of that sign (R105). -/
def Fp.infOrNan (t : Fp) (s : Bool) : Nat :=
  match t with
  | .e4m3 => t.signBit s + 0x7F
  | _ => t.signBit s + t.expOnes * 2 ^ t.frac

/-- The default NaN (Table 3.5). -/
def Fp.defaultNan (t : Fp) : Nat :=
  match t with
  | .e4m3 => 0x7F
  | _ => t.expOnes * 2 ^ t.frac + 2 ^ (t.frac - 1)

/-- Encoding of a NaN with a given fraction; E4M3 has one NaN of each sign (R99). -/
def Fp.nanEnc (t : Fp) (s : Bool) (fr : Nat) : Nat :=
  match t with
  | .e4m3 => t.signBit s + 0x7F
  | _ => t.signBit s + t.expOnes * 2 ^ t.frac + fr

/-- A NaN fraction with its quiet bit set (R97). -/
def Fp.quietFrac (t : Fp) (fr : Nat) : Nat := fr ||| 2 ^ (t.frac - 1)

/-- Whether an encoding is a NaN. -/
def Fp.isNan (t : Fp) (x : Nat) : Bool :=
  match t.decode x with
  | .nan _ _ => true
  | _ => false

/-- Whether an encoding is a zero of either sign. -/
def Fp.isZero (t : Fp) (x : Nat) : Bool :=
  match t.decode x with
  | .fin _ m _ => decide (m = 0)
  | _ => false

/-- A NaN with its quiet bit set, any other encoding unchanged (R100). -/
def Fp.quiet (t : Fp) (x : Nat) : Nat :=
  match t.decode x with
  | .nan s fr => t.nanEnc s (t.quietFrac fr)
  | _ => x

/-- The fraction of a NaN converted between formats (R99). -/
def nanConvert (a b : Fp) (s : Bool) (fr : Nat) : Nat :=
  if a.frac < b.frac then b.nanEnc s (fr * 2 ^ (b.frac - a.frac))
  else if b.frac < a.frac then b.nanEnc s (b.quietFrac (fr / 2 ^ (a.frac - b.frac)))
  else b.nanEnc s (b.quietFrac fr)

/-- Place in the order of R94: negative below positive, −0 below +0, magnitude by encoding. NaNs take no place. -/
def Fp.key (t : Fp) (x : Nat) : Int :=
  let mag := slice x 0 (t.width - 1)
  if bitOf x (t.width - 1) then - (mag : Int) - 1 else mag

/-! ### Rounding (R104 to R108, R163) -/

/-- Output rounding modes by code (Table 3.7): 0 RNE, 1 RTZ, 2 RUP, 3 RDN, 4 RSR. -/
abbrev RMode := Nat

/-- 2^max(0, k). -/
def pow2 (k : Int) : Nat := 2 ^ k.toNat

/-- The overflow rule of Table 3.8 (R163, overflow_case), for magnitude M / Q × 2^(−z). -/
def overflowCase (s : Bool) (m q : Nat) (z : Int) (t : Fp) (r : RMode) (sat : Bool) (u : Nat) : Nat :=
  let lf := t.signBit s + t.maxFin
  let big := t.infOrNan s
  let w : Int := t.emax - t.frac
  -- everything below is scaled by 2^(-w) so that the top-binade unit is 1
  let mm := m * pow2 (-(w + z))
  let qq := q * pow2 (w + z)
  if sat || r == 1 then lf
  else if r == 0 then (if 2 * mm < (2 * t.maxSig + 1) * qq then lf else big)
  else if r == 2 then (if s then lf else big)
  else if r == 3 then (if s then big else lf)
  else
    let d := min (2 ^ 32) (2 ^ 32 * (mm - t.maxSig * qq) / qq)
    if slice u 32 32 < d then big else lf

/-- The largest e with q × 2^(e + z) ≤ m, for m and q above zero (R163). -/
def floorLog (m q : Nat) (z : Int) : Int :=
  let a : Int := (Nat.log2 m : Int) - (Nat.log2 q : Int)
  let b := if q * pow2 a ≤ m * pow2 (-a) then a else a - 1
  b - z

/-- glaze_round (R163): P / Q × 2^(−z) rounded once to a format; a zero P gives +0. -/
def glazeRound (p : Int) (q : Nat) (z : Int) (t : Fp) (r : RMode) (sat : Bool) (u : Nat) : Nat :=
  if p = 0 then 0 else
  let s := decide (p < 0)
  let m := p.natAbs
  let w : Int := t.emax - t.frac
  if t.maxSig * q * pow2 (w + z) < m * pow2 (-(w + z)) then overflowCase s m q z t r sat u
  else
    let e := floorLog m q z
    let k : Int := max e t.emin - t.frac
    let num := m * pow2 (-(k + z))
    let den := q * pow2 (k + z)
    let n := num / den
    let rem := num % den
    let up :=
      if r == 0 then decide (2 * rem > den) || (decide (2 * rem = den) && decide (n % 2 = 1))
      else if r == 2 then decide (rem > 0) && !s
      else if r == 3 then decide (rem > 0) && s
      else if r == 4 then decide (rem > 0) && decide (slice u 32 32 < 2 ^ 32 * rem / den)
      else false
    t.signBit s + ((k + t.frac + t.bias - 1).toNat * 2 ^ t.frac + n + b2n up)

/-- P / Q × 2^(−z) rounded to an integer by a rounding mode (R106, R164). -/
def roundInt (p : Int) (q : Nat) (z : Int) (r : RMode) : Int :=
  let s := decide (p < 0)
  let num := p.natAbs * pow2 (-z)
  let den := q * pow2 z
  let n := num / den
  let rem := num % den
  let up :=
    if r == 0 then decide (2 * rem > den) || (decide (2 * rem = den) && decide (n % 2 = 1))
    else if r == 2 then decide (rem > 0) && !s
    else if r == 3 then decide (rem > 0) && s
    else false
  let v : Int := (n + b2n up : Nat)
  if s then -v else v

/-! ### One floating-point operation (R96, R98) -/

/-- A signed finite value as P × 2^e. -/
def signedSig (s : Bool) (m : Nat) : Int := if s then -(m : Int) else m

/-- Sum of two encodings of one format, rounded to nearest even (R96, R98). -/
def Fp.add (t : Fp) (a b : Nat) : Nat :=
  match t.decode a, t.decode b with
  | .nan _ _, _ => t.quiet a
  | _, .nan _ _ => t.quiet b
  | .inf s, .inf s' => if s = s' then a else t.defaultNan
  | .inf _, _ => a
  | _, .inf _ => b
  | .fin s m e, .fin s' m' e' =>
    let k := min e e'
    let p := signedSig s m * pow2 (e - k) + signedSig s' m' * pow2 (e' - k)
    if p = 0 then t.zero (decide (m = 0) && decide (m' = 0) && s && s')
    else glazeRound p 1 (-k) t 0 false 0

/-- Negation of a number; a difference does not negate a NaN (R98). -/
def Fp.sub (t : Fp) (a b : Nat) : Nat :=
  if t.isNan a || t.isNan b then t.add a b else t.add a (b ^^^ 2 ^ (t.width - 1))

/-- Product, rounded to nearest even. -/
def Fp.mul (t : Fp) (a b : Nat) : Nat :=
  match t.decode a, t.decode b with
  | .nan _ _, _ => t.quiet a
  | _, .nan _ _ => t.quiet b
  | .inf s, .inf s' => t.infOrNan (s != s')
  | .inf s, .fin s' m _ => if m = 0 then t.defaultNan else t.infOrNan (s != s')
  | .fin s m _, .inf s' => if m = 0 then t.defaultNan else t.infOrNan (s != s')
  | .fin s m e, .fin s' m' e' =>
    let sg := s != s'
    if m * m' = 0 then t.zero sg else glazeRound (signedSig sg (m * m')) 1 (-(e + e')) t 0 false 0

/-- Quotient, rounded to nearest even (R96). -/
def Fp.div (t : Fp) (a b : Nat) : Nat :=
  match t.decode a, t.decode b with
  | .nan _ _, _ => t.quiet a
  | _, .nan _ _ => t.quiet b
  | .inf _, .inf _ => t.defaultNan
  | .inf s, .fin s' _ _ => t.infOrNan (s != s')
  | .fin s _ _, .inf s' => t.zero (s != s')
  | .fin s m e, .fin s' m' e' =>
    let sg := s != s'
    if m' = 0 then (if m = 0 then t.defaultNan else t.infOrNan sg)
    else if m = 0 then t.zero sg
    else glazeRound (signedSig sg m) m' (-(e - e')) t 0 false 0

/-- A number converted to another format: exact when the target is wider, rounded to nearest even otherwise (R93, R99). -/
def fpConvert (a b : Fp) (x : Nat) : Nat :=
  match a.decode x with
  | .nan s fr => nanConvert a b s fr
  | .inf s => b.infOrNan s
  | .fin s m e => if m = 0 then b.zero s else glazeRound (signedSig s m) 1 (-e) b 0 false 0

/-- x × y in type T with one rounding, x and y in a format that T holds (R136). -/
def mulInto (a t : Fp) (x y : Nat) : Nat :=
  t.mul (fpConvert a t (a.quiet x)) (fpConvert a t (a.quiet y))

/-- fma_T(x, y, run): x × y + run with one rounding; a NaN result is taken in the order run, x, y (R137). -/
def fmaInto (a t : Fp) (x y run : Nat) : Nat :=
  if t.isNan run then t.quiet run
  else if a.isNan x then t.quiet (fpConvert a t (a.quiet x))
  else if a.isNan y then t.quiet (fpConvert a t (a.quiet y))
  else match a.decode x, a.decode y with
  | .fin s m e, .fin s' m' e' =>
    match t.decode run with
    | .fin sr mr er =>
      let sg := s != s'
      let k := min (e + e') er
      let p := signedSig sg (m * m') * pow2 (e + e' - k) + signedSig sr mr * pow2 (er - k)
      if p = 0 then t.zero (decide (m * m' = 0) && decide (mr = 0) && sg && sr)
      else glazeRound p 1 (-k) t 0 false 0
    | _ => run
  | _, _ => t.add run (t.mul (fpConvert a t x) (fpConvert a t y))

/-- An exact nonnegative integer in a format (counts of MEANVAR: R133 converts them exactly first). -/
def Fp.ofCount (t : Fp) (n : Nat) : Nat := if n = 0 then 0 else glazeRound n 1 0 t 0 false 0

/-! ### Seeded stochastic rounding (R107) -/

/-- mix (R107). -/
def srMix (z : Nat) : Nat :=
  let a := (z ^^^ (z >>> 30)) * 0xBF58476D1CE4E5B9 % 2 ^ 64
  let b := (a ^^^ (a >>> 27)) * 0x94D049BB133111EB % 2 ^ 64
  b ^^^ (b >>> 31)

/-- sr_word (R107). -/
def srWord (seed ctr j : Nat) : Nat :=
  let g := 0x9E3779B97F4A7C15
  let k := srMix ((seed + g) % 2 ^ 64)
  let k' := srMix (k ^^^ ctr)
  srMix ((k' + (j + 1) * g) % 2 ^ 64)

/-! ### Format codes (Table 3.1) -/

/-- The floating-point component format of a code, dual formats included. -/
def fpOf : Nat → Option Fp
  | 1 => some .b64 | 2 => some .b32 | 3 => some .b16 | 4 => some .bf16 | 5 => some .e4m3 | 6 => some .e5m2
  | 0x10 => some .b64 | 0x11 => some .b32 | 0x12 => some .bf16
  | _ => none

/-- Bits and signedness of an integer code. -/
def intOf : Nat → Option (Nat × Bool)
  | 8 => some (8, true) | 9 => some (16, true) | 10 => some (32, true) | 11 => some (64, true) | 12 => some (64, false)
  | _ => none

/-- Whether a code is dual. -/
def isDual (c : Nat) : Bool := c == 0x10 || c == 0x11 || c == 0x12

/-- Whether a code is a plain floating-point format. -/
def isFloat (c : Nat) : Bool := decide (1 ≤ c) && decide (c ≤ 6)

/-- Whether a code is an integer format. -/
def isInt (c : Nat) : Bool := decide (8 ≤ c) && decide (c ≤ 12)

/-- Whether a code is assigned. -/
def fmtOk (c : Nat) : Bool := isFloat c || isInt c || isDual c

/-- A short output format (R582). -/
def isShort (c : Nat) : Bool := c == 3 || c == 4 || c == 5 || c == 6 || c == 0x12

/-- Component width in bytes (Table 3.1); 1 for a reserved code. -/
def compWidth (c : Nat) : Nat :=
  match fpOf c with
  | some t => t.width / 8
  | none => match intOf c with
    | some (n, _) => n / 8
    | none => 1

/-- Components of an element: 1, or 1 + w for a dual format (R87). -/
def comps (c tan : Nat) : Nat := if isDual c then 1 + 2 ^ tan else 1

/-- Element size in bytes (Tables 3.1, 3.6). -/
def elemSize (c tan : Nat) : Nat := compWidth c * comps c tan

/-- Permitted pairs (Table 3.2). -/
def pairOk (i o : Nat) : Bool :=
  if isFloat i then isFloat o
  else if i == 8 || i == 9 then o == i || o == 10 || o == 1
  else if isInt i then o == i || o == 1
  else if isDual i then isDual o
  else false

/-- Value of an integer element (R101). -/
def intValue (c x : Nat) : Int :=
  match intOf c with
  | some (n, true) => toSigned n x
  | _ => x

/-- Smallest and largest value of an integer format. -/
def intRange (c : Nat) : Int × Int :=
  match intOf c with
  | some (n, true) => (-(2 ^ (n - 1)), 2 ^ (n - 1) - 1)
  | some (n, false) => (0, 2 ^ n - 1)
  | none => (0, 0)

/-- An integer delivered in an integer format, and whether it was outside the range (R106). -/
def intDeliver (c : Nat) (v : Int) : Nat × Bool :=
  let (lo, hi) := intRange c
  let n := 8 * compWidth c
  if v < lo then (ofSigned n lo, true) else if hi < v then (ofSigned n hi, true) else (ofSigned n v, false)

end Sys2Proof.Machine
end

