-- ==== Sys2Proof/Machine/State.lean ====
section
/-! DEFINITION. The state of the block as plain data, and the state right after reset. Each structure is one unit of the
block; a field's docstring cites the rule that names it. Reset values are the spec's; where the spec gives none the
assumption log names the value. -/

namespace Sys2Proof.Machine
open Sys2Proof

/-- Why the machine could stop with a fault. No meaning of this model raises it: the spec describes no stop of the block
(R382: no firing stays unended because of a fault), and its own faults are effects on the state. -/
inductive Fault where
  | reserved
deriving DecidableEq, Repr

/-- Why a command has no meaning here. `notModelled` stands in a refused arm of the dispatch only; a refusal is safe. -/
inductive Refusal where
  | notModelled (mnemonic : String)
deriving DecidableEq, Repr

/-! ### Exact values, elements and flits -/

/-- A sherd's value (R114, R115): the finite part as the integer A, the three counts and the sign-of-zero flag. -/
structure Sherd where
  nan  : Nat := 0
  ninf : Nat := 0
  pinf : Nat := 0
  negz : Bool := false
  fin  : Int := 0
deriving DecidableEq, Repr

/-- One element between two steps of the tree. `xs` are its numbers: encodings of the level's accumulate type for a
floating-point number, the value itself for an integer. `cnt` is the count of MEANVAR and the tie count of AVERAGE
(R133, R189), `rank` the rank a MAX or MAXLOC carries (R132), `sh` the sherds of exact mode. -/
structure Elem where
  xs   : List Int := []
  cnt  : Nat := 0
  rank : Nat := 0xFFFF
  sh   : List Sherd := []
deriving DecidableEq, Repr

/-- An element in a stream: absent or present (R64), poisoned (R405), overflowed in scaled INT32 (R141), or formed by a
step whose exact result lay outside its type (R112, R125, R223). -/
structure Cell where
  val    : Option Elem := none
  poison : Bool := false
  ovf    : Bool := false
  range  : Bool := false
deriving DecidableEq, Repr

/-- A flit (Tables 1.5 and 1.6), less its CRC, which `Flit.bytes` forms. -/
structure Flit where
  type   : BitVec 8 := 0
  poison : Bool := false
  last   : Bool := false
  segEnd : Bool := false
  replay : Bool := false
  stripe : BitVec 10 := 0
  setter : BitVec 10 := 0
  payload : List Byte := []
deriving DecidableEq, Repr

/-- A flit on its way, with what the model keeps beside it (assumption log 7): how many sherds begin in it, the stripe it is
of and its byte offset in that stripe's downward stream, the leaves it is for where not all receivers take it; the link flit count that it has on a bridge (R47, which names
flits by it and gives it no place in the flit; assumption log 53); and for a
SCAN or a COUNT phase the member values by position (assumption log 5). -/
structure Carry where
  flit  : Flit := {}
  sherds : Nat := 0
  parts : List (List (Nat × Cell)) := []
  dst   : Option (List Nat) := none
  ix    : Nat := 0
  off   : Nat := 0
  count : BitVec 16 := 0
deriving DecidableEq, Repr

/-! ### Links and nodes -/

/-- One datapath link of one plane in one direction, keyed by its counter index (R449). The first fields serve both kinds
(R43); the on-die fields hold the wires of R44, the bridge fields the retry of R47 (`sym` are the data wires of R46, `seen` what the
receiver last took, `ack` the acknowledge wire), the rest the counters of Table 12.6. -/
structure Link where
  failed    : Bool := false
  reported  : Bool := false
  reason    : BitVec 5 := 0
  offer     : Option Carry := none
  wires     : List Byte := []
  invert    : List Bool := []
  sentCount : BitVec 16 := 0
  recvCount : BitVec 16 := 0
  retry     : List Carry := []
  resend    : List Carry := []
  nak       : Option (BitVec 16) := none
  waiting   : Option (BitVec 16) := none
  noReplay  : Nat := 0
  repeated  : Bool := false
  rxq       : List Carry := []
  sym       : BitVec 1136 := 0
  seen      : BitVec 1136 := 0
  ack       : Bool := false
  crcErr    : BitVec 32 := 0
  retries   : BitVec 32 := 0
  nakRepeat : BitVec 16 := 0
  replayed  : BitVec 32 := 0
  lastFlit  : Quad := 0
  shakes    : Nat := 0
deriving DecidableEq, Repr

/-- One input of a node for one firing: the elements that have arrived and are not yet combined, the bytes of a multi-flit
element or record still incomplete, the bytes of a contiguous or copied stream with the poison of the flit each came in,
how many elements of the stripe now arriving have come, and how many stripes have ended. -/
structure InStream where
  cells : List Cell := []
  parts : List (List (Nat × Cell)) := []
  frag  : List Byte := []
  fragPoison : Bool := false
  bytes : List (Byte × Bool) := []
  got   : Nat := 0
  stripes : Nat := 0
  count : Option Nat := none
deriving DecidableEq, Repr

/-- One firing active at one node of one plane (R306 condition 2): the inputs that lead to a contributing member, what each
has delivered, the place of the next element to combine (the stripe's place in the plane's order, and the elements combined
of it), the combined elements not yet packed into a flit, and the twins that have returned since the firing was granted, which it
does not use (R388). -/
structure Slot where
  setter : Nat
  without : List Twin := []
  mask   : List Nat := []
  ins    : Table InStream := []
  ord    : Nat := 0
  emitted : Nat := 0
  out    : List Cell := []
  outParts : List (List (Nat × Cell)) := []
deriving DecidableEq, Repr

/-- NODE_STATUS (Table 12.7) and the counters a node position keeps (Table 12.6). -/
structure NodeStat where
  outReason  : BitVec 5 := 0
  testFailed : Bool := false
  selfTest   : Bool := false
  pairOut    : Bool := false
  bOut       : Bool := false
  aOut       : Bool := false
  reported   : Bool := false
  residueA   : BitVec 16 := 0
  residueB   : BitVec 16 := 0
  miscompare : BitVec 16 := 0
  sramCorr   : BitVec 32 := 0
  sramUncorr : BitVec 16 := 0
  stray      : BitVec 32 := 0
deriving DecidableEq, Repr

/-- A datapath node of one plane: its active slots and the flits ready for its outgoing links, with the setter served last
on each (R51). -/
structure Node where
  stat   : NodeStat := {}
  slots  : List Slot := []
  outUp  : List Carry := []
  rrUp   : Nat := 0
  outDown : List (Nat × Carry) := []
  rrDown : List (Nat × Nat) := []
deriving DecidableEq, Repr

/-! ### Control path messages (Tables 9.2, 9.4, 9.5) -/

/-- An ARM. The fields are those of Table 9.2; `ord` is the position the cluster node counted it to (R294), `desc` and
`segs` the reference member's descriptor and segment table, `who` the leaves merged with their valid counts: what the kiln
knows of a firing beyond the digests, which the spec gives no carrier for (assumption log 6). `first` marks the notice by which
the kiln learns of a position's first ARM while the nodes below still merge (assumption log 9). -/
structure Arm where
  mship   : Quad := 0
  checks  : List Byte := []
  digest  : Quad := 0
  valid   : BitVec 32 := 0
  splitCode : BitVec 8 := 0x61
  last    : BitVec 16 := 0xFFFF
  deniedIx : BitVec 16 := 0xFFFF
  nwIx    : BitVec 16 := 0xFFFF
  invalidIx : BitVec 16 := 0xFFFF
  splitIx : BitVec 16 := 0xFFFF
  refIx   : BitVec 16 := 0xFFFF
  group   : Nat := 0
  invalidCode : BitVec 8 := 0
  denied  : Bool := false
  nw      : Bool := false
  invalid : Bool := false
  mshipSplit : Bool := false
  late    : Bool := false
  reset   : Bool := false
  abort   : Bool := false
  barrier : Bool := false
  foreign : Bool := false
  first   : Bool := false
  ord     : Nat := 0
  desc    : BitVec 1024 := 0
  segs    : List (BitVec 256) := []
  who     : List (Nat × Nat) := []
deriving DecidableEq, Repr

/-- A GRANT (Table 9.4): a first grant, a replay (R142) or a redeal (R392). -/
structure GrantMsg where
  ts     : Quad := 0
  fn     : BitVec 48 := 0
  seq    : BitVec 32 := 0
  setter : BitVec 10 := 0
  group  : BitVec 20 := 0
  planes : BitVec 4 := 0
  latency : Bool := false
  attempt : BitVec 2 := 0
deriving DecidableEq, Repr

/-- An end message (Table 9.5); `segs` are the statuses of the segments (R237), `undef` tells that the result areas are
not defined (Table 9.7) and `ord` is the position, which the table has no fields for (assumption log 6). -/
structure EndMsg where
  ts     : Quad := 0
  digest : Quad := 0
  fn     : BitVec 48 := 0
  seq    : BitVec 32 := 0
  drop   : BitVec 32 := 0
  group  : BitVec 20 := 0
  setter : BitVec 10 := 0
  target : BitVec 16 := 0xFFFF
  rank   : BitVec 16 := 0xFFFF
  code   : BitVec 8 := 0
  status : BitVec 8 := 0
  scale  : BitVec 8 := 0
  noGrant : Bool := false
  segs   : List (BitVec 8) := []
  undef  : Bool := false
  ord    : Nat := 0
deriving DecidableEq, Repr

/-- A downward message of the control path (Table 1.4). `dst` are the leaves it leads to. -/
inductive CtlMsg where
  | grant (g : GrantMsg) (dst : List Nat)
  | done (e : EndMsg) (dst : List Nat)
  | release (e : EndMsg) (dst : List Nat) (epoch : Bool)
deriving DecidableEq, Repr

/-- A position at a control node that has an ARM below it and has not ended (R298). -/
structure CtlPos where
  group : Nat
  ord   : Nat
  arm   : Arm
  armed : List Nat
deriving DecidableEq, Repr

/-- A cached group record (R483): the membership digest, and the node's inputs that lead to a member. -/
structure GroupRec where
  group  : Nat
  digest : Quad
  inputs : List Nat
deriving DecidableEq, Repr

/-- A control-path node: its status, the ARMs waiting at its inputs, the positions it merges, the positions known ended
that some input has not armed, the count of positions each input has armed per group (key 64 × group + input; cluster nodes),
its cache of group records (most recently used first), and the messages to copy below. -/
structure CtlNode where
  stat   : NodeStat := {}
  inq    : List (Nat × Arm) := []
  pos    : List CtlPos := []
  ended  : List (Nat × Nat) := []
  counts : Table Nat := []
  cache  : List GroupRec := []
  downq  : List CtlMsg := []
  wires  : Table (BitVec 129) := []
deriving DecidableEq, Repr

/-! ### Leaf ports -/

/-- The three states of a bisque accumulator (R171). -/
inductive AccState where
  | neverWritten | empty | held
deriving DecidableEq, Repr

/-- A bisque accumulator (R171): its state, value, and the ring counts of the descriptors whose tags it bears (R181). -/
structure Bisque where
  st  : AccState := .neverWritten
  val : Sherd := {}
  tags : List (BitVec 16) := []
  damaged : Bool := false
deriving DecidableEq, Repr

/-- The leaf states of a firing (Table 9.1) and of a bisque pass: taken but not armed, waiting for GRANT, running. -/
inductive LeafPhase where
  | taken | waiting | running | pass
deriving DecidableEq, Repr

/-- One chunk read by the leaf port: its bytes, or none when the read failed (R282). -/
structure Chunk where
  area : Area
  ix   : Nat
  data : Option (List Byte)
deriving DecidableEq, Repr

/-- A descriptor taken from the ring and not yet completed (R264): the descriptor, what the leaf port found of it, its rank,
member count, member index and ragged mode under the set it was granted with, its grant, its staged chunks, its place in
sending and receiving on each plane, the result bytes whose write is not yet complete, and how it ended. -/
structure Taken where
  cnt     : BitVec 16
  words   : BitVec 1024
  segs    : List (BitVec 256) := []
  phase   : LeafPhase := .taken
  invalid : Option Nat := none
  tags    : List Nat := []
  denied  : Bool := false
  rank    : Nat := 0xFFFF
  m       : Nat := 0
  idx     : Nat := 0
  ragged  : Nat := 0
  probe   : Option Nat := none
  probeBad : Bool := false
  chunks  : List Chunk := []
  tilesIn : Nat := 0
  landed  : List Nat := []
  setter  : BitVec 10 := 0
  fn      : BitVec 48 := 0
  seq     : BitVec 32 := 0
  ts      : Quad := 0
  latency : Bool := false
  attempt : BitVec 2 := 0
  planes  : List Nat := []
  deals   : List (List Nat) := []
  sendIx  : Table Nat := []
  sendFl  : Table Nat := []
  countSent : Bool := false
  counts  : List (Nat × Nat) := []
  counted : Bool := false
  stopped : Bool := false
  writes  : List (Nat × Byte) := []
  streams : Table (List (List Byte × Bool)) := []
  streamsIn : List Nat := []
  partDrop : Nat := 0
  badFirst : Option (Nat × BitVec 8) := none
  badCount : Nat := 0
  badAt   : List Nat := []
  poisAt  : List Nat := []
  ended   : Option EndMsg := none
  passEnd : Option (BitVec 8 × BitVec 8 × Nat) := none
  recLost : Bool := false
deriving DecidableEq, Repr

/-- One leaf port: the registers of Table 8.1 and the state behind them. `scratch` is the part of the core's scratchpad that
the leaf port has written (the scratchpad itself is outside the block; assumption log 2). -/
structure LeafPort where
  enable    : Bool := false
  chunkLog2 : BitVec 4 := 0xC
  cqThresh  : BitVec 4 := 0
  ringLog2  : BitVec 4 := 8
  ringBase  : Word := 0
  cqBase    : Word := 0
  ringTail  : BitVec 16 := 0
  ringHead  : BitVec 16 := 0
  cqTail    : BitVec 16 := 0
  cqHead    : BitVec 16 := 0
  intStatus : Word := 0
  intEnable : Word := 0
  configErr : Bool := false
  resetBusy : Bool := false
  cqFull    : Bool := false
  pushFault : Word := 0
  drainRefuse : Word := 0
  flogCount : Word := 0
  chunkFaults : Word := 0
  pushFaults : Word := 0
  drainsRefused : Word := 0
  flog      : Table (BitVec 128) := []
  pushBuf   : Table Byte := []
  bisque    : Table Bisque := []
  next      : BitVec 16 := 0
  held      : List (BitVec 16 × BitVec 1024 × List (BitVec 256)) := []
  taken     : List Taken := []
  retired   : List (BitVec 16) := []
  rank      : BitVec 16 := 0xFFFF
  failed    : Bool := false
  failReported : Bool := false
  failCounted : Bool := false
  unwritten : Nat := 0
  ctlA      : Bool := false
  ctlB      : Bool := false
  inbox     : List CtlMsg := []
  trim0     : Nat := 0
  trim1     : Nat := 0
  base      : Nat := 0
  clamped   : Bool := false
  delay     : Option Rat := none
  poisonFlits : BitVec 32 := 0
  sramCorr  : BitVec 32 := 0
  sramUncorr : BitVec 16 := 0
  armLast   : BitVec 32 := 0
  lagSum    : BitVec 48 := 0
  lagMax    : BitVec 32 := 0
  missing   : BitVec 32 := 0
  scratch   : Table Byte := []
deriving DecidableEq, Repr

/-! ### The kiln -/

/-- The kiln's states of a firing (Table 9.1). -/
inductive FireState where
  | arming | armed | granted | ended
deriving DecidableEq, Repr

/-- A firing at the kiln: `uid` tells it from every other (a sequence number comes again after a recreation); its position, its merged ARM and members, its admission, the lists
H it was dealt over (the grant's and each redeal's since), how many stripes of each plane's order the kiln has finished, its data as it leaves the kiln, and its end. `cause` is a decided end that is not yet
sent: status, rank, code and the block time of the decision. `wants` are the planes and `asked` the segments, by die slot, whose wakes it
has requested (R502), `region` the entry of its deposit region in the set it was granted with (R484), `depMapped` the elements that a
MAPPED_OUT answer took (R552), `heldSlots`
and `heldGlaze` the active slots, by node index, and glaze accumulators, by plane, that it has taken while it waits (R307). -/
structure Firing where
  uid    : Nat := 0
  group  : Nat
  ord    : Nat := 0
  seq    : BitVec 32
  saggar : Nat := 0
  st     : FireState := .arming
  arm    : Arm := {}
  armedBy : List Nat := []
  armedIn : List Nat := []
  expected : List Nat := []
  leaves : List Nat := []
  ranks  : List Nat := []
  ragged : Nat := 0
  latBytes : Nat := 0
  tag    : Nat := 0xFFFF
  service : Bool := true
  firstArm : Quad := 0
  coneEnd : Quad := 0
  armedAt : Nat := 0
  checked : Bool := false
  setter : Option Nat := none
  fn     : BitVec 48 := 0
  bornFn : BitVec 48 := 0
  aged   : Bool := false
  ts     : Quad := 0
  planes : List Nat := []
  latency : Bool := false
  attempt : Nat := 0
  waitPlane : Option Nat := none
  wants  : List Nat := []
  asked  : List (Nat × Nat) := []
  heldSlots : List Nat := []
  heldGlaze : List Nat := []
  deals  : List (List Nat) := []
  bound  : Option (Nat × Nat) := none
  prov   : Quad := 0
  doneIx : Table Nat := []
  appliedStripes : List Nat := []
  phase1Done : Bool := false
  counts : List (Nat × Nat) := []
  held   : Table (List (Byte × Bool)) := []
  values : Table (List Cell) := []
  result : Table (List Byte) := []
  aux    : Table (List Byte) := []
  scan   : Table (List (Nat × List Byte)) := []
  scanIn : Table (List (List (Nat × Cell))) := []
  ovf    : Bool := false
  ovfSegs : List Nat := []
  range  : Bool := false
  rangeBad : Bool := false
  rangeSegs : List Nat := []
  drop   : Nat := 0
  poisonRank : Option Nat := none
  poisonChunk : Nat := 0
  poisoned : Bool := false
  depWait : Nat := 0
  depLeft : Nat := 0
  depFailed : List Nat := []
  depPoison : Bool := false
  depBad : List Nat := []
  depMapped : List Nat := []
  region : BitVec 256 := 0
  cause  : Option (BitVec 8 × BitVec 16 × BitVec 8 × Quad) := none
  endMsg : Option EndMsg := none
  restEnd : Option Quad := none
deriving DecidableEq, Repr

/-- A kiln accumulator (R177). An element is its POSITION stack, lowest span last (R80); a SEQUENCE or exact accumulator
keeps at most one entry. -/
structure KAcc where
  written : Bool := false
  exact  : Bool := false
  count  : Nat := 0
  op     : Nat := 0
  inFmt  : Nat := 0
  tanLog2 : Nat := 0
  owner  : Option Nat := none
  holder : Option Nat := none
  place  : Option Bool := none
  spanEnd : Nat := 0
  elems  : List (List (Nat × Elem)) := []
  damaged : Bool := false
deriving DecidableEq, Repr

/-- A digest accumulator (Table 11.5). `opening` tells one opening from the next (R375). -/
structure DigestAcc where
  prov  : Quad := 0
  sum   : Quad := 0
  firings : BitVec 48 := 0
  tag   : BitVec 16 := 0xFFFF
  fails : BitVec 16 := 0
  poisons : BitVec 16 := 0
  saggar : BitVec 12 := 0
  sat   : Bool := false
  isOpen : Bool := false
  opening : Nat := 0
deriving DecidableEq, Repr

/-- What the kiln keeps for a group beside its configured entry: the RO fields of Table 14.5, the position at which its
incarnation starts and the next position to be granted or ended (positions are numbered on through recreations, 2^32 to an
incarnation), and the slowest-member counters of Table 9.6. -/
structure GroupRun where
  incarnation : BitVec 16 := 0
  reason  : BitVec 4 := 0
  broken  : Bool := false
  fenced  : Bool := false
  badRank : Nat := 0xFFFF
  base    : Nat := 0
  nextOrd : Nat := 0
  slowRank : BitVec 16 := 0
  slowLag : BitVec 32 := 0
deriving DecidableEq, Repr

/-- The kiln: positions and firings, setters, accumulators, digest accumulators, group state and ARM queue. `miscomp` are the firings
whose flits have miscompared, with the node position (R387), `writeFaults` the numbers of firings whose event of kind 0x0C is formed
(R419). -/
structure Kiln where
  inq     : List (Nat × Arm) := []
  firings : List Firing := []
  nextUid : Nat := 0
  resting : List Nat := []
  lastFn  : BitVec 48 := 0
  armCount : Nat := 0
  kaccs   : Table KAcc := []
  digests : Table DigestAcc := []
  openings : Nat := 0
  groups  : Table GroupRun := []
  cache   : List GroupRec := []
  redeals : BitVec 32 := 0
  quiet   : Option Nat := none
  paceHold : Bool := false
  failedLeaves : List Nat := []
  admitStopped : Bool := false
  miscomp : List (Nat × Nat) := []
  writeFaults : List (BitVec 48) := []
deriving DecidableEq, Repr

/-! ### Configuration -/

/-- The global set (Table 14.1). `stale` are the regions whose entries name a saggar that has been destroyed since they were written
(R473). -/
structure GlobalSet where
  policy  : BitVec 128 := 0x110000004#128
  disabled : BitVec 8192 := 0
  quota   : Table (BitVec 128) := []
  leafSag : Table (BitVec 64) := []
  budget  : Table (BitVec 16) := []
  regions : Table (BitVec 256) := []
  stale   : List Nat := []
deriving DecidableEq, Repr

/-- A saggar set (Table 14.1): group entries as written (RW fields) and member maps. -/
structure SaggarSet where
  groups : Table (BitVec 256) := []
  maps   : Table (BitVec 8192) := []
deriving DecidableEq, Repr

/-- A saggar number: whether it is in use, its handle, its sets and generations (R471, R478); `dying` is the port and tag of a
pending SAGGAR_DESTROY (R473). -/
structure Saggar where
  inUse  : Bool := false
  handle : Quad := 0
  created : Nat := 0
  active : SaggarSet := {}
  shadow : SaggarSet := {}
  activeGen : BitVec 32 := 0
  shadowGen : BitVec 32 := 0
  poked  : Bool := false
  dying  : Option (Nat × BitVec 16) := none
deriving DecidableEq, Repr

/-- The configuration tables and what the block derives from them. `badWords` are the words uncorrectable in one copy and
not yet repaired, `oneCopy` the table banks that run on copy B alone, `lost` the lost entries (R411, R413);
`swaps` are commits issued to the kiln: their set, port and tag (R481). -/
structure Config where
  active  : GlobalSet := {}
  shadow  : GlobalSet := {}
  activeGen : BitVec 32 := 0
  shadowGen : BitVec 32 := 0
  poked   : Bool := false
  saggars : Table Saggar := []
  rankToLeaf : Table (BitVec 16) := []
  leafToRank : Table (BitVec 16) := []
  nRanks  : Nat := 0
  shape   : Quad := 0
  reproKey : Quad := 0
  exactKey : Quad := 0
  keyFw   : BitVec 16 := 0
  depInit : List (Nat × Nat) := []
  badWords : List (CfgWord × Copy) := []
  oneCopy : List CfgWord := []
  lost    : List CfgWord := []
  corrA   : BitVec 32 := 0
  corrB   : BitVec 32 := 0
  uncorrA : BitVec 16 := 0
  uncorrB : BitVec 16 := 0
  swaps   : List (Option Nat × Nat × BitVec 16) := []
deriving DecidableEq, Repr

/-! ### Die slices: pyrometers, governor, wake sequencer -/

/-- The four states of a segment (R494). -/
inductive SegState where
  | parked | waking | awake | parking
deriving DecidableEq, Repr

/-- A die slice's services (R50): PYRO_STATUS and its companions (R359), the governor (R503, Table 15.3) and the wake
sequencer (R498). `sched` tells that a pass is due, `calWait` that a calibration waits for its next
scheduled time (R579), `settled` that r_cap stands at the governor's free-running target (R506). `govSlot` and `wakeSlot` are the block
times of the last slots served (R498, R503), `shakes` how many handshakes its links had completed at the last estimate (R508), `offline`
the planes taken out on request (R575). Segments are numbered 32 × island + segment; island 4p + k is CLU(p, k), 16 + p is SPN(p). -/
structure Die where
  dead   : Bool := false
  trimStale : Bool := true
  trimRange : Bool := false
  measuring : Bool := false
  quietHold : Bool := false
  epoch  : Bool := false
  loadCorr : Nat := 0
  tempNow : BitVec 11 := 0
  tempMeas : BitVec 11 := 0
  measTime : Quad := 0
  passed : Bool := false
  passedPace : Bool := false
  passes : BitVec 32 := 0
  missed : BitVec 32 := 0
  holds  : BitVec 32 := 0
  sched  : Bool := false
  started : Quad := 0
  holdStart : Quad := 0
  calWait : Bool := false
  newTrims : Bool := false
  lastFlip : Option Quad := none
  activity : Rat := 0
  vdd    : Rat := 0
  rLink  : Rat := 0
  rCap   : Rat := 0
  budgetLimited : Bool := false
  overBudget : Bool := false
  lowering : Bool := false
  settled : Bool := false
  limitedSlots : BitVec 32 := 0
  wakes  : BitVec 32 := 0
  parks  : BitVec 32 := 0
  segs   : Table SegState := []
  wakeQ  : List Nat := []
  parkQ  : List Nat := []
  calTries : Nat := 0
  govSlot : Option Quad := none
  wakeSlot : Option Quad := none
  shakes : Nat := 0
  offline : List Nat := []
deriving DecidableEq, Repr

/-! ### Mailbox ports and the management controller -/

/-- The states of a mailbox port (Table 13.3). -/
inductive PortState where
  | idle | pending | working | done
deriving DecidableEq, Repr

/-- A snapshot (R447): its port, scope, cut time, generations, firing entries and copied items. -/
structure Snapshot where
  id     : Nat
  port   : Nat
  saggar : Option Nat
  time   : Quad
  globalGen : BitVec 32
  sagGens : Table (BitVec 32)
  entries : List (BitVec 384)
  timing : Word
  nodes  : Table (BitVec 16)
  pyro   : Table (List Byte)
  kaccs  : Table KAcc
  failed : List Nat
deriving DecidableEq, Repr

/-- A mailbox port (Tables 13.1 to 13.6): ports 0 to 15 in host windows, 16 over SMBus, 17 over the test port. `lastTag` is L and
`stored` its response, empty while that is not yet formed (R433, R434). -/
structure Port where
  req    : Table Byte := []
  resp   : Table Byte := []
  st     : PortState := .idle
  curTag : BitVec 16 := 0
  intStatus : Word := 0
  intEnable : Word := 0
  session : Option (Byte × Byte) := none
  lastEffect : Option (BitVec 16) := none
  lastTag : Option (BitVec 16) := none
  stored : List Byte := []
  mask   : Word := 0
  evq    : List (BitVec 320) := []
  evSeq  : BitVec 32 := 0
  evLost : BitVec 32 := 0
deriving DecidableEq, Repr

/-- The states of a firmware bank (Table 13.12, FW_STATUS). -/
inductive BankState where
  | empty | staged | verified | active | failed
deriving DecidableEq, Repr

/-- A firmware bank of the boot store (R455). -/
structure Bank where
  st    : BankState := .empty
  bytes : Table Byte := []
  major : Byte := 0
  minor : Byte := 0
  patch : BitVec 16 := 0
  secVer : BitVec 16 := 0
deriving DecidableEq, Repr

/-- A maintenance activity, running or queued (Table 17.2); `out` are the parts of its target that were out when it started (R571). -/
structure Activity where
  id     : Nat
  code   : Nat
  target : Nat
  twin   : Nat
  dies   : List Nat
  kiln   : Bool
  port   : Nat
  tag    : BitVec 16
  start  : Quad
  queued : Bool
  out    : List Part := []
deriving DecidableEq, Repr

/-- How far the controller is: held in reset, the steps of Table 17.1, serving, activating, restarting, or safe mode. -/
inductive CtlPhase where
  | inReset | zeroing | readImage | readConfig | selfTest | firstPass | firstCommit | beforeServe | serving
  | switching | restarting | safe
deriving DecidableEq, Repr

/-- The management controller and its boot store. `confirm` is the bank of an image that the boot store has not yet recorded as
active, and the block time from which it serves (R459). `background` is the running FW_STAGE or FW_VERIFY: its port, tag and response
(R426). `booted` tells that the start-up sequence has ended once (R561), `stackHigh` and `stackLow` are the limits that firmware sets
(R461), `wdFrom` is the block time from which the watchdog runs (R464). -/
structure Controller where
  phase  : CtlPhase := .inReset
  lastPort : Nat := 17
  bankA  : Bank := {}
  bankB  : Bank := {}
  activeB : Bool := false
  tryB   : Bool := false
  triedBoth : Bool := false
  imageOk : Bool := false
  runMajor : Byte := 0
  runMinor : Byte := 0
  runPatch : BitVec 16 := 0
  quietFallback : Bool := false
  confirm : Option (Bool × Quad) := none
  background : Option (Nat × BitVec 16 × List Byte) := none
  noRecord : Bool := false
  selfTested : Bool := false
  mcFault : Bool := false
  log    : List (List Byte) := []
  restarts : List Quad := []
  onEmergency : Bool := false
  booted : Bool := false
  stackHigh : Word := 0
  stackLow : Word := 0
  wdFrom : Quad := 0
  acts   : List Activity := []
  abandoned : List Activity := []
  nextAct : Nat := 0
  snaps  : List Snapshot := []
  blockHandle : Quad := 0
deriving DecidableEq, Repr

/-! ### External ports -/

/-- The SMBus target (R527 to R530); `reply` is what the last read transaction returned on the bus, none when the target did
not acknowledge, and `pecOut` the PEC byte that follows it for a host that clocks on; `since` is the block time of the last failed
Host Notify attempt. -/
structure Smb where
  notifyEn : Bool := false
  notifyFailed : Bool := false
  running : Bool := false
  attempts : Nat := 0
  since  : Quad := 0
  sent   : Option (Byte × BitVec 16) := none
  reply  : Option (List Byte) := none
  pecOut : Byte := 0
deriving DecidableEq, Repr

/-- The test port (R523): the instruction register, the data register as last captured, and the registers behind them. -/
structure TestPort where
  ir     : Byte := 0x01
  dr     : List Bool := []
  boundary : List Bool := []
  driving : Bool := false
  mbxDone : Bool := false
  mbxData : Word := 0
  cntCode : Byte := 0
deriving DecidableEq, Repr

/-- The trace port (R519 to R522): its configuration, its queue, its sequence number and what was dropped. `out` are the transfers of
the last record sent: TRC_D and TRC_CTL. -/
structure Trace where
  cfg    : Word := 0
  queue  : List (BitVec 320) := []
  seq    : BitVec 32 := 0
  dropped : BitVec 32 := 0
  out    : List (BitVec 16 × Bool) := []
deriving DecidableEq, Repr

/-- A transmit buffer of the gateway (R535, R536, Table 16.10); `since` is the block time of its claim. -/
structure TxBuf where
  hdr    : BitVec 128 := 0
  data   : Table Byte := []
  owner  : BitVec 16 := 0xFFFF
  result : BitVec 4 := 0
  st     : BitVec 2 := 0
  length : Nat := 0
  sent   : Nat := 0
  since  : Quad := 0
deriving DecidableEq, Repr

/-- A receive box of the gateway (R535, R538, Table 16.10); `since` is the block time of its last flit. -/
structure RxBox where
  hdr    : BitVec 128 := 0
  data   : Table Byte := []
  got    : List Nat := []
  length : Nat := 0
  st     : BitVec 3 := 0
  since  : Quad := 0
deriving DecidableEq, Repr

/-- The gateway port: the package rank held, the buffers and boxes, the flit that a collision holds and since when; `out` is the last
flit handed to the SNI. -/
structure Gateway where
  rank   : Option (BitVec 16) := none
  tx     : Table TxBuf := []
  box    : Table RxBox := []
  hold   : Option (BitVec 664) := none
  since  : Quad := 0
  out    : Option (BitVec 664) := none
deriving DecidableEq, Repr

/-- The operations of Table 16.11. -/
inductive DepOp where
  | read | write | addI | addF32 | addF64
deriving DecidableEq, Repr

/-- A deposit request: its line, operation, mask and data, the firing's setter, and the elements it serves. -/
structure DepReq where
  id     : Nat
  op     : DepOp
  line   : Nat
  mask   : BitVec 64
  data   : BitVec 512
  uid    : Nat
  elems  : List Nat
  step   : Nat
deriving DecidableEq, Repr

/-- The deposit port: requests not yet accepted by memory, and those outstanding (R542, R553). `since` is the block time from which the
port has held the first of them. `parts` are requests that wait for further elements of their lines (R548). `glaze` holds the words
a GLAZE has read of its elements. -/
structure Deposit where
  queue  : List DepReq := []
  flying : List DepReq := []
  since  : Option Quad := none
  parts  : List DepReq := []
  nextId : Nat := 0
  glaze  : Table (List Int) := []
deriving DecidableEq, Repr

/-- The port counters of Table 16.5, by code. -/
abbrev PortCounters := Table (BitVec 56)

/-- The block. `pending` is the queue of the commands that wait, first in, first out; `tick` is the model's own counter to
which free values are applied, `handles` how many saggar handles have been formed (R441). -/
structure State where
  pending : List Instr := []
  tick    : Nat := 0
  handles : Nat := 0
  pwrokLow : Bool := true
  rstLow  : Bool := true
  cxReset : Bool := false
  straps  : Straps := { ndieM1 := 0, mfrId := 0, smbAddr := 0, debug := false }
  time    : Quad := 0
  refLost : Bool := false
  paceLocked : Bool := false
  paceMode : Bool := false
  releaseTarget : Rat := 0
  ctl     : Controller := {}
  cfg     : Config := {}
  leaves  : Table LeafPort := []
  links   : Table Link := []
  nodes   : Table Node := []
  ctls    : Table CtlNode := []
  kiln    : Kiln := {}
  dies    : Table Die := []
  ports   : Table Port := []
  faultLog : List (BitVec 256) := []
  smb     : Smb := {}
  test    : TestPort := {}
  trace   : Trace := {}
  gw      : Gateway := {}
  dep     : Deposit := {}
  counters : PortCounters := []
deriving DecidableEq, Repr

/-- The block right after power: held in block reset by its reset inputs, every register at its reset value, nothing
configured (R512; what the strap inputs will show is not known before BLOCK_RESET_END samples them, R515). -/
def State.reset : State := {}

end Sys2Proof.Machine
end

