-- ==== Sys2Proof/Machine/Arith.lean ====
section
/-! DEFINITION. The settings under which a firing, or a segment of one, computes, and the accumulate types of Table 4.1. -/

namespace Sys2Proof.Machine
open Sys2Proof

/-- What a firing's arithmetic reads of its descriptor (Table 7.3), with the scale of the current attempt (R140) and the
stochastic counter chosen by sr_ctr_sel (R107). `leafEntry` tells that the leaf-port link already carries the entry type
(R222) and `partials` that every link carries the level-3 type (R223). -/
structure Arith where
  kind  : Nat := 2
  op    : Nat := 1
  exact : Bool := false
  inF   : Nat := 1
  outF  : Nat := 1
  tan   : Nat := 0
  nanP  : Bool := false
  varDiv : Bool := false
  tie   : Bool := false
  rmode : Nat := 0
  sat   : Bool := false
  scale : Int := 0
  seed  : Nat := 0
  ctr   : Nat := 0
  winner : Bool := false
  form1 : Bool := false
deriving DecidableEq, Repr

/-- The type of one number inside the tree (Table 4.1). -/
inductive NumTy where
  | fp (t : Fp)
  | int (bits : Nat) (signed : Bool)
  | scaled
deriving DecidableEq, Repr

/-- Operator classes by code (Table 7.2). -/
def isSumOp (op : Nat) : Bool := op == 1 || op == 2 || op == 3 || op == 11
/-- MAX, MIN, MAXLOC, MINLOC. -/
def isMaxOp (op : Nat) : Bool := decide (4 ≤ op) && decide (op ≤ 7)
/-- MIN or MINLOC: the order of R94 reversed (R131). -/
def isMinOp (op : Nat) : Bool := op == 5 || op == 7
/-- MAXLOC or MINLOC. -/
def isLocOp (op : Nat) : Bool := op == 6 || op == 7
/-- AND, OR, XOR. -/
def isBitOp (op : Nat) : Bool := decide (8 ≤ op) && decide (op ≤ 10)

/-- Exact arithmetic proper: mode 1 with a summing operator; the others follow the fast steps (R151, R152). -/
def Arith.isExact (a : Arith) : Bool := a.exact && isSumOp a.op

/-- Tangents of an element: w for a dual format, 0 otherwise (R87). -/
def Arith.w (a : Arith) : Nat := if isDual a.inF then 2 ^ a.tan else 0

/-- Whether the ranks of a maximum travel with its value: MAXLOC, MINLOC, winner records and dual MAX and MIN
(R132, R197, R203). -/
def Arith.hasRank (a : Arith) : Bool := isLocOp a.op || (isMaxOp a.op && (a.winner || isDual a.inF))

/-- tie_rule AVERAGE on a dual maximum (R189). -/
def Arith.average (a : Arith) : Bool := a.tie && isDual a.inF && isMaxOp a.op

/-- The accumulate type of a format's own elements (the last row of Table 4.1). -/
def ownTy (fmt : Nat) : NumTy :=
  match fpOf fmt with
  | some t => .fp t
  | none => match intOf fmt with
    | some (n, s) => .int n s
    | none => .int 8 true

/-- Table 4.1: the type at a level, level 0 being the entry type. A dual format uses its component's row (R123). -/
def accTy (op fmt level : Nat) : NumTy :=
  if isSumOp op then
    match fpOf fmt with
    | some .b64 => .fp .b64
    | some .b32 => if op == 1 || op == 3 then (if level == 0 then .fp .b32 else .fp .b64) else .fp .b64
    | some t =>
      if op == 11 then .fp .b64
      else if 2 ≤ level then .fp .b64
      else if level == 1 then .fp .b32
      else if op == 2 then .fp .b32 else .fp t
    | none =>
      if fmt == 8 || fmt == 9 then .scaled
      else if fmt == 10 && op == 1 then (if level == 0 then .int 32 true else .int 64 true)
      else .int 128 true
  else if isMaxOp op && fmt == 5 && level != 0 then .fp .b16
  else ownTy fmt

/-- The types of an element's numbers at a level, in the order of `Elem.xs` (R123, R189, R191, Table 6.4). -/
def Arith.tys (a : Arith) (level : Nat) : List NumTy :=
  let t := accTy a.op a.inF level
  if a.op == 3 then List.replicate (2 + 2 * a.w) t
  else if a.average then t :: List.replicate a.w (accTy 1 a.inF level)
  else List.replicate (1 + a.w) t

/-- Width in bytes of a number on a link. -/
def NumTy.bytes : NumTy → Nat
  | .fp t => t.width / 8
  | .int n _ => n / 8
  | .scaled => 4

/-- A number's encoding in its width. -/
def NumTy.enc (t : NumTy) (v : Int) : Nat := ofSigned (8 * t.bytes) v

/-- A number from its encoding: the encoding itself for a floating-point type, the value for an integer one. -/
def NumTy.dec (t : NumTy) (x : Nat) : Int :=
  match t with
  | .fp f => (slice x 0 f.width : Nat)
  | .int n true => toSigned n x
  | .int n false => (slice x 0 n : Nat)
  | .scaled => toSigned 32 x

/-- A number moved from one type to a wider one (R124): exact for a floating-point number, the same value for an
integer. -/
def moveTy (s t : NumTy) (v : Int) : Int :=
  match s, t with
  | .fp f, .fp g => if f = g then v else (fpConvert f g v.toNat : Nat)
  | _, _ => v

end Sys2Proof.Machine
end

