-- ==== Sys2Proof/Machine/Exact.lean ====
section
/-! DEFINITION. The exact accumulator format and sherds (R110 to R122), the glaze stage's rounding of a sum (R120, R164),
exact MEANVAR (R165, R192), and sherds in memory (R118, R168, R170). -/

namespace Sys2Proof.Machine
open Sys2Proof

/-- The range of an exact accumulator, as the integer A (R112). -/
def eafIn (a : Int) : Bool := decide (-(2 ^ 4351) ≤ a) && decide (a < 2 ^ 4351)

/-- A reduced to 4,352 bits of two's complement (R110). -/
def eafWrap (a : Int) : Int := toSigned 4352 (a % 2 ^ 4352).toNat

/-- Bit 2,148 of A has weight 1 (Table 3.9). -/
def eafOne : Int := 2 ^ 2148

/-- Limb i of A (R110). -/
def limbOf (a : Int) (i : Nat) : Nat := ((a / 2 ^ (64 * i)) % 2 ^ 64).toNat

/-- The lowest limb that is not zero, and the highest at or above it that differs from the sign pattern (R117). -/
def limbSpan (a : Int) : Nat × Nat :=
  let ext := if a < 0 then 2 ^ 64 - 1 else 0
  match (List.range 68).find? (fun i => limbOf a i != 0) with
  | none => (0, 0)
  | some lo => (lo, (upFrom (lo + 1) (67 - lo)).foldl (fun hi i => if limbOf a i != ext then i else hi) lo)

/-- A sherd header's number (Table 3.10) for given limbs. -/
def sherdHeader (s : Sherd) (sext : Bool) (c lo : Nat) : Nat :=
  s.nan * 2 ^ 50 + s.ninf * 2 ^ 37 + s.pinf * 2 ^ 24 + b2n s.negz * 2 ^ 17 + b2n sext * 2 ^ 16 + c * 2 ^ 8 + lo

/-- The canonical sherd of a value: its header and its limbs (R117, R121). -/
def Sherd.canon (s : Sherd) : Nat × List Nat :=
  if s.fin = 0 then (sherdHeader s false 0 0, [])
  else
    let (lo, hi) := limbSpan s.fin
    (sherdHeader s (decide (s.fin < 0)) (hi - lo + 1) lo, (upFrom lo (hi - lo + 1)).map (limbOf s.fin))

/-- A sherd with limb 0 to limb 67, as a debug read returns it (R113, R183). -/
def Sherd.whole (s : Sherd) : Nat × List Nat :=
  (sherdHeader s (decide (s.fin < 0)) 68 0, (List.range 68).map (limbOf s.fin))

/-- The absent marker (R155). -/
def absentHeader : Nat := 0x7F

/-- Bytes of a header and its limbs, little-endian (R118). -/
def sherdBytes (h : Nat × List Nat) : List Byte := leBytes 8 h.1 ++ (h.2.map (leBytes 8)).flatten

/-- limb_count of a header. -/
def hdrLimbs (h : Nat) : Nat := slice h 8 8

/-- Whether a header and its limbs are well formed (R116). -/
def sherdOk (h : Nat) (limbs : List Nat) : Bool :=
  let c := hdrLimbs h
  let l := slice h 0 7
  let sext := bitOf h 16
  !bitOf h 63 && slice h 18 6 == 0 && !bitOf h 7 && decide (c ≤ 68) && decide (l + c ≤ 68)
    && (c != 0 || (l == 0 && !sext))
    && (l + c != 68 || sext == bitOf (limbs.getLastD 0) 63)

/-- The value of a header and its limbs (R115). -/
def sherdValue (h : Nat) (limbs : List Nat) : Sherd :=
  let l := slice h 0 7
  let mag : Nat := limbs.foldr (fun x acc => x + 2 ^ 64 * acc) 0
  let a : Int := (mag : Int) * 2 ^ (64 * l) - (b2n (bitOf h 16) : Int) * 2 ^ (64 * (l + limbs.length))
  { nan := slice h 50 13, ninf := slice h 37 13, pinf := slice h 24 13, negz := bitOf h 17, fin := a }

/-- A count saturating at 8,191 (R119). -/
def satCount (n : Nat) : Nat := min n 8191

/-- The sum of two sherds, and whether it left the range (R112, R119). -/
def Sherd.add (x y : Sherd) : Sherd × Bool :=
  let a := x.fin + y.fin
  ({ nan := satCount (x.nan + y.nan), ninf := satCount (x.ninf + y.ninf), pinf := satCount (x.pinf + y.pinf),
     negz := x.negz && y.negz, fin := if eafIn a then a else eafWrap a }, !eafIn a)

/-- A floating-point value P × 2^e as A (R121); e + 2148 is never negative. -/
def eafOf (p : Int) (e : Int) : Int := p * pow2 (e + 2148)

/-- sherd_from_value (R121). -/
def sherdOfValue (fmt x : Nat) : Sherd :=
  match fpOf fmt with
  | none => { fin := intValue fmt x * eafOne }
  | some t => match t.decode x with
    | .nan _ _ => { nan := 1 }
    | .inf s => if s then { ninf := 1 } else { pinf := 1 }
    | .fin s m e => if m = 0 then { negz := s } else { fin := eafOf (signedSig s m) e }

/-- sherd_from_product (R122). -/
def sherdOfProduct (fmt x y : Nat) : Sherd :=
  match fpOf fmt with
  | none => { fin := intValue fmt x * intValue fmt y * eafOne }
  | some t =>
    let sg := bitOf x (t.width - 1) != bitOf y (t.width - 1)
    let special : Sherd := if sg then { ninf := 1 } else { pinf := 1 }
    match t.decode x, t.decode y with
    | .nan _ _, _ => { nan := 1 }
    | _, .nan _ _ => { nan := 1 }
    | .inf _, .fin _ m _ => if m = 0 then { nan := 1 } else special
    | .fin _ m _, .inf _ => if m = 0 then { nan := 1 } else special
    | .inf _, .inf _ => special
    | .fin _ m e, .fin _ m' e' =>
      if m * m' = 0 then { negz := sg } else { fin := eafOf (signedSig sg (m * m')) (e + e') }

/-- The element −0, as a tangent that a bisque accumulator does not supply (R175). -/
def sherdNegZero : Sherd := { negz := true }

/-- The exact sum of sherds in list order: none for no sherd, and whether a sum left the range (R153, R172). -/
def sherdSum : Option Sherd × Bool → List Sherd → Option Sherd × Bool
  | acc, [] => acc
  | (none, r), x :: xs => sherdSum (some x, r) xs
  | (some s, r), x :: xs => let (t, r') := s.add x; sherdSum (some t, r || r') xs

/-! ### Sherd streams (R168, R170) -/

/-- One sherd from bytes: its header, limbs and the bytes after it. -/
def takeSherd (bs : List Byte) : Nat × List Nat × List Byte :=
  let h := numAt bs 0 8
  let c := if h = absentHeader then 0 else hdrLimbs h
  let rest := bs.drop 8
  (h, (List.range c).map (fun j => numAt rest (8 * j) 8), rest.drop (8 * c))

/-- `n` sherds of one element; none when one is not well formed (R116). -/
def takeSherds : Nat → List Byte → Option (List Sherd × List Byte)
  | 0, bs => some ([], bs)
  | n + 1, bs =>
    let (h, limbs, rest) := takeSherd bs
    if hdrLimbs h ≤ 68 && sherdOk h limbs then
      match takeSherds n rest with
      | some (xs, r) => some (sherdValue h limbs :: xs, r)
      | none => none
    else none

/-- Whether a header can be a well-formed sherd's, whatever its limbs are (R116). -/
def headerOk (h : Nat) : Bool :=
  let c := hdrLimbs h
  let l := slice h 0 7
  !bitOf h 63 && slice h 18 6 == 0 && !bitOf h 7 && decide (c ≤ 68) && decide (l + c ≤ 68) && (c != 0 || (l == 0 && !bitOf h 16))

/-- `n` sherds of one element as far as a stream has been read: none when one is not well formed, which a header may show before its
limbs are there (R116); `some none` while bytes are missing. -/
def readSherds : Nat → List Byte → Option (Option (List Sherd × List Byte))
  | 0, bs => some (some ([], bs))
  | n + 1, bs =>
    if bs.length < 8 then some none
    else if !headerOk (numAt bs 0 8) then none
    else if bs.length < 8 + 8 * hdrLimbs (numAt bs 0 8) then some none
    else
      let (h, limbs, rest) := takeSherd bs
      if !sherdOk h limbs then none
      else match readSherds n rest with
        | some (some (xs, r)) => some (some (sherdValue h limbs :: xs, r))
        | x => x

/-- `k` elements of `per` sherds from a stream: an absent marker in place of the first stands for the whole element
(R170); none when a sherd is not well formed. -/
def readStream (per : Nat) : Nat → List Byte → Option (List (Option Elem))
  | 0, _ => some []
  | k + 1, bs =>
    if numAt bs 0 8 = absentHeader then
      match readStream per k (bs.drop 8) with
      | some xs => some (none :: xs)
      | none => none
    else match takeSherds per bs with
      | none => none
      | some (ss, rest) => match readStream per k rest with
        | some xs => some (some { sh := ss } :: xs)
        | none => none

/-- One sherd operand of a bisque pass: none when not well formed, otherwise absent or a value (R172). -/
def readOneSherd (bs : List Byte) : Option (Option Sherd) :=
  let (h, limbs, _) := takeSherd bs
  if h = absentHeader then some none
  else if hdrLimbs h ≤ 68 && sherdOk h limbs then some (some (sherdValue h limbs)) else none

/-- An element as a sherd stream has it: its canonical sherds, or one absent marker (R168, R169). -/
def streamElem : Option Elem → List Byte
  | none => leBytes 8 absentHeader
  | some e => (e.sh.map (fun s => sherdBytes s.canon)).flatten

/-! ### The glaze stage -/

/-- Sherds per element of an exact operator: 1 + w for SUM, three and two for each tangent for MEANVAR (R154, R187,
R192). -/
def Arith.sherds (a : Arith) : Nat := if a.op == 3 then 3 + 2 * a.w else 1 + a.w

/-- Whether a count of a sherd is above zero. -/
def Sherd.special (s : Sherd) : Bool := s.nan != 0 || s.ninf != 0 || s.pinf != 0

/-- A sum rounded to a floating-point format: Table 3.11, its last row by `glazeRound` (R120, R163). -/
def glazeFp (s : Sherd) (t : Fp) (r : Nat) (sat : Bool) (u : Nat) : Nat :=
  if s.nan != 0 || (s.pinf != 0 && s.ninf != 0) then t.defaultNan
  else if s.pinf != 0 then t.infOrNan false
  else if s.ninf != 0 then t.infOrNan true
  else if s.fin = 0 then t.zero s.negz
  else glazeRound s.fin 1 2148 t r sat u

/-- A sum delivered in an integer format, and whether the firing completes with RANGE (R106, R164). -/
def glazeInt (s : Sherd) (fmt r : Nat) : Nat × Bool :=
  let n := 8 * compWidth fmt
  let (lo, hi) := intRange fmt
  if s.nan != 0 || (s.pinf != 0 && s.ninf != 0) then (0, true)
  else if s.pinf != 0 then (ofSigned n hi, true)
  else if s.ninf != 0 then (ofSigned n lo, true)
  else intDeliver fmt (roundInt s.fin 1 2148 r)

/-- A sum in out_fmt. -/
def glazeOut (a : Arith) (s : Sherd) (u : Nat) : Nat × Bool :=
  match fpOf a.outF with
  | some t => (glazeFp s t a.rmode a.sat u, false)
  | none => glazeInt s a.outF a.rmode

/-- odd_round (R165): P / Q to p bits with a sticky last bit, and the weight of its unit. -/
def oddRound (p q bits : Nat) : Nat × Int :=
  let e := floorLog p q 0
  let w : Int := e - bits + 1
  let num := p * pow2 (-w)
  let den := q * pow2 w
  let v := num / den
  (if num % den = 0 then v else v ||| 1, w)

/-- Whether a count sherd carries what no member's count can (R165). -/
def countBad (c : Sherd) : Bool := c.special || decide (c.fin < 0) || decide (c.fin % eafOne ≠ 0)

/-- E / d × 2^(−4296), rounded twice to 128 bits and then once to the format (R165, R192). -/
def glazeQuot (e : Int) (d : Nat) (t : Fp) (a : Arith) (u : Nat) : Nat :=
  let (tt, w) := oddRound e.natAbs 1 128
  let (v, g) := oddRound tt d 128
  glazeRound (if e < 0 then -(v : Int) else v) 1 (4296 - w - g) t a.rmode a.sat u

/-- meanvar_glaze (R165): mean and variance. -/
def meanvarGlaze (a : Arith) (t : Fp) (c s1 s2 : Sherd) (u0 u1 : Nat) : Nat × Nat :=
  let n : Nat := (c.fin / eafOne).toNat
  if n = 0 then (t.defaultNan, t.defaultNan)
  else if s1.special then (glazeFp s1 t a.rmode a.sat u0, t.defaultNan)
  else
    let mean := if s1.fin = 0 then t.zero s1.negz else glazeRound s1.fin n 2148 t a.rmode a.sat u0
    let k := if a.varDiv then n - 1 else n
    let d := (n : Int) * s2.fin * eafOne - s1.fin * s1.fin
    if k = 0 || s2.special || decide (d < 0) then (mean, t.defaultNan)
    else if d = 0 then (mean, 0)
    else (mean, glazeQuot d (n * k) t a u1)

/-- One tangent pair of exact MEANVAR (R192): the tangent of the mean and of the variance. -/
def meanvarTangent (a : Arith) (t : Fp) (special : Bool) (c s1 s2 st sq : Sherd) (um uv : Nat) : Nat × Nat :=
  let n : Nat := (c.fin / eafOne).toNat
  let k := if a.varDiv then n - 1 else n
  if n = 0 || special then (t.defaultNan, t.defaultNan)
  else
    let dm := if st.fin = 0 then t.zero st.negz else glazeRound st.fin n 2148 t a.rmode a.sat um
    let e := 2 * ((n : Int) * sq.fin * eafOne - s1.fin * st.fin)
    let dv :=
      if k = 0 || decide ((n : Int) * s2.fin * eafOne < s1.fin * s1.fin) then t.defaultNan
      else if e = 0 then 0
      else glazeQuot e (n * k) t a uv
    (dm, dv)

/-- The tangent sherds of a MEANVAR element in pairs (R192). -/
def sherdPairs : List Sherd → List (Sherd × Sherd)
  | x :: y :: r => (x, y) :: sherdPairs r
  | _ => []

/-- Numbers a list from `i`. -/
def numbered {α : Type} (i : Nat) : List α → List (Nat × α)
  | [] => []
  | x :: xs => (i, x) :: numbered (i + 1) xs

/-- The two result elements of an exact MEANVAR element: mean and variance with their tangents (R165, R192, R193), and
whether the count ends the firing with RANGE. `u` gives the generator word of a component. -/
def exactMeanvarOut (a : Arith) (e : Elem) (u : Nat → Nat) : List (List Nat) × Bool :=
  match fpOf a.outF with
  | none => ([], true)
  | some t =>
    let c := e.sh.getD 0 {}
    let s1 := e.sh.getD 1 {}
    let s2 := e.sh.getD 2 {}
    let pairs := sherdPairs (e.sh.drop 3)
    if countBad c then ([t.defaultNan :: pairs.map (fun _ => t.defaultNan), t.defaultNan :: pairs.map (fun _ => t.defaultNan)], true)
    else
      let (m, v) := meanvarGlaze a t c s1 s2 (u 0) (u 1)
      let special := s1.special || s2.special || pairs.any (fun p => p.1.special || p.2.special)
      let tans := (numbered 0 pairs).map (fun (i, p) =>
        meanvarTangent a t special c s1 s2 p.1 p.2 (u (2 + i)) (u (2 + pairs.length + i)))
      ([m :: tans.map (·.1), v :: tans.map (·.2)], false)

end Sys2Proof.Machine
end

