-- ==== Sys2Proof/Machine/Fast.lean ====
section
/-! DEFINITION. The operator steps of fast mode (R130 to R134, R188 to R191), entry to the tree (R124, R128), the value a
DOT leaf forms (R136 to R138, R153), scaled integers (R140, R141), preloads (R139), output rounding (R147) and the values
of elements absent everywhere (Tables 4.3, 5.1). -/

namespace Sys2Proof.Machine
open Sys2Proof

/-! ### Steps on numbers -/

/-- Whether an integer lies in a type of `n` bits. -/
def intIn (n : Nat) (signed : Bool) (v : Int) : Bool :=
  if signed then decide (-(2 ^ (n - 1)) ≤ v) && decide (v < 2 ^ (n - 1)) else decide (0 ≤ v) && decide (v < 2 ^ n)

/-- An integer reduced to its type. -/
def intWrap (n : Nat) (signed : Bool) (v : Int) : Int :=
  if signed then toSigned n (ofSigned n v) else (ofSigned n v : Nat)

/-- A sum in a type; then whether it overflowed scaled INT32 (R141), and whether it left an integer type (R125). -/
def addTy (t : NumTy) (a b : Int) : Int × Bool × Bool :=
  match t with
  | .fp f => ((f.add a.toNat b.toNat : Nat), false, false)
  | .int n s => (intWrap n s (a + b), false, !intIn n s (a + b))
  | .scaled => (intWrap 32 true (a + b), !intIn 32 true (a + b), false)

/-- The scale conversion of R140: v × 2^s to the nearest integer, ties to even, and whether it overflowed. -/
def scaleConv (v : Int) (s : Int) : Int × Bool :=
  let q := roundInt v 1 (-s) 0
  (intWrap 32 true q, !intIn 32 true q)

/-- Whether max_step takes operand b (R131); `mn` reverses the order for MIN. -/
def takesB (t : NumTy) (nanP mn : Bool) (a b : Int) : Bool :=
  match t with
  | .fp f =>
    let na := f.isNan a.toNat
    let nb := f.isNan b.toNat
    if na || nb then (if nanP && !na then false else if nanP && !nb then true else !na)
    else
      let ka := f.key a.toNat
      let kb := f.key b.toNat
      if mn then decide (kb < ka) else decide (ka < kb)
  | _ => if mn then decide (b < a) else decide (a < b)

/-- A number with its quiet bit set if it is a NaN; integers unchanged (R100). -/
def quietTy (t : NumTy) (v : Int) : Int :=
  match t with
  | .fp f => (f.quiet v.toNat : Nat)
  | _ => v

/-- Whether two values tie under tie_rule AVERAGE: same encoding, neither a NaN (R189). -/
def tied (t : NumTy) (a b : Int) : Bool :=
  match t with
  | .fp f => !f.isNan a.toNat && decide (a = b)
  | _ => decide (a = b)

/-- Bitwise operators on encodings (R134). -/
def bitOp (op n : Nat) (signed : Bool) (a b : Int) : Int :=
  let x := ofSigned n a
  let y := ofSigned n b
  let z := if op == 8 then x &&& y else if op == 9 then x ||| y else x ^^^ y
  if signed then toSigned n z else (z : Nat)

/-- Adds two vectors of numbers by their types. -/
def addAll (ts : List NumTy) (xs ys : List Int) : List (Int × Bool × Bool) :=
  (List.zip ts (List.zip xs ys)).map (fun e => addTy e.1 e.2.1 e.2.2)

/-! ### MEANVAR (R133, R191) -/

/-- The largest count: counts saturate at it (R223). -/
def countMax : Nat := 0xFFFFFFFF

/-- One step of the mean, the squares and the pairs (T, P) of MEANVAR. -/
def meanvarStep (t : Fp) (a b : Elem) : Elem :=
  let x (e : Elem) (i : Nat) : Nat := (e.xs.getD i 0).toNat
  let n := min (a.cnt + b.cnt) countMax
  let ma := x a 0
  let mb := x b 0
  let bothZero := t.isZero ma && t.isZero mb
  let d := t.sub mb ma
  let f := t.div (t.ofCount b.cnt) (t.ofCount n)
  let fa := t.div (t.ofCount a.cnt) (t.ofCount n)
  let m := if bothZero then t.add ma mb else t.add ma (t.mul d f)
  let g := t.mul (t.ofCount a.cnt) f
  let q := if bothZero then t.add (x a 1) (x b 1)
    else t.add (t.add (x a 1) (x b 1)) (t.mul (t.mul d d) g)
  let tans := ((List.range ((a.xs.length - 2) / 2)).map (fun i =>
    let ta := x a (2 + 2 * i)
    let tb := x b (2 + 2 * i)
    let pa := x a (3 + 2 * i)
    let pb := x b (3 + 2 * i)
    let p := if bothZero then t.add pa pb
      else t.add (t.add pa pb) (t.mul d (t.sub (t.mul tb fa) (t.mul ta f)))
    [((t.add ta tb : Nat) : Int), ((p : Nat) : Int)])).flatten
  { xs := (m : Int) :: (q : Int) :: tans, cnt := n }

/-! ### The operator step (R64) -/

/-- The operator's step on two present elements in the types of a level; then overflow and range. -/
def opStep (a : Arith) (level : Nat) (x y : Elem) : Elem × Bool × Bool :=
  if a.isExact then
    let rs := (List.zip x.sh y.sh).map (fun e => e.1.add e.2)
    ({ sh := rs.map (·.1) }, false, rs.any (·.2))
  else if a.op == 3 then
    match accTy 3 a.inF level with
    | .fp t =>
      let r := meanvarStep t x y
      (r, false, decide (r.cnt = countMax))
    | _ => (x, false, false)
  else if isMaxOp a.op then
    let t := accTy a.op a.inF level
    let vx := x.xs.headD 0
    let vy := y.xs.headD 0
    if a.average && tied t vx vy then
      let ts := addAll (List.replicate a.w (accTy 1 a.inF level)) x.xs.tail y.xs.tail
      ({ xs := vx :: ts.map (·.1), rank := x.rank, cnt := x.cnt + y.cnt }, false, false)
    else
      let win := if takesB t a.nanP (isMinOp a.op) vx vy then y else x
      ({ win with xs := quietTy t (win.xs.headD 0) :: win.xs.tail }, false, false)
  else if isBitOp a.op then
    match accTy a.op a.inF level with
    | .int n s => ({ xs := [bitOp a.op n s (x.xs.headD 0) (y.xs.headD 0)] }, false, false)
    | _ => (x, false, false)
  else
    let rs := addAll (a.tys level) x.xs y.xs
    ({ xs := rs.map (·.1) }, rs.any (fun r => r.2.1), rs.any (fun r => r.2.2))

/-- The combining step c of R64 on stream elements; poison, overflow and range of either operand stay (R141, R405). -/
def combine (a : Arith) (level : Nat) (x y : Cell) : Cell :=
  match x.val, y.val with
  | some u, some v =>
    let (e, ov, rg) := opStep a level u v
    { val := some e, poison := x.poison || y.poison, ovf := x.ovf || y.ovf || ov, range := x.range || y.range || rg }
  | some u, none => { val := some u, poison := x.poison || y.poison, ovf := x.ovf || y.ovf, range := x.range || y.range }
  | none, v => { val := v, poison := x.poison || y.poison, ovf := x.ovf || y.ovf, range := x.range || y.range }

/-- An element moved from the types of one level to those of another (R124). -/
def liftElem (a : Arith) (i j : Nat) (e : Elem) : Elem :=
  if a.isExact then e
  else { e with xs := (List.zip (List.zip (a.tys i) (a.tys j)) e.xs).map (fun p => moveTy p.1.1 p.1.2 p.2) }

/-- A stream element moved between levels. -/
def liftCell (a : Arith) (i j : Nat) (c : Cell) : Cell := { c with val := c.val.map (liftElem a i j) }

/-! ### Entry to the tree (R124, R128, R132, R133, R189, R191) -/

/-- One component of in_fmt as a number of its own type, quiet (R100). -/
def ownNum (fmt x : Nat) : Int :=
  match fpOf fmt with
  | some t => (t.quiet x : Nat)
  | none => intValue fmt x

/-- A member's element, given as the encodings of its components, in the entry type at a position of rank `rank`. -/
def entryCell (a : Arith) (rank : Nat) (raw : List Nat) : Cell :=
  let own := raw.map (ownNum a.inF)
  let v := own.headD 0
  if a.isExact then { val := none }
  else if a.op == 3 then
    match fpOf a.inF with
    | some t =>
      let q : Int := if v.toNat = t.zero true then (t.zero true : Nat) else 0
      { val := some { xs := v :: q :: ((own.tail).map (fun x => [x, 0])).flatten, cnt := 1 } }
    | none => {}
  else if isMaxOp a.op then { val := some { xs := own, rank := rank, cnt := 1 } }
  else if a.op == 2 then
    match fpOf a.inF with
    | some t =>
      match accTy 2 a.inF 0 with
      | .fp e => { val := some { xs := [((mulInto t e v.toNat v.toNat : Nat) : Int)] } }
      | _ => {}
    | none =>
      match accTy 2 a.inF 0 with
      | .scaled => let (q, ov) := scaleConv (v * v) a.scale; { val := some { xs := [q] }, ovf := ov }
      | .int n s => { val := some { xs := [intWrap n s (v * v)] }, range := !intIn n s (v * v) }
      | .fp _ => {}
  else if a.op == 1 then
    match accTy 1 a.inF 0 with
    | .scaled => let (q, ov) := scaleConv v a.scale; { val := some { xs := [q] }, ovf := ov }
    | _ => { val := some { xs := own } }
  else { val := some { xs := own } }

/-! ### DOT at a leaf (R136 to R138, R153) -/

/-- The run type of DOT (R136). -/
def runTy : Fp → Fp
  | .b64 => .b64 | .b32 => .b64 | _ => .b32

/-- A run of products: the first rounded, each further one by fma_T (R136). -/
def dotRun (f t : Fp) (run : Nat) : List (Nat × Nat) → Nat
  | [] => run
  | (x, y) :: r => dotRun f t (fmaInto f t x y run) r

/-- leaf_dot (R136): none for a pair of length 0. -/
def leafDot (f : Fp) (xy : List (Nat × Nat)) : Option Nat :=
  let t := runTy f
  (piecesOf 32 xy).foldl (fun acc piece =>
    match piece with
    | [] => acc
    | (x, y) :: r =>
      let v := fpConvert t .b64 (dotRun f t (mulInto f t x y) r)
      match acc with
      | none => some v
      | some s => some (Fp.add .b64 s v)) none

/-- The exact integer sum of products in list order, and whether a partial sum left I128 (R138). -/
def intDot (fmt : Nat) (xy : List (Nat × Nat)) : Int × Bool :=
  xy.foldl (fun acc p =>
    let s := acc.1 + intValue fmt p.1 * intValue fmt p.2
    (s, acc.2 || !intIn 128 true s)) (0, false)

/-- The member value of one dot product in the entry type, or its sherd in exact mode. -/
def dotCell (a : Arith) (xy : List (Nat × Nat)) : Cell :=
  if xy.isEmpty then {}
  else if a.isExact then
    let (s, r) := sherdSum (none, false) (xy.map (fun p => sherdOfProduct a.inF p.1 p.2))
    { val := s.map (fun x => { sh := [x] }), range := r }
  else match fpOf a.inF with
    | some f => { val := (leafDot f xy).map (fun v => { xs := [(v : Int)] }) }
    | none =>
      let (s, r) := intDot a.inF xy
      match accTy 11 a.inF 0 with
      | .scaled => let (q, ov) := scaleConv s a.scale; { val := some { xs := [q] }, ovf := ov }
      | _ => { val := some { xs := [intWrap 128 true s] }, range := r }

/-- An exact member value from the encodings of its components (R121, R122, R154, R187, R192). -/
def exactElem (a : Arith) (raw : List Nat) : Elem :=
  let x := raw.headD 0
  if a.op == 2 then { sh := [sherdOfProduct a.inF x x] }
  else if a.op == 3 then
    { sh := [({ fin := eafOne } : Sherd), sherdOfValue a.inF x, sherdOfProduct a.inF x x]
        ++ (raw.tail.map (fun t => [sherdOfValue a.inF t, sherdOfProduct a.inF x t])).flatten }
  else { sh := raw.map (sherdOfValue a.inF) }

/-! ### Preload (R139, R167, R186) -/

/-- Encodings of a preload element: the format it is given in, binary64 for DOT. -/
def preFmt (a : Arith) : Nat := if a.op == 11 then 1 else a.inF

/-- A preload element in the level-3 type, or its sherds in exact mode. A DOT preload that is not finite, or that leaves
I128, gives RANGE. -/
def preloadCell (a : Arith) (raw : List Nat) : Cell :=
  if a.isExact then { val := some { sh := raw.map (sherdOfValue (preFmt a)) } }
  else if a.op == 11 && (fpOf a.inF).isNone then
    match Fp.decode .b64 (raw.headD 0) with
    | .fin s m e =>
      match accTy 11 a.inF 3 with
      | .scaled =>
        let q := roundInt (signedSig s m) 1 (-(e + a.scale)) 0
        { val := some { xs := [intWrap 32 true q] }, ovf := !intIn 32 true q }
      | _ =>
        let q := roundInt (signedSig s m) 1 (-e) 0
        { val := some { xs := [intWrap 128 true q] }, range := !intIn 128 true q }
    | _ => { val := some { xs := [0] }, range := true }
  else
    let own := raw.map (ownNum (preFmt a))
    match accTy a.op a.inF 3 with
    | .scaled => let (q, ov) := scaleConv (own.headD 0) a.scale; { val := some { xs := [q] }, ovf := ov }
    | t => { val := some { xs := own.map (moveTy (ownTy (preFmt a)) t) } }

/-! ### Output (R105, R106, R145, R147) -/

/-- A level-3 number in out_fmt, and whether it was outside an integer format's range. -/
def roundOut (a : Arith) (t : NumTy) (u : Nat) (v : Int) : Nat × Bool :=
  match fpOf a.outF with
  | some o =>
    match t with
    | .fp f => match f.decode v.toNat with
      | .nan s fr => (nanConvert f o s (f.quietFrac fr), false)
      | .inf s => (o.infOrNan s, false)
      | .fin s m e => (if m = 0 then o.zero s else glazeRound (signedSig s m) 1 (-e) o a.rmode a.sat u, false)
    | .scaled => (glazeRound v 1 a.scale o a.rmode a.sat u, false)
    | .int _ _ => (glazeRound v 1 0 o a.rmode a.sat u, false)
  | none =>
    match t with
    | .scaled => intDeliver a.outF (roundInt v 1 a.scale a.rmode)
    | _ => intDeliver a.outF v

/-- What Table 4.3 or Table 5.1 gives for an element whose every position is absent: the components of its result
elements. An integer MAX or MIN delivers in_fmt's own minimum or maximum (R128), converted as any value. -/
def absentOut (a : Arith) : List (List Nat) :=
  let one : List Nat :=
    if isMaxOp a.op then
      match fpOf a.outF, fpOf a.inF with
      | some o, some _ => o.infOrNan (!isMinOp a.op) :: List.replicate a.w 0
      | _, _ =>
        let (lo, hi) := intRange a.inF
        [(roundOut a (ownTy a.inF) 0 (if isMinOp a.op then hi else lo)).1]
    else if a.op == 8 then [2 ^ (8 * compWidth a.outF) - 1]
    else List.replicate (1 + a.w) 0
  if a.op == 3 then
    match fpOf a.outF with
    | some o => let m := List.replicate (1 + a.w) o.defaultNan; [m, m]
    | none => []
  else [one]

/-- The generator word of component `c` of element `k` (R107). -/
def wordOf (a : Arith) (k c : Nat) : Nat := if a.rmode == 4 then srWord a.seed a.ctr (32 * k + c) else 0

/-- A mean, variance and tangents of fast mode, rounded once each (R133, R191). -/
def fastMeanvarOut (a : Arith) (k : Nat) (t : Fp) (e : Elem) : List (List Nat) :=
  let x (i : Nat) : Nat := (e.xs.getD i 0).toNat
  let out (c v : Nat) : Nat := (roundOut a (.fp t) (wordOf a k c) (v : Nat)).1
  let dflt := match fpOf a.outF with
    | some o => o.defaultNan
    | none => 0
  let kk := if a.varDiv then e.cnt - 1 else e.cnt
  let w := (e.xs.length - 2) / 2
  let divBy (v n : Nat) : Nat := t.div v (t.ofCount n)
  let var := if kk = 0 then dflt else out 1 (divBy (x 1) kk)
  let dm := (List.range w).map (fun i => if e.cnt = 0 then dflt else out (2 + i) (divBy (x (2 + 2 * i)) e.cnt))
  let dv := (List.range w).map (fun i =>
    if kk = 0 then dflt else out (2 + w + i) (divBy (t.mul (t.ofCount 2) (x (3 + 2 * i))) kk))
  [out 0 (x 0) :: dm, var :: dv]

/-- The result elements of element `k`: their components in out_fmt, and whether a value or a special case gives RANGE
with valid results (R106, R164), or an invalid one (R165). -/
def outElem (a : Arith) (k : Nat) (v : Option Elem) : List (List Nat) × Bool × Bool :=
  match v with
  | none => (absentOut a, false, false)
  | some e =>
    if a.isExact then
      if a.op == 3 then
        let (r, bad) := exactMeanvarOut a e (wordOf a k)
        (r, false, bad)
      else
        let rs := (numbered 0 e.sh).map (fun (c, s) => glazeOut a s (wordOf a k c))
        ([rs.map (·.1)], rs.any (·.2), false)
    else if a.op == 3 then
      match accTy 3 a.inF 3 with
      | .fp t => (fastMeanvarOut a k t e, false, decide (e.cnt = countMax))
      | _ => ([], false, false)
    else if a.average then
      let o := roundOut a (accTy a.op a.inF 3) (wordOf a k 0) (e.xs.headD 0)
      let ts := (numbered 1 e.xs.tail).map (fun (c, x) =>
        (roundOut a (.fp .b64) (wordOf a k c) ((Fp.div .b64 x.toNat (Fp.ofCount .b64 e.cnt) : Nat) : Int)).1)
      ([o.1 :: ts], o.2, false)
    else
      let rs := (numbered 0 (List.zip (a.tys 3) e.xs)).map (fun (c, p) => roundOut a p.1 (wordOf a k c) p.2)
      ([rs.map (·.1)], rs.any (·.2), false)

/-- Bytes of result components in out_fmt. -/
def outBytes (fmt : Nat) (comps : List (List Nat)) : List Byte :=
  (comps.flatten.map (leBytes (compWidth fmt))).flatten

/-! ### Fast partials in memory (Table 7.4) -/

/-- The absent-lane encoding of a type for an operator (Table 4.2, R128). -/
def absentEnc (op : Nat) (t : NumTy) : Nat :=
  match t with
  | .fp .b64 => 0x7FF0000000000001
  | .fp .b32 => 0x7F800001
  | .fp .b16 => 0x7C01
  | .fp .bf16 => 0x7F81
  | .fp .e5m2 => 0x7D
  | .fp .e4m3 => 0
  | .scaled => 0
  | .int n s =>
    if op == 8 then 2 ^ n - 1
    else if isMinOp op then (if s then 2 ^ (n - 1) - 1 else 2 ^ n - 1)
    else if isMaxOp op then (if s then 2 ^ (n - 1) else 0)
    else 0

/-- Bytes of one fast partial (Table 7.4). -/
def Arith.partialSize (a : Arith) : Nat :=
  if a.op == 3 then 24 else ((a.tys 3).map NumTy.bytes).foldl (· + ·) 0

/-- One fast partial in memory. -/
def partialBytes (a : Arith) (v : Option Elem) : List Byte :=
  match v with
  | none =>
    if a.op == 3 then List.replicate 24 0
    else
      let ts := a.tys 3
      let h := ts.headD .scaled
      leBytes h.bytes (absentEnc a.op h) ++ List.replicate (a.partialSize - h.bytes) 0
  | some e =>
    if a.op == 3 then leBytes 8 e.cnt ++ leBytes 8 (e.xs.getD 0 0).toNat ++ leBytes 8 (e.xs.getD 1 0).toNat
    else ((List.zip (a.tys 3) e.xs).map (fun p => leBytes p.1.bytes (p.1.enc p.2))).flatten

/-- One fast partial read from memory (R216, R223): absent by its marking field alone; a floating-point value quiet. -/
def readPartial (a : Arith) (bs : List Byte) : Option Elem :=
  if a.op == 3 then
    if numAt bs 0 8 = 0 then none
    else some { cnt := min (numAt bs 0 8) countMax,
                xs := [quietTy (.fp .b64) (numAt bs 8 8 : Nat), quietTy (.fp .b64) (numAt bs 16 8 : Nat)] }
  else
    let ts := a.tys 3
    let h := ts.headD .scaled
    if numAt bs 0 h.bytes = absentEnc a.op h then none
    else some { xs := (numbered 0 ts).map (fun (i, t) => quietTy t (t.dec (numAt bs (i * t.bytes) t.bytes))) }

end Sys2Proof.Machine
end

