-- ==== Sys2Proof/Machine/Tree.lean ====
section
/-! DEFINITION. The combining order (R66, R69), the prefixes of SCAN (R70), spans (R79) and the merging of entries in a kiln
accumulator (R80). -/

namespace Sys2Proof.Machine
open Sys2Proof

/-- node_combine (R66) over inputs lo to lo + 2^n − 1. -/
def nodeCombine (c : Cell → Cell → Cell) (inp : Nat → Cell) (lo : Nat) : Nat → Cell
  | 0 => inp lo
  | n + 1 => c (nodeCombine c inp lo n) (nodeCombine c inp (lo + 2 ^ n) n)

/-- log2 of a node's radix by level: 16, 16, 32 (R66). -/
def radixLog2 (level : Nat) : Nat := if level = 3 then 5 else 4

/-- What a node of a level makes of its inputs' elements, each first moved to the level's types (R66, R124). -/
def nodeValue (a : Arith) (level : Nat) (inp : Nat → Cell) : Cell :=
  nodeCombine (combine a level) (fun i => liftCell a (level - 1) level (inp i)) 0 (radixLog2 level)

/-- The element of an input list by its input number; absent when not listed. -/
def cellOf (xs : List (Nat × Cell)) (i : Nat) : Cell :=
  match xs.find? (fun e => e.1 == i) with
  | some e => e.2
  | none => {}

/-- tree_value (R69) over entry-type cells by position. -/
def treeValue (a : Arith) (xs : List (Nat × Cell)) : Cell :=
  nodeValue a 3 (fun d =>
    let xd := xs.filter (fun e => e.1 / 256 == d)
    if xd.isEmpty then {} else nodeValue a 2 (fun c =>
      let xc := xd.filter (fun e => e.1 / 16 % 16 == c)
      if xc.isEmpty then {} else nodeValue a 1 (fun p => cellOf xc (256 * d + 16 * c + p))))

/-- The prefix of the member at position `p` (R70): every position above it absent, and its own when the SCAN is
exclusive. -/
def scanPrefix (a : Arith) (excl : Bool) (p : Nat) (xs : List (Nat × Cell)) : Cell :=
  treeValue a (xs.filter (fun e => if excl then e.1 < p else e.1 ≤ p))

/-- bit_length (R80). -/
def bitLength (n : Nat) : Nat := if n = 0 then 0 else Nat.log2 n + 1

/-- The smallest aligned block of kiln inputs that contains the given die slots: span_lo and span_log2 (R79). -/
def spanOf (dies : List Nat) : Nat × Nat :=
  match (List.range 6).find? (fun k => dies.all (fun d => d / 2 ^ k == dies.headD 0 / 2 ^ k)) with
  | some k => (dies.headD 0 / 2 ^ k * 2 ^ k, k)
  | none => (0, 5)

/-- One accumulator step on elements: the element, and whether it ends the firing with RANGE (R112, R125, R223). -/
def accStep (a : Arith) (x y : Option Elem) : Option Elem × Bool :=
  let c := combine a 3 { val := x } { val := y }
  let sat := a.op == 3 && !a.isExact && (match c.val with
    | some e => decide (e.cnt = countMax)
    | none => false)
  (c.val, c.range || sat)

/-- merge_top repeated while the two top entries join before the new one (position_add, R80). The stack's head is its top. -/
def positionMerge (a : Arith) (lo : Nat) (bad : Bool) : Nat → List (Nat × Elem) → List (Nat × Elem) × Bool
  | 0, st => (st, bad)
  | fuel + 1, (bl, bv) :: (al, av) :: r =>
    if bitLength (al ^^^ bl) < bitLength (bl ^^^ lo) then
      let (v, b) := accStep a (some av) (some bv)
      positionMerge a lo (bad || b) fuel ((al, v.getD av) :: r)
    else ((bl, bv) :: (al, av) :: r, bad)
  | _ + 1, st => (st, bad)

/-- position_add (R80). An absent entry leaves the stack's values as they are. -/
def positionAdd (a : Arith) (lo : Nat) (v : Option Elem) (st : List (Nat × Elem)) : List (Nat × Elem) × Bool :=
  match v with
  | none => (st, false)
  | some e =>
    let (s, b) := positionMerge a lo false st.length st
    ((lo, e) :: s, b)

/-- position_final (R80). -/
def positionFinal (a : Arith) : List (Nat × Elem) → Option Elem × Bool
  | [] => (none, false)
  | (_, v) :: r => r.foldl (fun acc e =>
      let (x, b) := accStep a (some e.2) acc.1
      (x, acc.2 || b)) (some v, false)

/-- An entry merged in SEQUENCE mode, or exactly (R80, R178). -/
def sequenceAdd (a : Arith) (v : Option Elem) (st : List (Nat × Elem)) : List (Nat × Elem) × Bool :=
  let (x, b) := accStep a (st.head?.map (·.2)) v
  (match x with
    | some e => [(0, e)]
    | none => [], b)

end Sys2Proof.Machine
end

