-- ==== Sys2Proof/Machine/Lanes.lean ====
section
/-! DEFINITION. How elements lie in flit payloads: the lanes of Table 4.2, the dual records of Table 6.4, the sherds of R156
and the contiguous bytes of the leaf-port link (R72, R126, R203). -/

namespace Sys2Proof.Machine
open Sys2Proof

/-- What a link carries of a firing. `bytes b`: elements of b bytes, contiguous from the stripe's first flit. -/
inductive LinkForm where
  | bytes (b : Nat)
  | lanes (t : NumTy)
  | meanvar (t : Fp)
  | loc (t : NumTy)
  | record (tys : List NumTy)
  | sherds (per : Nat)
deriving DecidableEq, Repr

/-- The lanes of a level's types above the leaf (Tables 4.2 and 6.4). -/
def Arith.levelForm (a : Arith) (level : Nat) : LinkForm :=
  if isDual a.inF then .record (a.tys level)
  else match accTy a.op a.inF level with
    | t =>
      if a.op == 3 then (match t with
        | .fp f => .meanvar f
        | _ => .lanes t)
      else if a.hasRank then .loc t
      else .lanes t

/-- The form of an upward link: level 0 is the leaf-port link, 1 the cluster node's, 2 the bridge (R126, R156, R222,
R223). -/
def Arith.upForm (a : Arith) (level : Nat) : LinkForm :=
  if a.isExact then .sherds (if a.kind == 8 then 1 else a.sherds)
  else if a.kind == 9 then a.levelForm 3
  else if level == 0 then (if a.kind == 8 then .lanes (accTy a.op a.inF 0) else .bytes (elemSize a.inF a.tan))
  else a.levelForm level

/-- Bytes of a dual record: its numbers, then a rank, a tie count or a count of 2 bytes each (Table 6.4). -/
def Arith.recordSize (a : Arith) (tys : List NumTy) : Nat :=
  (tys.map NumTy.bytes).foldl (· + ·) 0
    + (if a.op == 3 then 2 else if isMaxOp a.op then (if a.average then 4 else 2) else 0)

/-- Elements that one flit holds: 0 when an element may take several flits or flits are cut through elements. -/
def Arith.perFlit (a : Arith) : LinkForm → Nat
  | .bytes _ => 0
  | .lanes .scaled => 15
  | .lanes t => 64 / t.bytes
  | .meanvar .b32 => 6
  | .meanvar _ => 3
  | .loc t => 64 / (t.bytes + 2)
  | .record tys => 64 / a.recordSize tys
  | .sherds _ => 0

/-- A payload of exactly 64 bytes. -/
def payload64 (bs : List Byte) : List Byte := padTo 64 bs

/-! ### Packing -/

/-- A lane of a type: the absent encoding for an absent element. -/
def laneBytes (op : Nat) (t : NumTy) (v : Option Elem) : List Byte :=
  match v with
  | none => leBytes t.bytes (absentEnc op t)
  | some e => leBytes t.bytes (t.enc (e.xs.headD 0))

/-- A dual record (Table 6.4). -/
def recordBytes (a : Arith) (tys : List NumTy) (v : Option Elem) : List Byte :=
  let size := a.recordSize tys
  match v with
  | none =>
    if a.op == 3 then List.replicate size 0
    else if isMaxOp a.op then
      let n := (tys.map NumTy.bytes).foldl (· + ·) 0
      padTo size (List.replicate n 0 ++ leBytes 2 0xFFFF)
    else padTo size (leBytes (tys.headD .scaled).bytes (absentEnc a.op (tys.headD .scaled)))
  | some e =>
    let ns := ((List.zip tys e.xs).map (fun p => leBytes p.1.bytes (p.1.enc p.2))).flatten
    if a.op == 3 then ns ++ leBytes 2 e.cnt
    else if isMaxOp a.op then ns ++ leBytes 2 e.rank ++ (if a.average then leBytes 2 e.cnt else [])
    else ns

/-- The payload of one flit of lanes, given at most `perFlit` elements (R126, R127, R141). Lanes past the last element hold zero in
every layout: a lane that carries no element is read as one that uses no bytes (DEDUCED, assumption log 91). -/
def packFlit (a : Arith) (f : LinkForm) (cs : List Cell) : List Byte :=
  match f with
  | .lanes .scaled =>
    let ovf := (numbered 0 cs).foldl (fun acc p => acc + (if p.2.ovf then 2 ^ p.1 else 0)) 0
    padTo 60 ((cs.map (fun c => laneBytes a.op .scaled c.val)).flatten) ++ leBytes 4 ovf
  | .lanes t => payload64 ((cs.map (fun c => laneBytes a.op t c.val)).flatten)
  | .meanvar t =>
    let w := t.width / 8
    let num (c : Cell) : List Byte := match c.val with
      | none => List.replicate (2 * w) 0
      | some e => leBytes w (e.xs.getD 0 0).toNat ++ leBytes w (e.xs.getD 1 0).toNat
    let cnt (c : Cell) : List Byte := leBytes (w / 2) (match c.val with
      | none => 0
      | some e => e.cnt)
    payload64 (padTo 48 ((cs.map num).flatten) ++ (cs.map cnt).flatten)
  | .loc t =>
    let n := a.perFlit f
    let vals := (cs.map (fun c => match c.val with
      | none => List.replicate t.bytes 0
      | some e => leBytes t.bytes (t.enc (e.xs.headD 0)))).flatten
    let ranks := (cs.map (fun c => leBytes 2 (match c.val with
      | none => 0xFFFF
      | some e => e.rank))).flatten
    payload64 (padTo (n * t.bytes) vals ++ ranks)
  | .record tys => payload64 ((cs.map (fun c => recordBytes a tys c.val)).flatten)
  | .bytes _ => payload64 []
  | .sherds _ => payload64 []

/-- One sherd appended to the flits of an element (R156 rules 3 and 4). The list's head is the flit being filled. -/
def packSherd (acc : List (BitVec 8 × List Byte × Nat)) (h : Nat × List Nat) : List (BitVec 8 × List Byte × Nat) :=
  let bs := sherdBytes h
  if h.2.length ≥ 8 then
    let conts := (piecesOf 64 (bs.drop 64)).map (fun p => ((0x03 : BitVec 8), p, 0))
    conts.reverse ++ ((0x02 : BitVec 8), bs.take 64, 1) :: acc
  else match acc with
    | (t, cur, n) :: r =>
      if t == 0x02 && decide (cur.length + bs.length ≤ 64) then (t, cur ++ bs, n + 1) :: r
      else (0x02, bs, 1) :: (t, cur, n) :: r
    | [] => [(0x02, bs, 1)]

/-- The flits of one exact element: their types, their payloads and how many sherds begin in each (R155, R156). -/
def packExact (v : Option Elem) : List (BitVec 8 × List Byte × Nat) :=
  match v with
  | none => [(0x02, payload64 (leBytes 8 absentHeader), 1)]
  | some e => ((e.sh.map Sherd.canon).foldl packSherd []).reverse.map (fun p => (p.1, payload64 p.2.1, p.2.2))

/-- A flit as packed: type, payload, the sherds that begin in it, poison. -/
structure Packed where
  type : BitVec 8
  payload : List Byte
  sherds : Nat := 0
  poison : Bool := false
deriving DecidableEq, Repr

/-- The flits of a run of elements on a link. The run is the whole of what is sent, so the last flit may be short. -/
def packRun (a : Arith) (f : LinkForm) (cs : List Cell) : List Packed :=
  match f with
  | .sherds _ => (cs.map (fun c => (packExact c.val).map (fun p => (⟨p.1, p.2.1, p.2.2, c.poison⟩ : Packed)))).flatten
  | .bytes _ => []
  | _ =>
    let n := a.perFlit f
    if n = 0 then
      match f with
      | .record tys => (cs.map (fun c => (piecesOf 64 (recordBytes a tys c.val)).map
          (fun p => (⟨0x01, payload64 p, 0, c.poison⟩ : Packed)))).flatten
      | _ => []
    else (piecesOf n cs).map (fun g => (⟨0x01, packFlit a f g, 0, g.any (·.poison)⟩ : Packed))

/-- The flits of contiguous bytes, with the poison of each 64-byte piece (R72). -/
def packBytes (type : BitVec 8) (bs : List (Byte × Bool)) : List Packed :=
  (piecesOf 64 bs).map (fun g => (⟨type, payload64 (g.map (·.1)), 0, g.any (·.2)⟩ : Packed))

/-- Runs of `part` bytes, each packed from byte 0 of a new flit: the offset of every flit's first byte, and the flit. -/
def packRuns (type : BitVec 8) (part : Nat) (bs : List (Byte × Bool)) : List (Nat × Packed) :=
  (numbered 0 (piecesOf (max 1 part) bs)).flatMap (fun (j, g) =>
    (numbered 0 (packBytes type g)).map (fun (i, x) => (max 1 part * j + 64 * i, x)))

/-! ### Unpacking -/

/-- Numbers of a type list from bytes. -/
def readNums : List NumTy → List Byte → List Int
  | [], _ => []
  | t :: ts, bs => t.dec (numAt bs 0 t.bytes) :: readNums ts (bs.drop t.bytes)

/-- One dual record: absent by its marking field (Table 6.4). -/
def readRecord (a : Arith) (tys : List NumTy) (bs : List Byte) : Option Elem :=
  let n := (tys.map NumTy.bytes).foldl (· + ·) 0
  let xs := readNums tys bs
  if a.op == 3 then (if numAt bs n 2 = 0 then none else some { xs := xs, cnt := numAt bs n 2 })
  else if isMaxOp a.op then
    (if numAt bs n 2 = 0xFFFF then none
     else some { xs := xs, rank := numAt bs n 2, cnt := if a.average then numAt bs (n + 2) 2 else 1 })
  else
    let h := tys.headD .scaled
    if numAt bs 0 h.bytes = absentEnc a.op h then none else some { xs := xs }

/-- Lane `i` of a flit (R126, R128). -/
def readLane (a : Arith) (f : LinkForm) (bs : List Byte) (i : Nat) : Cell :=
  match f with
  | .lanes .scaled =>
    { val := some { xs := [NumTy.scaled.dec (numAt bs (4 * i) 4)] }, ovf := bitOf (numAt bs 60 4) i }
  | .lanes t =>
    let x := numAt bs (i * t.bytes) t.bytes
    { val := if x = absentEnc a.op t then none else some { xs := [t.dec x] } }
  | .meanvar t =>
    let w := t.width / 8
    let n := numAt bs (48 + i * (w / 2)) (w / 2)
    { val := if n = 0 then none
             else some { xs := [((numAt bs (2 * w * i) w : Nat) : Int), ((numAt bs (2 * w * i + w) w : Nat) : Int)], cnt := n } }
  | .loc t =>
    let n := a.perFlit f
    let r := numAt bs (n * t.bytes + 2 * i) 2
    { val := if r = 0xFFFF then none else some { xs := [t.dec (numAt bs (i * t.bytes) t.bytes)], rank := r, cnt := 1 } }
  | .record tys => { val := readRecord a tys (bs.drop (i * a.recordSize tys)) }
  | .bytes _ => {}
  | .sherds _ => {}

/-- Bytes of the sherd at the front of a stream, by its header. -/
def sherdLen (bs : List Byte) : Nat :=
  let h := numAt bs 0 8
  if h = absentHeader then 8 else 8 + 8 * hdrLimbs h

/-- Bytes of the first `n` sherds of a stream. -/
def sherdPrefix : Nat → List Byte → Nat
  | 0, _ => 0
  | n + 1, bs => sherdLen bs + sherdPrefix n (bs.drop (sherdLen bs))

/-- How many whole sherds a stream holds, and how many bytes the one it breaks off in still wants. -/
def sherdsHeld : Nat → List Byte → Nat × Nat
  | 0, _ => (0, 0)
  | fuel + 1, bs =>
    if bs.length < 8 then (0, 0)
    else if bs.length < sherdLen bs then (0, sherdLen bs - bs.length)
    else
      let (n, d) := sherdsHeld fuel (bs.drop (sherdLen bs))
      (n + 1, d)

/-- What a SHERD or SHERD_CONT flit adds to the stream of its element: `n` sherds begin in it (R156: the receiver knows
them from the headers and the sherds an element has; assumption log 7). -/
def sherdFlitAdd (frag : List Byte) (cont : Bool) (n : Nat) (payload : List Byte) : List Byte :=
  if cont then frag ++ payload.take (sherdsHeld (frag.length + 1) frag).2
  else frag ++ payload.take (sherdPrefix n payload)

/-- `n` sherds of a stream, read by R115. -/
def takeValues : Nat → List Byte → List Sherd
  | 0, _ => []
  | n + 1, bs =>
    let (h, limbs, rest) := takeSherd bs
    sherdValue h limbs :: takeValues n rest

/-- The element whose flits have been gathered: none while it is incomplete (R155, R156). -/
def exactOfFrag (per : Nat) (frag : List Byte) : Option (Option Elem) :=
  if frag.length < 8 then none
  else if numAt frag 0 8 = absentHeader then some none
  else
    let (n, d) := sherdsHeld (frag.length + 1) frag
    if n = per && d = 0 then some (some { sh := takeValues per frag }) else none

end Sys2Proof.Machine
end

