-- ==== Sys2Proof/Machine/Operands.lean ====
section
/-! DEFINITION. The operands of a firing: the descriptor and segment table fields (Tables 7.5, 8.7, 8.8), the rules that make a
descriptor invalid and the field code each names (R89, R260, R583, Table 9.3), the digest image and field checks (R302,
R303), the areas a member reads and writes (R270, R273, R281) and the dealing of elements to stripes (R72, R157, R222). -/

namespace Sys2Proof.Machine
open Sys2Proof

/-! ### Fields -/

/-- A firing descriptor's fields (Tables 7.3 and 8.7). `bisq` holds src_bisque in bits 3 to 0 and bisque_clear in bit 4. -/
structure Desc where
  kind : Nat := 0
  op : Nat := 0
  group : Nat := 0
  mode : Bool := false
  inF : Nat := 0
  outF : Nat := 0
  tan : Nat := 0
  rmode : Nat := 0
  sat : Bool := false
  nanP : Bool := false
  varDiv : Bool := false
  tie : Bool := false
  intScale : Nat := 0
  seed : Nat := 0
  ctrSel : Bool := false
  count : Nat := 0
  capacity : Nat := 0
  root : Nat := 0
  form : Bool := false
  preEn : Bool := false
  preForm : Bool := false
  preRank : Nat := 0
  slice : Bool := false
  excl : Bool := false
  firstFill : Bool := false
  winner : Bool := false
  rbFill : Bool := false
  kacc : Nat := 0
  kInit : Bool := false
  kFeed : Bool := false
  kFinal : Bool := false
  kRelease : Bool := false
  kPlace : Bool := false
  spanLo : Nat := 0
  spanLog2 : Nat := 0
  segCount : Nat := 0
  countRec : Bool := false
  depAction : Nat := 0
  depRegion : Nat := 0
  depIndex : Nat := 0
  src : Nat := 0
  src2 : Nat := 0
  dst : Nat := 0
  preAddr : Nat := 0
  winAddr : Nat := 0
  vecLen : Nat := 0
  dstCap : Nat := 0
  bisq : Nat := 0
  segTable : Nat := 0
  segStatus : Nat := 0
  countAddr : Nat := 0
  stream : Bool := false
  ragTail : Bool := false
deriving DecidableEq, Repr

/-- The fields by code: code, lowest bit, width, and whether the members must agree on it (Tables 7.3, 8.7, 9.3). -/
def descFields : List (Nat × Nat × Nat × Bool) :=
  [(0x1, 0, 8, true), (0x2, 8, 8, true), (0x3, 32, 20, true), (0x4, 52, 1, true), (0x5, 16, 8, true),
   (0x6, 24, 8, true), (0x7, 53, 2, true), (0x8, 55, 3, true), (0x9, 58, 1, true), (0xa, 59, 1, true),
   (0xb, 60, 1, true), (0xc, 61, 1, true), (0xd, 576, 5, true), (0xe, 64, 64, true), (0xf, 62, 1, true),
   (0x10, 128, 32, true), (0x11, 160, 32, true), (0x12, 512, 16, true), (0x13, 581, 1, true), (0x14, 582, 1, true),
   (0x15, 583, 1, true), (0x16, 528, 16, true), (0x17, 584, 1, true), (0x18, 585, 1, true), (0x19, 586, 1, true),
   (0x1a, 587, 1, true), (0x1b, 588, 1, true), (0x1c, 594, 8, true), (0x1d, 602, 1, true), (0x1e, 603, 1, true),
   (0x1f, 604, 1, true), (0x20, 605, 1, true), (0x21, 606, 1, true), (0x22, 607, 5, true), (0x23, 612, 3, true),
   (0x24, 615, 7, true), (0x26, 624, 1, true), (0x27, 625, 2, true), (0x28, 627, 12, true), (0x29, 544, 32, true),
   (0x40, 192, 32, false), (0x41, 224, 32, false), (0x42, 256, 32, false), (0x43, 352, 32, false), (0x44, 384, 32, false),
   (0x45, 320, 32, false), (0x46, 288, 32, false), (0x47, 589, 5, false), (0x48, 448, 32, false), (0x49, 480, 32, false),
   (0x4a, 416, 32, false), (0x4b, 622, 1, false), (0x4c, 623, 1, false)]

/-- The fields of descriptor words (Table 8.7). -/
def descOf (words : BitVec 1024) : Desc :=
  let d := words.toNat
  { kind := slice d 0 8,
    op := slice d 8 8,
    group := slice d 32 20,
    mode := bitOf d 52,
    inF := slice d 16 8,
    outF := slice d 24 8,
    tan := slice d 53 2,
    rmode := slice d 55 3,
    sat := bitOf d 58,
    nanP := bitOf d 59,
    varDiv := bitOf d 60,
    tie := bitOf d 61,
    intScale := slice d 576 5,
    seed := slice d 64 64,
    ctrSel := bitOf d 62,
    count := slice d 128 32,
    capacity := slice d 160 32,
    root := slice d 512 16,
    form := bitOf d 581,
    preEn := bitOf d 582,
    preForm := bitOf d 583,
    preRank := slice d 528 16,
    slice := bitOf d 584,
    excl := bitOf d 585,
    firstFill := bitOf d 586,
    winner := bitOf d 587,
    rbFill := bitOf d 588,
    kacc := slice d 594 8,
    kInit := bitOf d 602,
    kFeed := bitOf d 603,
    kFinal := bitOf d 604,
    kRelease := bitOf d 605,
    kPlace := bitOf d 606,
    spanLo := slice d 607 5,
    spanLog2 := slice d 612 3,
    segCount := slice d 615 7,
    countRec := bitOf d 624,
    depAction := slice d 625 2,
    depRegion := slice d 627 12,
    depIndex := slice d 544 32,
    src := slice d 192 32,
    src2 := slice d 224 32,
    dst := slice d 256 32,
    preAddr := slice d 352 32,
    winAddr := slice d 384 32,
    vecLen := slice d 320 32,
    dstCap := slice d 288 32,
    bisq := slice d 589 5,
    segTable := slice d 448 32,
    segStatus := slice d 480 32,
    countAddr := slice d 416 32,
    stream := bitOf d 622,
    ragTail := bitOf d 623 }

/-- The value of a field by its code, from the words. -/
def fieldValue (words : BitVec 1024) (code : Nat) : Nat :=
  match descFields.find? (fun f => f.1 == code) with
  | some (_, lo, w, _) => slice words.toNat lo w
  | none => 0

/-- Whether a reserved bit of Table 8.7 is set. -/
def reservedSet (words : BitVec 1024) : Bool :=
  let used := descFields.foldl (fun acc f => acc ||| ((2 ^ f.2.2.1 - 1) * 2 ^ f.2.1)) 0
  words.toNat &&& ((2 ^ 1024 - 1) ^^^ used) != 0

/-- A segment table entry (Table 7.5) laid over the descriptor: what the segment would be as a firing of its own (R233). -/
def segDesc (d : Desc) (e : BitVec 256) : Desc :=
  let v := e.toNat
  { d with op := slice v 0 8, inF := slice v 8 8, outF := slice v 16 8, rmode := slice v 24 3, sat := bitOf v 27,
           nanP := bitOf v 28, count := slice v 32 32, src := slice v 64 32, dst := slice v 96 32, segCount := 0,
           segTable := 0, segStatus := 0 }

/-- Reserved bits of a segment table entry. -/
def segReserved (e : BitVec 256) : Bool := slice e.toNat 29 3 != 0 || slice e.toNat 128 128 != 0

/-- The parts that a firing computes separately: itself, or its segments. -/
def parts (d : Desc) (segs : List (BitVec 256)) : List Desc :=
  if d.segCount = 0 then [d] else (segs.take d.segCount).map (segDesc d)

/-! ### Kinds (Table 7.1) and ragged rules (R238) -/

/-- Kinds with an operator other than NONE. -/
def opKind (k : Nat) : Bool := k == 1 || k == 2 || k == 5 || k == 8 || k == 9 || k == 0xB

/-- Whether the firing follows PAD or COUNT rules on a group of this ragged mode (R238). DEPOSIT GLAZE stands in neither list of R238
and follows SAME rules (DEDUCED, assumption log 92). -/
def padRules (d : Desc) (ragged : Nat) : Bool :=
  ragged != 0 && d.segCount == 0 &&
    (d.kind == 1 || d.kind == 2 || d.kind == 5 || d.kind == 6 || d.kind == 7 || (d.kind == 0xB && d.depAction == 0))

/-- Whether the firing runs in two phases on a COUNT group (R242). -/
def countRules (d : Desc) (ragged : Nat) : Bool := ragged == 2 && d.segCount == 0 && (d.kind == 6 || d.kind == 7)

/-- Elements of the result vector: capacity under PAD rules, count otherwise (R239). -/
def nElems (d : Desc) (pad : Bool) : Nat := if pad then d.capacity else d.count

/-- The valid count (R239). -/
def validCount (d : Desc) (pad : Bool) (measured : Option Nat) : Nat :=
  let c := measured.getD d.count
  if pad then min c d.capacity else c

/-- Element size in bytes of in_fmt. -/
def Desc.b (d : Desc) : Nat := elemSize d.inF d.tan

/-- Whether a firing names a kiln accumulator (R228). -/
def Desc.namesKacc (d : Desc) : Bool := d.kInit || d.kFeed || d.kFinal || d.kRelease

/-- src_bisque. -/
def Desc.srcBisque (d : Desc) : Nat := d.bisq % 16

/-- bisque_clear. -/
def Desc.bisqueClear (d : Desc) : Bool := bitOf d.bisq 4

/-- The accumulators that src_bisque names, ascending (R175). -/
def Desc.bisques (d : Desc) : List Nat := (List.range 4).filter (fun i => bitOf d.srcBisque i)

/-- The root rank, for the kinds that have one (R209). -/
def hasRoot (k : Nat) : Bool := k == 1 || k == 3 || k == 6 || k == 9 || k == 0xA

/-- Whether the member of a rank contributes (Table 7.1, R207). -/
def contributes (d : Desc) (rank : Nat) : Bool :=
  match d.kind with
  | 1 | 2 | 5 | 6 | 7 | 8 => true
  | 3 | 0xA => rank == d.root
  | 9 => d.kFeed && rank == d.root
  | 0xB => d.depAction == 0
  | _ => false

/-- Whether a firing delivers results at all (Table 7.1, R229). -/
def delivers (d : Desc) : Bool :=
  match d.kind with
  | 1 | 2 | 8 => !d.namesKacc || d.kFinal
  | 3 | 5 | 6 | 7 | 0xA => true
  | 9 => d.kFinal
  | 0xB => d.depAction == 1
  | _ => false

/-- Whether the member of a rank receives results. -/
def receives (d : Desc) (rank : Nat) : Bool := delivers d && (!(d.kind == 1 || d.kind == 6) || rank == d.root)

/-- s0 − 4k (R140). -/
def scaleAt (d : Desc) (attempt : Nat) : Int := toSigned 5 d.intScale - 4 * attempt

/-- Whether a part of a firing computes in scaled integers (R140). -/
def scaledPart (d : Desc) : Bool :=
  opKind d.kind && !d.mode && (d.op == 1 || d.op == 2 || d.op == 11) && (d.inF == 8 || d.inF == 9)

/-- The arithmetic settings of a firing or segment. -/
def arithOf (d : Desc) (attempt fn seq : Nat) : Arith :=
  { kind := d.kind, op := d.op, exact := d.mode, inF := d.inF, outF := d.outF, tan := d.tan, nanP := d.nanP,
    varDiv := d.varDiv, tie := d.tie, rmode := d.rmode, sat := d.sat, scale := scaleAt d attempt, seed := d.seed,
    ctr := if d.ctrSel then seq else fn, winner := d.winner, form1 := d.form }

/-- The settings without a grant's numbers, for sizes and validity. -/
def Desc.arith (d : Desc) : Arith := arithOf d 0 0 0

/-- Bytes of one result item of an element: one out_fmt element, or two for MEANVAR, or a fast partial (R212, R214,
R216). -/
def outSize (d : Desc) : Nat :=
  if !opKind d.kind then d.b
  else if d.form && !d.arith.isExact then d.arith.partialSize
  else elemSize d.outF d.tan * (if d.op == 3 then 2 else 1)

/-- Whether results travel as a sherd stream (R169, R216). -/
def streamOut (d : Desc) : Bool := opKind d.kind && d.form && d.arith.isExact

/-! ### Dealing to stripes (R72, R157, R222, R235) -/

/-- A stripe: its number in the firing, its segment, and its elements lo to hi − 1 of the segment. -/
structure Stripe where
  ix  : Nat
  seg : Nat
  lo  : Nat
  hi  : Nat
  lastOfSeg : Bool
deriving DecidableEq, Repr

/-- Elements per stripe of a fast DOT (R222); 0 for a firing dealt by bytes. -/
def dotPer (d : Desc) : Nat :=
  if d.kind == 8 && !d.mode then
    match accTy 11 d.inF 0 with
    | .scaled => 64 * 15
    | .int _ _ => 64 * 4
    | .fp _ => 64 * 8
  else 0

/-- The element size by which a part is dealt: 8 for an exact DOT (R222), b otherwise. -/
def dealSize (d : Desc) : Nat := if d.kind == 8 then 8 else d.b

/-- The first element of stripe s of a part. -/
def stripeLo (d : Desc) (s : Nat) : Nat :=
  if dotPer d != 0 then dotPer d * s else ceilDiv (4096 * s) (dealSize d)

/-- Stripes of a part of n elements. -/
def stripeCount (d : Desc) (n : Nat) : Nat :=
  if n = 0 then 0
  else if dotPer d != 0 then (n - 1) / dotPer d + 1 else (n - 1) * dealSize d / 4096 + 1

/-- The stripes of the parts, numbered on from `ix`. -/
def stripesFrom (pad : Bool) (ix seg : Nat) : List Desc → List Stripe
  | [] => []
  | p :: ps =>
    let n := nElems p pad
    let c := stripeCount p n
    (List.range c).map (fun s =>
      { ix := ix + s, seg := seg, lo := min n (stripeLo p s), hi := min n (stripeLo p (s + 1)), lastOfSeg := s + 1 == c })
    ++ stripesFrom pad (ix + c) (seg + 1) ps

/-- All stripes of a firing, in order. -/
def stripesOf (d : Desc) (segs : List (BitVec 256)) (pad : Bool) : List Stripe := stripesFrom pad 0 0 (parts d segs)

/-- Contribution size in bytes, which selects the path (R231). -/
def pathSize (d : Desc) (segs : List (BitVec 256)) (pad : Bool) : Nat :=
  if d.kind == 8 then 8 * d.count
  else ((parts d segs).map (fun p => nElems p pad * p.b)).foldl (· + ·) 0

/-- The index of the first element of each part in the full result vector (R107, R235). -/
def partBase (d : Desc) (segs : List (BitVec 256)) (pad : Bool) (seg : Nat) : Nat :=
  ((parts d segs).take seg).foldl (fun acc p => acc + nElems p pad) 0

/-! ### Areas (R270, R273, R280, R281) -/

/-- What a member is in its group: its rank, the member count, its member index and the group's ragged mode. -/
structure Who where
  rank : Nat
  m    : Nat
  idx  : Nat
  ragged : Nat
deriving DecidableEq, Repr

/-- An area a member reads or writes: its address, its length at the largest, the field that gives the address, and the
alignment that R260 wants of it. -/
structure Range where
  area  : Area
  seg   : Nat
  addr  : Nat
  len   : Nat
  code  : Nat
  align : Nat
  input : Bool
deriving DecidableEq, Repr

/-- The largest sherd (R118, R168). -/
def sherdMax : Nat := 552

/-- Elements delivered to a member: its slice, or all (R215). -/
def sliceRange (d : Desc) (pad : Bool) (w : Who) : Nat × Nat :=
  let n := nElems d pad
  if d.slice then
    let s := ceilDiv n (max w.m 1)
    (min n (w.idx * s), min n ((w.idx + 1) * s))
  else (0, n)

/-- The areas of one part of a firing at a member. -/
def partRanges (d : Desc) (pad : Bool) (w : Who) (seg : Nat) : List Range :=
  let a := d.arith
  let vc := if d.ragTail then d.count else validCount d pad none
  let wIn := compWidth d.inF
  let n := nElems d pad
  let src : List Range :=
    if !contributes d w.rank then []
    else if d.kind == 8 then
      [⟨.src, seg, d.src, d.count * d.vecLen * d.b, 0x40, wIn, true⟩, ⟨.src2, seg, d.src2, d.count * d.vecLen * d.b, 0x41, wIn, true⟩]
    else if d.kind == 9 then
      (if d.mode && a.isExact then [⟨.src, seg, d.src, d.count * a.sherds * sherdMax, 0x40, 8, true⟩]
       else [⟨.src, seg, d.src, d.count * a.partialSize, 0x40, min 8 (max 1 a.partialSize), true⟩])
    else if d.srcBisque != 0 then []
    else [⟨.src, seg, d.src, vc * d.b, 0x40, wIn, true⟩]
  let pre : List Range :=
    if d.preEn && w.rank == d.preRank then
      (if d.preForm then [⟨.preload, seg, d.preAddr, n * a.sherds * sherdMax, 0x43, 8, true⟩]
       else [⟨.preload, seg, d.preAddr, n * elemSize (preFmt a) d.tan, 0x43, compWidth (preFmt a), true⟩])
    else []
  let k := if d.slice then ceilDiv n (max w.m 1) else n
  let res : List Range :=
    if !receives d w.rank then []
    else if d.kind == 6 || d.kind == 7 then [⟨.result, seg, d.dst, w.m * n * d.b, 0x42, compWidth d.outF, false⟩]
    else if streamOut d then [⟨.result, seg, d.dst, d.dstCap, 0x42, 8, false⟩]
    else if d.form && opKind d.kind then [⟨.result, seg, d.dst, k * outSize d, 0x42, min 8 (max 1 a.partialSize), false⟩]
    else [⟨.result, seg, d.dst, k * outSize d, 0x42, compWidth d.outF, false⟩]
  let aux : List Range :=
    (if d.kind == 0xA && w.rank == d.root then [⟨.aux, seg, d.winAddr, 2 * d.count, 0x44, 2, true⟩] else [])
    ++ (if opKind d.kind && (isLocOp d.op || d.winner) && receives d w.rank then [⟨.aux, seg, d.winAddr, 2 * k, 0x44, 2, false⟩] else [])
    ++ (if d.countRec && receives d w.rank then [⟨.aux, seg, d.countAddr, 4 * w.m, 0x4A, 4, false⟩] else [])
  src ++ pre ++ res ++ aux

/-- All areas of a firing at a member, in the order of R270 by area. -/
def rangesOf (d : Desc) (segs : List (BitVec 256)) (w : Who) : List Range :=
  let pad := padRules d w.ragged
  let all := ((numbered 0 (parts d segs)).map (fun (i, p) => partRanges p pad w i)).flatten
    ++ (if d.segCount != 0 then [(⟨.aux, 0, d.segStatus, 4 * d.segCount, 0x49, 4, false⟩ : Range)] else [])
  [Area.src, .src2, .preload, .result, .aux].flatMap (fun ar => all.filter (fun r => r.area == ar))

/-- Chunks of an area (R270). -/
def chunksIn (c : Nat) (r : Range) : Nat := ceilDiv r.len c

/-- The areas with the index of each one's first chunk. -/
def numberChunks (c ix : Nat) : List Range → List (Nat × Range)
  | [] => []
  | r :: rs => (ix, r) :: numberChunks c (ix + chunksIn c r) rs

/-- The start of the push buffer (R273). -/
def pushBase : Nat := 0xFFFFF000

/-- Whether two areas share a byte. -/
def overlaps (a b : Range) : Bool :=
  decide (0 < a.len) && decide (0 < b.len) && decide (a.addr < b.addr + b.len) && decide (b.addr < a.addr + a.len)

/-! ### Validity (R89, R129, R151, R184, R206 to R246, R260, R273, R281, R583) -/

/-- Operators a kind may take (Table 7.2). -/
def kindOps (k : Nat) : List Nat :=
  match k with
  | 1 | 2 => [1, 2, 3, 4, 5, 6, 7, 8, 9, 10]
  | 5 => [1, 2, 4, 5, 8, 9, 10]
  | 8 => [11]
  | 9 => [1, 2, 3, 4, 5, 8, 9, 10, 11]
  | 0xB => [1]
  | _ => [0]

/-- Whether an operator may take an in_fmt (Tables 4.3, 5.1, 6.1). -/
def opFmtOk (op f : Nat) : Bool :=
  match op with
  | 2 | 11 => !isDual f
  | 6 | 7 => !isDual f
  | 3 => isFloat f || isDual f
  | 8 | 9 | 10 => isInt f
  | _ => true

/-- Whether result_form 1 is permitted (R216). -/
def partialOk (d : Desc) : Bool :=
  if d.mode && isSumOp d.op then true
  else if d.mode then (d.op == 4 || d.op == 5 || isBitOp d.op) && !isDual d.inF
  else (isSumOp d.op || d.op == 4 || d.op == 5 || isBitOp d.op) && d.inF != 8 && d.inF != 9
    && (!isDual d.inF || d.op == 1)

/-- Drain formats (Table 8.12). -/
def drainFmt (f : Nat) : Bool := f == 1 || f == 2 || f == 3 || f == 4 || f == 10

/-- The codes of fields the firing may use (Table 7.3, column "Used by"); every other field must be zero (R211). Three points are the
model's (DEDUCED, assumption log 92): a kind that follows SAME rules on a PAD or COUNT group (R238) uses neither capacity nor
rag_tail; a segmented firing does not use winner_addr, whatever operators its segments have, so the rank vector of a MAXLOC or MINLOC
segment lies at address 0. -/
def usedCodes (d : Desc) (pad : Bool) : List Nat :=
  let k := d.kind
  let seg := d.segCount != 0
  let red := k == 1 || k == 2
  let opk := opKind k
  let on (b : Bool) (cs : List Nat) : List Nat := if b then cs else []
  [0x01, 0x03]
  ++ on (!seg) [0x02]
  ++ on opk [0x04]
  ++ on (k != 4 && k != 0xC) ([0x07] ++ on (!seg) [0x05, 0x06])
  ++ on (opk && !seg) [0x08, 0x09]
  ++ on (opk && !seg && isMaxOp d.op) [0x0A]
  ++ on (opk && (seg || d.op == 3)) [0x0B]
  ++ on (opk && !seg && (d.op == 4 || d.op == 5) && isDual d.inF) [0x0C]
  ++ on (scaledPart d || (seg && opk && !d.mode)) [0x0D]
  ++ on (opk && (seg || d.rmode == 4)) [0x0E, 0x0F]
  ++ on (k != 4 && !seg) [0x10]
  ++ on pad [0x11, 0x4C]
  ++ on (hasRoot k) [0x12]
  ++ on (!seg && (red || k == 8 || k == 9)) [0x13, 0x1D, 0x1E, 0x1F, 0x20]
  ++ on (!seg && (red || k == 5 || k == 8 || k == 9)) [0x14]
  ++ on d.preEn [0x15, 0x16, 0x43]
  ++ on (k == 2 && !seg) [0x17]
  ++ on (k == 5) [0x18, 0x19]
  ++ on (red && (d.op == 4 || d.op == 6)) [0x1A]
  ++ on ((red && (d.winner || isLocOp d.op)) || k == 0xA) [0x44]
  ++ on (k == 0xA) [0x1B]
  ++ on d.namesKacc [0x1C]
  ++ on d.kFeed [0x21]
  ++ on (k == 9 && d.kFeed && !d.kPlace) [0x22, 0x23]
  ++ on (red || k == 3 || k == 5) [0x24]
  ++ on seg [0x48, 0x49]
  ++ on ((k == 6 || k == 7) && pad) [0x26, 0x4A]
  ++ on (k == 0xB) [0x27]
  ++ on (k == 0xB || k == 0xC) [0x28, 0x29]
  ++ on (!seg && (opk || k == 3 || k == 6 || k == 7 || k == 0xA)) [0x40, 0x42]
  ++ on (k == 8) [0x41, 0x45]
  ++ on (d.mode && d.form && (red || k == 8 || k == 9)) [0x46]
  ++ on ((red || k == 5) && d.mode && d.op == 1 && !seg) [0x47]
  ++ on (!seg && (red || k == 5 || k == 6 || k == 7 || k == 8 || (k == 0xB && d.depAction == 0))) [0x4B]

/-- The codes of the settings that a segment table entry gives and that a plain descriptor of its kind, operator and formats does not
use: nonzero they would make the plain descriptor invalid (R211, R233). -/
def entryUnused (p : Desc) : List Nat :=
  let on (b : Bool) (c : Nat) : List Nat := if b && !(usedCodes p false).contains c then [c] else []
  on (p.rmode != 0) 0x08 ++ on p.sat 0x09 ++ on p.nanP 0x0A

/-- The codes of the fields that one part's formats, operator and rounding break (R89, R583). -/
def formatErrors (p : Desc) : List Nat :=
  let on (b : Bool) (c : Nat) : List Nat := if b then [c] else []
  if p.kind == 4 || p.kind == 0xC then on (p.op != 0) 0x02
  else
    on (!(kindOps p.kind).contains p.op) 0x02
    ++ on (!fmtOk p.inF) 0x05 ++ on (!fmtOk p.outF) 0x06
    ++ on (fmtOk p.inF && fmtOk p.outF && !pairOk p.inF p.outF) 0x06
    ++ on (p.tan != 0 && fmtOk p.inF && !isDual p.inF) 0x07
    ++ on (decide (4 < p.rmode)) 0x08 ++ on (p.rmode == 4 && fmtOk p.outF && !isShort p.outF) 0x08
    ++ on (p.op != 0 && fmtOk p.inF && !opFmtOk p.op p.inF) 0x05
    ++ on (p.mode && p.kind == 5 && p.op != 1 && p.op != 2) 0x05
    ++ on (isBitOp p.op && p.inF != p.outF) 0x06
    ++ on (p.op == 3 && isInt p.outF) 0x06
    ++ on (!opKind p.kind && p.inF != p.outF) 0x06
    ++ on (p.kind == 0xA && isDual p.inF) 0x05
    ++ on (isBitOp p.op && p.intScale != 0) 0x0D
    ++ on (p.mode && p.intScale != 0) 0x0D
    ++ on (p.tie && !((p.op == 4 || p.op == 5) && isDual p.inF)) 0x0C

/-- A field of a segment entry is named by the code of the segment table entries (R583, Table 9.3; assumption log 8). -/
def segCode (c : Nat) : Nat :=
  if [0x02, 0x05, 0x06, 0x08, 0x09, 0x0A, 0x10, 0x40, 0x42].contains c then 0x25 else c

/-- The codes of the fields that a descriptor breaks at a member; the rules on root and preload_rank that only the kiln can
check are not among them (R304). -/
def invalidCodes (words : BitVec 1024) (segs : List (BitVec 256)) (w : Who) : List Nat :=
  let d := descOf words
  let pad := padRules d w.ragged
  let on (b : Bool) (c : Nat) : List Nat := if b then [c] else []
  let seg := d.segCount != 0
  let ps := parts d segs
  let rs := rangesOf d segs w
  let ins := rs.filter (·.input)
  let outs := rs.filter (fun r => !r.input)
  let table : List Range := if seg then [⟨.aux, 0, d.segTable, 32 * d.segCount, 0x48, 32, true⟩] else []
  let named (r : Range) : Nat := if seg then segCode r.code else r.code
  on (reservedSet words) 0x4E
  ++ on (!(decide (1 ≤ d.kind) && decide (d.kind ≤ 0xC))) 0x01
  ++ (descFields.filter (fun f => !(usedCodes d pad).contains f.1 && slice words.toNat f.2.1 f.2.2.1 != 0)).map (·.1)
  ++ (if seg then (ps.flatMap (fun p => formatErrors p ++ entryUnused p)).map segCode else formatErrors d)
  ++ on (seg && ps.any (fun p => p.count == 0)) 0x25
  ++ on (seg && segs.any segReserved) 0x25
  ++ on (decide (64 < d.segCount)) 0x24
  ++ on (d.intScale == 0b10000) 0x0D
  ++ on (d.firstFill && !d.excl) 0x19
  ++ on (d.kind == 8 && decide (2 ^ 24 < d.vecLen)) 0x4D
  ++ on (d.winAddr % 2 != 0) 0x44
  ++ on (d.countRec && d.countAddr % 4 != 0) 0x4A
  ++ on (seg && d.segTable % 32 != 0) 0x48
  ++ on (seg && d.segStatus % 4 != 0) 0x49
  ++ on (d.srcBisque != 0 && d.count != d.bisques.length) 0x47
  ++ on (d.stream && d.ragTail) 0x4C
  ++ on (d.stream && !drainFmt d.inF) 0x05
  ++ on (d.form && !partialOk d) 0x13
  ++ on (d.preEn && (d.form || !(d.op == 1 || d.op == 2 || d.op == 11) || (d.kind == 9 && !d.kFinal) || (d.kFeed && !d.kFinal))) 0x14
  ++ on (d.preEn && d.preForm && !d.mode) 0x15
  ++ (if d.namesKacc then
        on (!(decide (1 ≤ d.count) && decide (d.count ≤ 64))) 0x10
        ++ on (!(isSumOp d.op || (!d.mode && (d.op == 4 || d.op == 5 || isBitOp d.op) && (!isDual d.inF)))) 0x02
        ++ on (!d.mode && isDual d.inF && d.op != 1) 0x02
        ++ on (!d.mode && (d.inF == 8 || d.inF == 9)) 0x05
        ++ on d.slice 0x17
        ++ on (d.kind != 9 && !d.kFeed) 0x1E
      else [])
  ++ on (d.kind == 9 && d.kFeed && !d.kPlace && decide (5 < d.spanLog2)) 0x23
  ++ on (d.kind == 9 && d.kFeed && !d.kPlace && d.spanLo % 2 ^ d.spanLog2 != 0) 0x22
  ++ on (d.kind == 0xB && decide (1 < d.depAction)) 0x27
  ++ on (d.kind == 0xB && d.depAction == 1 && !d.mode) 0x04
  ++ on (d.kind == 0xB && d.depAction == 0 && !d.mode && d.outF != 1 && d.outF != 2) 0x06
  ++ (rs.filter (fun r => r.addr % r.align != 0)).map named
  ++ ((ins ++ table).filter (fun r => decide (2 ^ 32 < r.addr + r.len))).map named
  ++ ((outs ++ table).filter (fun r => decide (pushBase ≤ r.addr) || decide (pushBase < r.addr + r.len))).map named
  ++ on (outs.any (fun o => (ins ++ table).any (fun i =>
        overlaps o i && !(d.kind == 3 && o.area == .result && i.area == .src && o.seg == i.seg && o.addr == i.addr)))) 0x4F

/-- The field code a member reports, if its descriptor is invalid: the lowest (R583). -/
def invalidCode (words : BitVec 1024) (segs : List (BitVec 256)) (w : Who) : Option Nat := minOf (invalidCodes words segs w)

/-! ### The digest image (R302, R303) -/

/-- The digest image's descriptor: agreed fields only; count not under PAD or COUNT rules. -/
def imageWords (words : BitVec 1024) (pad : Bool) : BitVec 1024 :=
  BitVec.ofNat 1024 ((descFields.filter (fun f => f.2.2.2 && !(pad && f.1 == 0x10))).foldl
    (fun acc f => acc ||| (slice words.toNat f.2.1 f.2.2.1 * 2 ^ f.2.1)) 0)

/-- A segment entry of the digest image: its addresses and reserved bits zero. -/
def imageSeg (e : BitVec 256) : Nat := slice e.toNat 0 29 + slice e.toNat 32 32 * 2 ^ 32

/-- The digest image's bytes. -/
def digestImage (words : BitVec 1024) (segs : List (BitVec 256)) (pad : Bool) : List Byte :=
  leBytes 128 (imageWords words pad).toNat
    ++ ((segs.take (descOf words).segCount).map (fun e => leBytes 32 (imageSeg e))).flatten

/-- The descriptor digest (R302). -/
def descDigest (words : BitVec 1024) (segs : List (BitVec 256)) (pad : Bool) : Quad := crc64 (digestImage words segs pad)

/-- The check of a field code (R303). -/
def fieldCheck (words : BitVec 1024) (segs : List (BitVec 256)) (pad : Bool) (code : Nat) : Byte :=
  if code == 0x25 then crc8 (((segs.take (descOf words).segCount).map (fun e => leBytes 32 (imageSeg e))).flatten)
  else match descFields.find? (fun f => f.1 == code) with
    | some (_, lo, w, _) => crc8 (leBytes ((w + 7) / 8) (slice (imageWords words pad).toNat lo w))
    | none => 0

/-- The 48 checks of an ARM (Table 9.2). -/
def fieldChecks (words : BitVec 1024) (segs : List (BitVec 256)) (pad : Bool) : List Byte :=
  (upFrom 1 48).map (fieldCheck words segs pad)

/-- The lowest field code whose check differs, 0x61 if none does (Table 9.2, R305). -/
def splitCodeOf (a b : List Byte) : Nat :=
  match (numbered 1 (List.zip a b)).find? (fun e => e.2.1 != e.2.2) with
  | some e => e.1
  | none => 0x61

/-! ### Bisque passes (Table 8.8, R261) -/

/-- The action of a bisque pass (Table 5.4). -/
def passAction (words : BitVec 1024) : Nat := slice words.toNat 8 4
/-- The accumulator it acts on. -/
def passIdx (words : BitVec 1024) : Nat := slice words.toNat 32 2
/-- The field first. -/
def passFirst (words : BitVec 1024) : Bool := bitOf words.toNat 34
/-- The pass's in_fmt. -/
def passFmt (words : BitVec 1024) : Nat := slice words.toNat 16 8
/-- The pass's vec_len. -/
def passLen (words : BitVec 1024) : Nat := slice words.toNat 320 32
/-- Whether the pass is one of the vector ADD actions. -/
def passAdds (words : BitVec 1024) : Bool := decide (2 ≤ passAction words) && decide (passAction words ≤ 4)

/-- The areas of a bisque pass (Table 5.4, R273). -/
def passRanges (words : BitVec 1024) : List Range :=
  let d := words.toNat
  let a := passAction words
  let n := passLen words * compWidth (passFmt words)
  let w := compWidth (passFmt words)
  if passAdds words then
    (⟨.src, 0, slice d 192 32, n, 0x40, w, true⟩ : Range) ::
      (if a == 4 then [⟨.src2, 0, slice d 224 32, n, 0x41, w, true⟩] else [])
  else if a == 1 || a == 5 then [⟨.src, 0, slice d 192 32, sherdMax, 0x40, 8, true⟩]
  else if a == 6 then [⟨.result, 0, slice d 256 32, sherdMax, 0x42, 8, false⟩]
  else []

/-- The field code that a malformed pass's detail names (R261). -/
def passInvalid (words : BitVec 1024) : Option Nat :=
  let d := words.toNat
  let used := 0xFF + 0xF00 + 0xFF0000 + 0x7 * 2 ^ 32 + (2 ^ 32 - 1) * 2 ^ 192 + (2 ^ 32 - 1) * 2 ^ 224
    + (2 ^ 32 - 1) * 2 ^ 256 + (2 ^ 32 - 1) * 2 ^ 320
  let on (b : Bool) (c : Nat) : List Nat := if b then [c] else []
  let rs := passRanges words
  minOf (on (d &&& ((2 ^ 1024 - 1) ^^^ used) != 0) 0x4E
    ++ on (decide (6 < passAction words)) 0x50
    ++ on (passAdds words && !(isFloat (passFmt words) || isInt (passFmt words))) 0x05
    ++ on (passAdds words && decide (2 ^ 24 < passLen words)) 0x4D
    ++ (rs.filter (fun r => r.addr % r.align != 0)).map (·.code)
    ++ ((rs.filter (·.input)).filter (fun r => decide (2 ^ 32 < r.addr + r.len))).map (·.code)
    ++ ((rs.filter (fun r => !r.input)).filter (fun r => decide (pushBase < r.addr + r.len))).map (·.code))

end Sys2Proof.Machine
end

