-- ==== Sys2Proof/Machine/Groups.lean ====
section
/-! DEFINITION. Reading the configuration: die slices built, the rank map, saggars, groups and their members (chapters 2
and 14). -/

namespace Sys2Proof.Machine
open Sys2Proof

/-- n: die slices built (Table 0.3, Table 16.1). -/
def State.n (s : State) : Nat := s.straps.ndieM1.toNat + 1

/-- Whether an index names a leaf (R28). -/
def State.leafExists (s : State) (l : Nat) : Bool := decide (l < 256 * s.n)

/-! ### Policy (Table 14.2) -/

/-- The active GLOBAL_POLICY. -/
def State.policy (s : State) : Nat := s.cfg.active.policy.toNat
/-- cone_mode: diagnostic mode (R314). -/
def State.diagnostic (s : State) : Bool := bitOf s.policy 0
/-- pace_mode as configured (R333). -/
def State.paceWanted (s : State) : Bool := bitOf s.policy 1
/-- trim_quiet (R358). -/
def State.trimQuiet (s : State) : Bool := bitOf s.policy 2
/-- Whether a mailbox port is privileged (R422). -/
def State.privileged (s : State) (p : Nat) : Bool := decide (16 ≤ p) || bitOf s.policy (32 + p)

/-! ### The rank map (R60, R61) -/

/-- Bit p of a disabled-leaf map; positions at or above 256 n are disabled whatever is held (R57). -/
def mapDisabled (n : Nat) (m : BitVec 8192) (p : Nat) : Bool := decide (256 * n ≤ p) || bitOf m.toNat p

/-- The leaf of an active rank. -/
def Config.leafOf (c : Config) (r : Nat) : Nat := (tget 0xFFFF c.rankToLeaf r).toNat
/-- The rank on a position in the active map. -/
def Config.rankOf (c : Config) (p : Nat) : Nat := (tget 0xFFFF c.leafToRank p).toNat

/-- Leaves enabled in a map, ascending (R60). -/
def enabledLeaves (n : Nat) (m : BitVec 8192) : List Nat := (List.range (256 * n)).filter (fun p => !mapDisabled n m p)

/-- The bytes of a map with the bits above the built leaves reading 1 (R57). -/
def mapBytes (n : Nat) (m : BitVec 8192) : List Byte :=
  leBytes 1024 (m.toNat ||| ((2 ^ 8192 - 1) - (2 ^ (256 * n) - 1)))

/-- The tree-shape digest (R86). -/
def treeShapeDigest (n : Nat) (m : BitVec 8192) : Quad := crc64 (BitVec.ofNat 8 (n - 1) :: mapBytes n m)

/-- The tables of R61 and the digest of R86 from the active map. -/
def Config.derive (c : Config) (n : Nat) : Config :=
  let ls := enabledLeaves n c.active.disabled
  { c with
    rankToLeaf := (numbered 0 ls).foldl (fun t e => tset 0xFFFF t e.1 (BitVec.ofNat 16 e.2)) []
    leafToRank := (numbered 0 ls).foldl (fun t e => tset 0xFFFF t e.2 (BitVec.ofNat 16 e.1)) []
    nRanks := ls.length
    shape := treeShapeDigest n c.active.disabled }

/-! ### Saggars and quotas (Table 14.3, R470) -/

/-- A saggar number's record. -/
def Config.sag (c : Config) (k : Nat) : Saggar := tget {} c.saggars k
/-- Changes a saggar number's record. -/
def Config.modSag (c : Config) (k : Nat) (f : Saggar → Saggar) : Config := { c with saggars := tmod {} c.saggars k f }

/-- group_base of a quota entry. -/
def qGroupBase (q : BitVec 128) : Nat := slice q.toNat 108 20
/-- group_count. -/
def qGroupCount (q : BitVec 128) : Nat := slice q.toNat 88 20
/-- map_base. -/
def qMapBase (q : BitVec 128) : Nat := slice q.toNat 78 10
/-- map_count. -/
def qMapCount (q : BitVec 128) : Nat := slice q.toNat 68 10
/-- digest_quota. -/
def qDigest (q : BitVec 128) : Nat := slice q.toNat 55 13
/-- owner_port. -/
def qOwner (q : BitVec 128) : Nat := slice q.toNat 50 5

/-- The active quota entry of a saggar. -/
def Config.quota (c : Config) (k : Nat) : BitVec 128 := tget 0 c.active.quota k

/-- A LEAF_SAGGARS entry: four slots that reset to 0xFFFF (R470). The table holds entries as differences from the reset
value, so an unlisted entry reads as all ones. -/
def GlobalSet.leafSaggars (g : GlobalSet) (l : Nat) : List Nat :=
  let e := (tget (BitVec.allOnes 64) g.leafSag l).toNat
  (List.range 4).map (fun k => slice e (16 * k) 16)

/-- The port that owns a saggar (Table 14.3). -/
def Config.owner (c : Config) (k : Nat) : Nat := qOwner (c.quota k)

/-! ### Groups (Table 14.5, R476) -/

/-- Fields of a GROUP entry. -/
def gValid (e : BitVec 256) : Bool := bitOf e.toNat 89
/-- recreate. -/
def gRecreate (e : BitVec 256) : Bool := bitOf e.toNat 90
/-- form: MAP. -/
def gMapForm (e : BitVec 256) : Bool := bitOf e.toNat 91
/-- ragged_mode. -/
def gRagged (e : BitVec 256) : Nat := slice e.toNat 92 2
/-- lat_override. -/
def gLatOverride (e : BitVec 256) : Bool := bitOf e.toNat 94
/-- lat_threshold. -/
def gLat (e : BitVec 256) : Nat := slice e.toNat 95 9
/-- The firing cone in µs; 0 selects 100 (R314). -/
def gCone (e : BitVec 256) : Nat := if slice e.toNat 104 20 = 0 then 100 else slice e.toNat 104 20
/-- digest_tag. -/
def gTag (e : BitVec 256) : Nat := slice e.toNat 124 16
/-- stride_log2. -/
def gStride (e : BitVec 256) : Nat := slice e.toNat 140 4
/-- rank_count. -/
def gCount (e : BitVec 256) : Nat := slice e.toNat 144 16
/-- first_rank. -/
def gFirst (e : BitVec 256) : Nat := slice e.toNat 160 16
/-- map_index. -/
def gMap (e : BitVec 256) : Nat := slice e.toNat 176 16

/-- A group's entry in a saggar set; an unlisted entry is the reset entry, all zero. -/
def SaggarSet.group (ss : SaggarSet) (g : Nat) : BitVec 256 := tget 0 ss.groups g

/-- Ranks whose bits a member map sets. -/
def mapRanks (m : BitVec 8192) : List Nat := (List.range 8192).filter (fun r => bitOf m.toNat r)

/-- The member ranks of an entry, ascending (R476). -/
def memberRanks (ss : SaggarSet) (e : BitVec 256) : List Nat :=
  if gMapForm e then mapRanks (tget 0 ss.maps (gMap e))
  else (List.range (gCount e)).map (fun i => gFirst e + i * 2 ^ gStride e)

/-- The saggar whose active set holds a group as valid. -/
def Config.groupSaggar (c : Config) (g : Nat) : Option Nat :=
  (c.saggars.find? (fun e => e.2.inUse && gValid (e.2.active.group g))).map (·.1)

/-- A group's active entry; zero when no saggar holds it. -/
def Config.groupEntry (c : Config) (g : Nat) : BitVec 256 :=
  match c.groupSaggar g with
  | some k => (c.sag k).active.group g
  | none => 0

/-- A group's member ranks in the active set. -/
def Config.members (c : Config) (g : Nat) : List Nat :=
  match c.groupSaggar g with
  | some k => memberRanks (c.sag k).active ((c.sag k).active.group g)
  | none => []

/-- A group's member leaves under the active rank map. -/
def Config.memberLeaves (c : Config) (g : Nat) : List Nat :=
  ((c.members g).map c.leafOf).filter (fun l => l != 0xFFFF)

/-- The membership digest (R482). -/
def mshipDigest (g : Nat) (ranks : List Nat) : Quad :=
  crc64 (leBytes 4 g ++ leBytes 1024 (ranks.foldl (fun acc r => acc ||| 2 ^ r) 0))

/-- Whether a group is active in a leaf's saggars and has the leaf's rank as a member (R295, R470). -/
def Config.groupHas (c : Config) (g l : Nat) : Bool :=
  match c.groupSaggar g with
  | some k => (c.active.leafSaggars l).contains k && c.rankOf l != 0xFFFF && (c.members g).contains (c.rankOf l)
  | none => false

/-- What a leaf's rank is in a group (R208). -/
def Config.who (c : Config) (g l : Nat) : Who :=
  let ms := c.members g
  let r := c.rankOf l
  { rank := r, m := ms.length, idx := (ms.filter (fun x => decide (x < r))).length, ragged := gRagged (c.groupEntry g) }

/-- The latency threshold of a group in bytes (R232). -/
def Config.latency (c : Config) (g : Nat) : Nat :=
  let e := c.groupEntry g
  256 * (if gLatOverride e then gLat e else slice c.active.policy.toNat 23 9)

end Sys2Proof.Machine
end

