-- ==== Sys2Proof/Machine/Flags.lean ====
section
/-! DEFINITION. Codes and status words: status codes (Table 9.7), fault classes and kinds (Tables 8.14, 12.2, 12.5), interrupt
bits (Tables 8.16, 13.4), and the words that show the state of a leaf port, a node, the timing and a die slice's pyrometers
(Tables 8.2 to 8.6, 10.2, 10.8, 10.9, 12.7, 13.3, 13.5, 13.6). -/

namespace Sys2Proof.Machine
open Sys2Proof

/-! ### Status codes (Table 9.7) -/

abbrev stOk : BitVec 8 := 0x00
abbrev stMismatch : BitVec 8 := 0x01
abbrev stTimeout : BitVec 8 := 0x02
abbrev stStall : BitVec 8 := 0x03
abbrev stFault : BitVec 8 := 0x04
abbrev stMiscompare : BitVec 8 := 0x05
abbrev stPoison : BitVec 8 := 0x06
abbrev stOverflow : BitVec 8 := 0x07
abbrev stRange : BitVec 8 := 0x08
abbrev stDenied : BitVec 8 := 0x09
abbrev stAborted : BitVec 8 := 0x0A
abbrev stNeverWritten : BitVec 8 := 0x0B

/-! ### Fault classes (Tables 8.14 and 12.5) -/

abbrev clReadAddr : BitVec 8 := 0x01
abbrev clReadData : BitVec 8 := 0x02
abbrev clWriteAddr : BitVec 8 := 0x03
abbrev clDescRead : BitVec 8 := 0x04
abbrev clCqWrite : BitVec 8 := 0x05
abbrev clLeafDisabled : BitVec 8 := 0x06
abbrev clLeafFailed : BitVec 8 := 0x07
abbrev clNoPlane : BitVec 8 := 0x10
abbrev clStateLost : BitVec 8 := 0x11
abbrev clTableLost : BitVec 8 := 0x12
abbrev clDepositPoison : BitVec 8 := 0x13

/-- The leaf fault class of a failed read (Table 8.14). -/
def readClass : IoClass → BitVec 8
  | .addr => clReadAddr
  | .data => clReadData

/-! ### Interrupt bits -/

/-- LP_INT_STATUS bits (Table 8.16). -/
abbrev ibCq : Nat := 0
abbrev ibErrRecord : Nat := 1
abbrev ibDbErr : Nat := 2
abbrev ibCqHeadErr : Nat := 3
abbrev ibChunkFault : Nat := 4
abbrev ibPushFault : Nat := 5
abbrev ibDrainRefused : Nat := 6
abbrev ibRankChange : Nat := 7
abbrev ibResetDone : Nat := 8

/-- MBX_INT_STATUS bits (Table 13.4). -/
abbrev mbDone : Nat := 0
abbrev mbRingErr : Nat := 1
abbrev mbEvent : Nat := 2
abbrev mbMcFault : Nat := 3
abbrev mbMcReady : Nat := 4

/-- Sets a bit of a 32-bit word. -/
def setBit (w : Word) (i : Nat) : Word := w ||| BitVec.ofNat 32 (2 ^ i)

/-- Clears the bits that a write of `v` has at 1 (W1C, R15, R16). -/
def w1c (w v : Word) : Word := w &&& ~~~v

/-- A bit field put in place. -/
def at' (v lo : Nat) : Nat := v * 2 ^ lo

/-- The level interrupt line of a leaf port or a mailbox port (R286, R424). -/
def irqLine (status enable : Word) : Bool := status &&& enable != 0

/-! ### Leaf port words -/

/-- LP_IDENT (Table 8.2). -/
def lpIdent (p : LeafPort) (l : Nat) : Word := BitVec.ofNat 32 (at' p.rank.toNat 16 + l)

/-- LP_CTRL as read (Table 8.3). -/
def lpCtrl (p : LeafPort) : Word :=
  BitVec.ofNat 32 (at' p.cqThresh.toNat 12 + at' p.chunkLog2.toNat 8 + b2n p.enable)

/-- Descriptors taken and not yet completed (Table 8.4). -/
def LeafPort.outstanding (p : LeafPort) : Nat := p.taken.length

/-- Outstanding firings of a group at a leaf (R262). -/
def LeafPort.groupCount (p : LeafPort) (g : Nat) : Nat :=
  (p.taken.filter (fun t => t.phase != .pass && (descOf t.words).group == g)).length

/-- Whether a descriptor is held by the per-group limit (R262, Table 8.4). -/
def LeafPort.groupHold (p : LeafPort) : Bool :=
  p.held.any (fun h => slice h.2.1.toNat 0 8 != 0x10 && decide (16 ≤ p.groupCount (descOf h.2.1).group))

/-- running of LP_STATUS. -/
def LeafPort.running (p : LeafPort) : Bool := p.enable && !p.resetBusy

/-- LP_STATUS (Table 8.4). -/
def lpStatus (p : LeafPort) : Word :=
  BitVec.ofNat 32 (at' p.outstanding 16 + at' (b2n p.resetBusy) 5 + at' (b2n p.cqFull) 4 + at' (b2n p.configErr) 3
    + at' (b2n p.groupHold) 2 + at' (b2n (p.rank != 0xFFFF)) 1 + b2n p.running)

/-- E, the slots of the ring and the records of the queue (R254). -/
def LeafPort.e (p : LeafPort) : Nat := 2 ^ p.ringLog2.toNat

/-- The chunk size C (R270). -/
def LeafPort.chunk (p : LeafPort) : Nat := 2 ^ p.chunkLog2.toNat

/-- What a 32-bit load of the register block returns (Table 8.1); unlisted offsets read 0 (R250). -/
def lpRead (p : LeafPort) (l off : Nat) : Word :=
  match off with
  | 0x00 => lpIdent p l
  | 0x04 => lpCtrl p
  | 0x08 => lpStatus p
  | 0x0C => p.ringLog2.setWidth 32
  | 0x10 => p.ringBase
  | 0x14 => p.cqBase
  | 0x1C => p.ringTail.setWidth 32
  | 0x20 => p.ringHead.setWidth 32
  | 0x24 => p.cqTail.setWidth 32
  | 0x28 => p.cqHead.setWidth 32
  | 0x2C => p.intStatus
  | 0x30 => p.intEnable
  | 0x34 => p.pushFault
  | 0x38 => p.drainRefuse
  | 0x3C => p.flogCount
  | 0x40 => p.chunkFaults
  | 0x44 => p.pushFaults
  | 0x48 => p.drainsRefused
  | _ =>
    if 0x100 ≤ off && off < 0x200 && off % 4 == 0 then
      BitVec.ofNat 32 (slice (tget 0 p.flog ((off - 0x100) / 16)).toNat (8 * (off % 16)) 32)
    else 0

/-! ### Node, timing and pyrometer words -/

/-- NODE_STATUS (Table 12.7). -/
def nodeStatus (n : NodeStat) : BitVec 16 :=
  BitVec.ofNat 16 (at' n.outReason.toNat 8 + at' (b2n n.testFailed) 4 + at' (b2n n.selfTest) 3 + at' (b2n n.pairOut) 2
    + at' (b2n n.bOut) 1 + b2n n.aOut)

/-- A die slice's services. -/
def State.die (s : State) (d : Nat) : Die := tget {} s.dies d

/-- Whether pacing is active (R336): the mode in force is paced and the generator is locked. -/
def State.paceActive (s : State) : Bool := s.paceMode && s.paceLocked

/-- Steps of 0.25 ns in a time in ns, rounded down. -/
def quarterSteps (t : Rat) : Nat := (t * 4).floor.toNat

/-- TIMING_STATUS (Table 10.2). -/
def timingStatus (s : State) : Word :=
  BitVec.ofNat 32 (at' (quarterSteps s.releaseTarget % 2 ^ 16) 8
    + at' (b2n ((List.range s.n).any (fun d => (s.die d).trimRange))) 4
    + at' (b2n ((List.range s.n).any (fun d => (s.die d).trimStale))) 3
    + at' (b2n s.refLost) 2 + at' (b2n s.paceLocked) 1 + b2n s.paceActive)

/-- PYRO_STATUS (Table 10.8). -/
def pyroStatus (d : Die) : Word :=
  BitVec.ofNat 32 (at' (b2n d.trimStale) 31 + at' (b2n d.trimRange) 30 + at' (b2n d.measuring) 29 + at' (b2n d.quietHold) 28
    + at' (b2n d.epoch) 27 + at' d.loadCorr 23 + at' d.tempNow.toNat 11 + d.tempMeas.toNat)

/-- LEAF_TRIM (Table 10.9): the applied trim of the current epoch. -/
def leafTrim (d : Die) (p : LeafPort) : BitVec 16 :=
  BitVec.ofNat 16 (at' (b2n p.clamped) 15 + at' ((if d.epoch then p.trim1 else p.trim0) % 64) 6 + p.base % 64)

/-! ### Mailbox port words -/

/-- The code of a port state (Table 13.3). -/
def PortState.code : PortState → Nat
  | .idle => 0 | .pending => 1 | .working => 2 | .done => 3

/-- busy_reason (Table 13.3); until the controller serves after block reset it is that of a restart (R562). -/
def busyReason (c : Controller) : Nat :=
  match c.phase with
  | .inReset | .serving => 0
  | .switching => 1
  | .safe => 3
  | _ => 2

/-- MBX_STATUS (Table 13.3). -/
def mbxStatus (c : Controller) (p : Port) : Word :=
  BitVec.ofNat 32 (at' p.curTag.toNat 16 + at' (busyReason c) 8 + at' (b2n p.session.isSome) 6
    + at' (b2n (!p.evq.isEmpty)) 5 + p.st.code)

/-- MBX_PORT_INFO (Table 13.5). -/
def mbxPortInfo (s : State) (k : Nat) (p : Port) : Word :=
  let v := p.session.getD (0, 0)
  BitVec.ofNat 32 (at' v.1.toNat 24 + at' v.2.toNat 16 + at' (b2n s.straps.debug) 15 + at' (b2n (s.privileged k)) 14 + k)

/-- MBX_LAST_EFFECT (Table 13.6). -/
def mbxLastEffect (p : Port) : Word :=
  match p.lastEffect with
  | some t => BitVec.ofNat 32 (at' 1 16 + t.toNat)
  | none => 0

end Sys2Proof.Machine
end

