-- ==== Sys2Proof/Machine/Ops.lean ====
section
/-! DEFINITION. The named operations on the state that the commands share: reaching a unit, the shape of the tree, flits on
wires and links, events and the trace, and the service state of nodes, links and planes. -/

namespace Sys2Proof.Machine
open Sys2Proof

/-! ### Reaching a unit -/

/-- A leaf port. -/
def State.leaf (s : State) (l : Nat) : LeafPort := tget {} s.leaves l
/-- Writes a leaf port. -/
def State.setLeaf (s : State) (l : Nat) (p : LeafPort) : State := { s with leaves := tset {} s.leaves l p }
/-- Changes a leaf port. -/
def State.modLeaf (s : State) (l : Nat) (f : LeafPort → LeafPort) : State := s.setLeaf l (f (s.leaf l))
/-- A datapath link by its counter index (R449). -/
def State.link (s : State) (k : Nat) : Link := tget {} s.links k
/-- Writes a link. -/
def State.setLink (s : State) (k : Nat) (x : Link) : State := { s with links := tset {} s.links k x }
/-- Changes a link. -/
def State.modLink (s : State) (k : Nat) (f : Link → Link) : State := s.setLink k (f (s.link k))
/-- A datapath node by its node index (R446). -/
def State.node (s : State) (k : Nat) : Node := tget {} s.nodes k
/-- Writes a node. -/
def State.setNode (s : State) (k : Nat) (x : Node) : State := { s with nodes := tset {} s.nodes k x }
/-- Changes a node. -/
def State.modNode (s : State) (k : Nat) (f : Node → Node) : State := s.setNode k (f (s.node k))
/-- A control-path node by its node index. -/
def State.ctlNode (s : State) (k : Nat) : CtlNode := tget {} s.ctls k
/-- Writes a control-path node. -/
def State.setCtl (s : State) (k : Nat) (x : CtlNode) : State := { s with ctls := tset {} s.ctls k x }
/-- Changes a control-path node. -/
def State.modCtl (s : State) (k : Nat) (f : CtlNode → CtlNode) : State := s.setCtl k (f (s.ctlNode k))
/-- Writes a die slice's services. -/
def State.setDie (s : State) (d : Nat) (x : Die) : State := { s with dies := tset {} s.dies d x }
/-- Changes a die slice's services. -/
def State.modDie (s : State) (d : Nat) (f : Die → Die) : State := s.setDie d (f (s.die d))
/-- A mailbox port. -/
def State.port (s : State) (p : Nat) : Port := tget {} s.ports p
/-- Writes a mailbox port. A Host Notify sequence starts when port 16's interrupt line rises while notify_en is 1 and
notify_failed is 0 (R529). -/
def State.setPort (s : State) (p : Nat) (x : Port) : State :=
  let was := irqLine (s.port p).intStatus (s.port p).intEnable
  let t := { s with ports := tset {} s.ports p x }
  if p == 16 && !was && irqLine x.intStatus x.intEnable && s.smb.notifyEn && !s.smb.notifyFailed && !s.smb.running then
    { t with smb := { s.smb with running := true, attempts := 0 } }
  else t
/-- Changes a mailbox port. -/
def State.modPort (s : State) (p : Nat) (f : Port → Port) : State := s.setPort p (f (s.port p))
/-- Changes the kiln. -/
def State.modKiln (s : State) (f : Kiln → Kiln) : State := { s with kiln := f s.kiln }
/-- Changes the controller. -/
def State.modCtlr (s : State) (f : Controller → Controller) : State := { s with ctl := f s.ctl }
/-- Changes the configuration. -/
def State.modCfg (s : State) (f : Config → Config) : State := { s with cfg := f s.cfg }
/-- Adds 1 to a port counter of Table 16.5 (32, 48 or 56 bits are told apart by the reader; all saturate). -/
def State.bump (s : State) (code : Nat) : State := { s with counters := tset 0 s.counters code (satInc (tget 0 s.counters code)) }
/-- Adds to a port counter. -/
def State.bumpBy (s : State) (code k : Nat) : State :=
  { s with counters := tset 0 s.counters code (satAdd (tget 0 s.counters code) k) }
/-- Advances the model's counter that free values are applied to. -/
def State.tock (s : State) : State := { s with tick := s.tick + 1 }

/-! ### The shape of the tree (R23 to R27, R446, R449) -/

/-- A node index: q, the control-path bit, the plane (R446). -/
def nodeIx (q : Nat) (ctl : Bool) (plane : Nat) : Nat := q * 8 + b2n ctl * 4 + (if ctl then 0 else plane)
/-- q of a node index. -/
def qOf (ix : Nat) : Nat := ix / 8
/-- Plane of a node index. -/
def planeOf (ix : Nat) : Nat := ix % 4
/-- Level of a node by q (Table 1.1). -/
def levelOf (q : Nat) : Nat := if q = 0 then 3 else if q < 33 then 2 else 1
/-- q of the die node of a die slot. -/
def dieQ (d : Nat) : Nat := 1 + d
/-- q of a cluster node. -/
def clusterQ (d k : Nat) : Nat := 33 + 16 * d + k
/-- q of the cluster node above a leaf. -/
def leafQ (l : Nat) : Nat := clusterQ (l / 256) (l / 16 % 16)
/-- The node above a node, and the input of it that the node is (R25). -/
def parentQ (q : Nat) : Nat × Nat :=
  if q < 33 then (0, q - 1) else (dieQ ((q - 33) / 16), (q - 33) % 16)
/-- The node below an input of a die node or the kiln. -/
def childQ (q i : Nat) : Nat := if q = 0 then dieQ i else clusterQ (q - 1) i
/-- The leaf below an input of a cluster node. -/
def childLeaf (q i : Nat) : Nat := 16 * (q - 33) + i
/-- Inputs of a node. -/
def radix (q : Nat) : Nat := if q = 0 then 32 else 16
/-- Whether a leaf is below a node. -/
def below (q l : Nat) : Bool :=
  if q = 0 then true else if q < 33 then l / 256 == q - 1 else l / 16 == q - 33
/-- The input of a node that leads to a leaf. -/
def inputOf (q l : Nat) : Nat := if q = 0 then l / 256 else if q < 33 then l / 16 % 16 else l % 16
/-- The lowest leaf below a node: the physical index of port 0 below it (Table 12.8). -/
def firstLeaf (q : Nat) : Nat := if q = 0 then 0 else if q < 33 then 256 * (q - 1) else 16 * (q - 33)

/-- Direction as a bit (R449). -/
def dirBit : Dir → Nat
  | .up => 0
  | .down => 1
/-- Counter index of the link above a node (R449). -/
def linkKey (q : Nat) (d : Dir) (plane : Nat) : Nat := q * 8 + dirBit d * 4 + plane
/-- Counter index of a leaf-port link. -/
def leafLinkKey (l : Nat) (d : Dir) (plane : Nat) : Nat := 0x80000000 + l * 8 + dirBit d * 4 + plane
/-- Whether a counter index is a leaf-port link's. -/
def isLeafKey (k : Nat) : Bool := decide (0x80000000 ≤ k)
/-- Direction of a link. -/
def keyDir (k : Nat) : Dir := if k / 4 % 2 = 1 then .down else .up
/-- The same link in the other direction. -/
def keyReverse (k : Nat) : Nat := if k / 4 % 2 = 1 then k - 4 else k + 4
/-- q of the lower end, for a link above a node. -/
def keyQ (k : Nat) : Nat := k / 8
/-- Whether a link is a bridge link (Table 1.8): its lower end is a die node. -/
def isBridge (k : Nat) : Bool := !isLeafKey k && decide (1 ≤ keyQ k) && decide (keyQ k ≤ 32)
/-- The leaf of a leaf-port link. -/
def keyLeaf (k : Nat) : Nat := (k - 0x80000000) / 8
/-- Level of a link's lower end (Table 12.8). -/
def keyLevel (k : Nat) : Nat := if isLeafKey k then 0 else levelOf (keyQ k)
/-- Port 0 below a link. -/
def keyWhere (k : Nat) : Nat := if isLeafKey k then keyLeaf k else firstLeaf (keyQ k)
/-- The link of an input of a node, upward (from below) or downward (from above: the input is then not used). -/
def inLink (q plane : Nat) (d : Dir) (input : Nat) : Nat :=
  match d with
  | .up => if 33 ≤ q then leafLinkKey (childLeaf q input) .up plane else linkKey (childQ q input) .up plane
  | .down => linkKey q .down plane

/-- Datapath and control-path node positions that the build has: the kiln and those of its n die slices. -/
def State.nodeBuilt (s : State) (q : Nat) : Bool :=
  q == 0 || (decide (q ≤ 32) && decide (q - 1 < s.n)) || (decide (33 ≤ q) && decide ((q - 33) / 16 < s.n))

/-! ### Flits (Tables 1.5 to 1.7) -/

/-- The header of a flit (Table 1.6). -/
def Flit.header (f : Flit) : Nat :=
  f.type.toNat * 2 ^ 24 + b2n f.poison * 2 ^ 23 + b2n f.last * 2 ^ 22 + b2n f.segEnd * 2 ^ 21 + b2n f.replay * 2 ^ 20
    + f.stripe.toNat * 2 ^ 10 + f.setter.toNat

/-- Bytes 0 to 67 of a flit. -/
def Flit.body (f : Flit) : List Byte := leBytes 4 f.header ++ padTo 64 f.payload

/-- The 71 bytes of a flit (R39, R42). -/
def Flit.bytes (f : Flit) : List Byte := f.body ++ leBytes 3 (crc24 f.body)

/-- A flit from its bytes. -/
def flitOf (bs : List Byte) : Flit :=
  let h := numAt bs 0 4
  { type := BitVec.ofNat 8 (h / 2 ^ 24), poison := bitOf h 23, last := bitOf h 22, segEnd := bitOf h 21,
    replay := bitOf h 20, stripe := BitVec.ofNat 10 (h / 2 ^ 10), setter := BitVec.ofNat 10 h, payload := bytesAt bs 4 64 }

/-- Types that the block sends (Table 1.7). -/
def flitTypeOk (t : BitVec 8) : Bool := (decide (1 ≤ t.toNat) && decide (t.toNat ≤ 6)) || t == 0xF0

/-- Whether a receiver takes a flit's bytes: CRC-24 right and no reserved type (R41, R42). -/
def flitOk (bs : List Byte) : Bool :=
  numAt bs 68 3 == crc24 (bs.take 68) && flitTypeOk (flitOf bs).type

/-- Bytes with the bits of an error pattern changed. -/
def spoil (bs : List Byte) (err : BitVec 568) : List Byte := leBytes 71 (ofLe bs ^^^ err.toNat)

/-! ### Wires (R44, R46) -/

/-- Bits set in a byte. -/
def ones (b : Byte) : Nat := ((List.range 8).filter (fun i => bitOf b.toNat i)).length

/-- Data-bus inversion (R44): each byte as driven and its inversion wire, given what the wires hold. -/
def dbi (prev now : List Byte) : List (Byte × Bool) :=
  (List.zip (padTo 71 prev) now).map (fun e => if 4 < ones (e.1 ^^^ e.2) then (~~~e.2, true) else (e.2, false))

/-- The receiver undoes the inversion (R44). -/
def undoDbi (wires : List Byte) (inv : List Bool) : List Byte :=
  (List.zip wires inv).map (fun e => if e.2 then ~~~e.1 else e.1)

/-- The 1-of-4 code (R46): group i toggles the wire that flit bits [2i+1:2i] name. -/
def toggles (bs : List Byte) : BitVec 1136 :=
  let v := ofLe bs
  BitVec.ofNat 1136 ((List.range 284).foldl (fun acc i => acc + 2 ^ (4 * i + slice v (2 * i) 2)) 0)

/-- The flit that toggled wires spell (R46). -/
def fromToggles (t : BitVec 1136) : List Byte :=
  leBytes 71 ((List.range 284).foldl (fun acc i => acc + Nat.log2 (slice t.toNat (4 * i) 4) * 2 ^ (2 * i)) 0)

/-- The 1-of-4 symbol of `n` groups for a value (R46). -/
def symbol4 (n v : Nat) : Nat := (List.range n).foldl (fun acc i => acc + 2 ^ (4 * i + slice v (2 * i) 2)) 0

/-- The wires of one copy of a die interface's control link after a message: each symbol of 32 groups, in bits 127 to 0, carries 8
bytes, and the acknowledge wire, bit 128, follows it (R46, Table 16.13). -/
def ctlWires (w : BitVec 129) (bs : List Byte) : BitVec 129 :=
  (List.range (ceilDiv bs.length 8)).foldl (fun a i => a ^^^ BitVec.ofNat 129 (2 ^ 128 + symbol4 32 (numAt bs (8 * i) 8))) w

/-- A message on the copies of a die's control link that working twins of the sender drive (R399, R554): wires 0 and 1 are copies A
and B down, 2 and 3 up. -/
def CtlNode.signal (n : CtlNode) (dir : Dir) (sender : NodeStat) (bs : List Byte) : CtlNode :=
  let k := match dir with
    | .down => 0
    | .up => 2
  let send (out : Bool) (i : Nat) (w : Table (BitVec 129)) : Table (BitVec 129) := if out then w else tmod 0 w i (ctlWires · bs)
  { n with wires := send sender.bOut (k + 1) (send sender.aOut k n.wires) }

/-- Puts a flit on a link's wires at a block time. -/
def Link.put (k : Link) (bridge : Bool) (now : Quad) (c : Carry) : Link :=
  if bridge then { k with offer := some c, lastFlit := now, sym := k.sym ^^^ toggles c.flit.bytes }
  else
    let ws := dbi k.wires c.flit.bytes
    { k with offer := some c, lastFlit := now, wires := ws.map (·.1), invert := ws.map (·.2) }

/-- The bytes a receiver reads off a link's wires, with an error pattern. -/
def Link.read (k : Link) (bridge : Bool) (err : BitVec 568) : List Byte :=
  if bridge then spoil (fromToggles (k.sym ^^^ k.seen)) err
  else undoDbi (spoil k.wires err) k.invert

/-- The receiver has taken the flit: the handshake completes at a block time, and is counted. -/
def Link.took (k : Link) (bridge : Bool) (now : Quad) : Link :=
  let x := { k with offer := none, lastFlit := now, shakes := k.shakes + 1 }
  if bridge then { x with seen := k.sym, ack := !k.ack } else x

/-! ### Round robin (R51) -/

/-- The setter to serve next: the next above the last served, or the lowest. -/
def nextSetter (last : Nat) (xs : List Nat) : Option Nat :=
  match minOf (xs.filter (fun x => decide (last < x))) with
  | some x => some x
  | none => minOf xs

/-- Takes the first flit of a setter from a queue. -/
def takeOf (setter : Nat) : List Carry → Option (Carry × List Carry)
  | [] => none
  | c :: cs =>
    if c.flit.setter.toNat = setter then some (c, cs)
    else match takeOf setter cs with
      | some (x, r) => some (x, c :: r)
      | none => none

/-- The next flit of a queue by round robin: the flit, the queue's rest and the setter served. -/
def serve (last : Nat) (q : List Carry) : Option (Carry × List Carry × Nat) :=
  match nextSetter last (q.map (fun c => c.flit.setter.toNat)) with
  | none => none
  | some x => match takeOf x q with
    | some (c, r) => some (c, r, x)
    | none => none

/-- What a node has for a link, by round robin: upward, or downward to one input. -/
def Node.next (n : Node) (d : Dir) (input : Nat) : Option (Carry × Node) :=
  match d with
  | .up => match serve n.rrUp n.outUp with
    | some (c, r, x) => some (c, { n with outUp := r, rrUp := x })
    | none => none
  | .down =>
    let mine := (n.outDown.filter (fun e => e.1 == input)).map (·.2)
    let last := match n.rrDown.find? (fun e => e.1 == input) with
      | some e => e.2
      | none => 1023
    match serve last mine with
    | some (c, r, x) =>
      some (c, { n with outDown := n.outDown.filter (fun e => e.1 != input) ++ r.map (fun y => (input, y)),
                        rrDown := (input, x) :: n.rrDown.filter (fun e => e.1 != input) })
    | none => none

/-- The node that drives a link and the input of it that the link is (for a downward link). Upward leaf-port links are driven
by their leaf port. -/
def driver (k : Nat) : Option (Nat × Dir × Nat) :=
  if isLeafKey k then
    match keyDir k with
    | .up => none
    | .down => some (nodeIx (leafQ (keyLeaf k)) false (k % 4), .down, keyLeaf k % 16)
  else match keyDir k with
    | .up => some (nodeIx (keyQ k) false (k % 4), .up, 0)
    | .down => some (nodeIx (parentQ (keyQ k)).1 false (k % 4), .down, (parentQ (keyQ k)).2)

/-- The node at the receiving end of a link; none for a downward leaf-port link, which a leaf port receives. -/
def receiver (k : Nat) : Option Nat :=
  if isLeafKey k then
    match keyDir k with
    | .up => some (nodeIx (leafQ (keyLeaf k)) false (k % 4))
    | .down => none
  else match keyDir k with
    | .up => some (nodeIx (parentQ (keyQ k)).1 false (k % 4))
    | .down => some (nodeIx (keyQ k) false (k % 4))

/-- Whether a node's pair is out; no node is not. -/
def State.pairGone (s : State) (ix : Option Nat) : Bool := ix.any (fun i => (s.node i).stat.pairOut)

/-- Whether both ends of a link have stopped using it: it has failed, or a pair at one of its ends is lost (R390). -/
def State.linkStops (s : State) (k : Nat) : Bool :=
  (s.link k).failed || s.pairGone ((driver k).map (·.1)) || s.pairGone (receiver k)

/-- A link that is not used any more: its handshake, its counts and its retry buffer start afresh; what its receiver has taken
stays. -/
def Link.quiet (k : Link) : Link :=
  { k with offer := none, seen := k.sym, sentCount := 0, recvCount := 0, retry := [], resend := [], nak := none, waiting := none,
           noReplay := 0, repeated := false }

/-- What a link's driver still has for it is lost. -/
def State.flushDriver (s : State) (key : Nat) : State :=
  match driver key with
  | none => s
  | some (ix, d, i) => s.modNode ix (fun n => match d with
    | .up => { n with outUp := [] }
    | .down => { n with outDown := n.outDown.filter (fun e => e.1 != i) })

/-- Both ends of a link stop using it (R390). -/
def State.quietLink (s : State) (key : Nat) : State := (s.modLink key Link.quiet).flushDriver key

/-- A LINK_NAK flit (Table 1.7). -/
def nakFlit (count : BitVec 16) : Flit := { type := 0xF0, payload := padTo 64 (leBytes 2 count.toNat) }

/-- A free link takes its next flit, and one that is out of use none: what is ready for it is lost (R390). On a bridge a LINK_NAK owed to the other direction, then flits to resend, then new
ones, which are counted and kept in the retry buffer (R47). -/
def State.drive (s : State) (k : Nat) : State :=
  let x := s.link k
  if s.linkStops k then s.flushDriver k
  else if x.offer.isSome then s
  else if isBridge k then
    let r := s.link (keyReverse k)
    match r.nak with
    | some c =>
      (s.setLink (keyReverse k) { r with nak := none, retries := satInc r.retries }).setLink k (x.put true s.time { flit := nakFlit c })
    | none =>
      match x.resend with
      | c :: cs => s.setLink k { (x.put true s.time c) with resend := cs, replayed := satInc x.replayed }
      | [] =>
        match driver k with
        | none => s
        | some (ix, d, i) => match (s.node ix).next d i with
          | none => s
          | some (c, n) =>
            let c := { c with count := x.sentCount }
            (s.setNode ix n).setLink k { (x.put true s.time c) with sentCount := x.sentCount + 1, retry := (x.retry ++ [c]).drop (x.retry.length + 1 - 32) }
  else match driver k with
    | none => s
    | some (ix, d, i) => match (s.node ix).next d i with
      | none => s
      | some (c, n) => (s.setNode ix n).setLink k (x.put false s.time c)

/-! ### Events and the trace (R419, R452, R453, R519 to R522) -/

/-- What a fault event carries (Table 12.8). -/
structure FaultEv where
  kind   : Nat
  fn     : Nat := 0
  group  : Nat := 0
  saggar : Nat := 0
  rank   : Nat := 0xFFFF
  wh     : Nat := 0
  level  : Nat := 0
  plane  : Nat := 0
  twin   : Nat := 0
  down   : Bool := false
  ctrl   : Bool := false
  count  : Nat := 0
  status : Nat := 0
deriving DecidableEq, Repr

/-- The 32 bytes of a fault event (Table 12.8). -/
def FaultEv.word (e : FaultEv) (ts : Quad) : BitVec 256 :=
  BitVec.ofNat 256 (at' ts.toNat 192 + at' (e.fn % 2 ^ 48) 144 + at' (e.group % 2 ^ 20) 124 + at' (e.saggar % 2 ^ 12) 112
    + at' (e.rank % 2 ^ 16) 96 + at' (e.wh % 2 ^ 16) 80 + at' (e.level % 4) 78 + at' (e.plane % 4) 76 + at' (e.twin % 4) 74
    + at' (b2n e.down) 73 + at' (b2n e.ctrl) 72 + at' (e.kind % 256) 64 + at' (e.count % 2 ^ 32) 32 + e.status % 256)

/-- An event or trace record: sequence number, class, body (R453, R520). -/
def eventRecord (seq : BitVec 32) (cls : Nat) (body : BitVec 256) : BitVec 320 :=
  BitVec.ofNat 320 (at' body.toNat 64 + at' seq.toNat 32 + at' cls 24)

/-- Whether a port's session is too old for class 0x06 (R440). -/
def Port.old (p : Port) : Bool :=
  match p.session with
  | some (_, m) => decide (m.toNat < 2)
  | none => false

/-- Whether a port takes a record (R440, R452). -/
def State.admits (s : State) (p cls : Nat) (sags : List Nat) : Bool :=
  !(cls == 6 && (s.port p).old) && (cls == 5 || (bitOf (s.port p).mask.toNat cls
    && (s.privileged p || (decide (2 ≤ cls) && decide (cls ≤ 5)) || sags.any (fun k => s.cfg.owner k == p && (s.cfg.sag k).inUse))))

/-- A record offered to one port's queue of 128: counted, and dropped when the queue is full (R452). -/
def Port.offer (p : Port) (cls : Nat) (body : BitVec 256) : Port :=
  if p.evq.length < 128 then
    { p with evq := p.evq ++ [eventRecord p.evSeq cls body], evSeq := p.evSeq + 1, intStatus := setBit p.intStatus mbEvent }
  else { p with evSeq := p.evSeq + 1, evLost := p.evLost + 1 }

/-- A record offered to the trace: formed when enabled for its class and saggar; dropped and counted when 256 wait
(R521, R522). `cls` 0x10 and 0x11 are the trace's own. -/
def State.traceOffer (s : State) (cls : Nat) (body : BitVec 256) (sags : List Nat) : State :=
  let c := s.trace.cfg.toNat
  let en := if cls == 0x10 then bitOf c 8 else if cls == 0x11 then bitOf c 9 else decide (1 ≤ cls) && decide (cls ≤ 6) && bitOf c cls
  if bitOf c 31 && en && (!bitOf c 30 || sags.contains (slice c 16 12)) then
    let t := s.trace
    if t.queue.length < 256 then
      { s with trace := { t with queue := t.queue ++ [eventRecord t.seq cls body], seq := t.seq + 1 } }
    else { s.bump 0x0D with trace := { t with seq := t.seq + 1, dropped := t.dropped + 1 } }
  else s

/-- A record of classes 0x01 to 0x06 offered to every port and to the trace; `sags` are the saggars it concerns. -/
def State.event (s : State) (cls : Nat) (body : BitVec 256) (sags : List Nat) : State :=
  ((List.range 18).foldl (fun a p => if a.admits p cls sags then a.modPort p (fun x => x.offer cls body) else a) s).traceOffer
    cls body sags

/-- A fault event: into the log of the most recent 1,024 and to the hosts (R419). -/
def State.fault (s : State) (e : FaultEv) (sags : List Nat) : State :=
  let w := e.word s.time
  ({ s with faultLog := (s.faultLog ++ [w]).drop (s.faultLog.length + 1 - 1024) }).event 1 w sags

/-- A body from a list of fields: value, first byte, bytes (Table 13.15). -/
def bodyOf (fs : List (Nat × Nat × Nat)) : BitVec 256 :=
  BitVec.ofNat 256 (fs.foldl (fun acc f => acc + (f.1 % 2 ^ (8 * f.2.2)) * 2 ^ (8 * f.2.1)) 0)

/-- A TIMING event (class 0x03). -/
def State.timingEvent (s : State) (kind die : Nat) : State :=
  s.event 3 (bodyOf [(s.time.toNat, 0, 8), (kind, 8, 1), (die, 9, 1)]) []

/-- A CONTROLLER event (class 0x05). -/
def State.controllerEvent (s : State) (kind cause : Nat) : State :=
  s.event 5 (bodyOf [(s.time.toNat, 0, 8), (kind, 8, 1), (cause, 9, 1), (s.ctl.runMajor.toNat, 12, 1),
    (s.ctl.runMinor.toNat, 13, 1), (s.ctl.runPatch.toNat, 14, 2)]) []

/-- The die slot code of an activity: one die slice, 0xFE several, 0xFF the kiln or the block alone (R568). -/
def Activity.dieCode (a : Activity) : Nat :=
  match a.dies with
  | [] => 0xFF
  | [d] => if a.kiln then 0xFE else d
  | _ => 0xFE

/-- A MAINT event (class 0x04). -/
def State.maintEvent (s : State) (a : Activity) (outcome : Nat) : State :=
  s.event 4 (bodyOf [(s.time.toNat, 0, 8), (a.tag.toNat, 8, 2), (a.port, 10, 1), (a.code, 11, 1), (outcome, 12, 1),
    (a.dieCode, 13, 1), (a.target, 14, 4)]) []

/-- A FIRING event (class 0x06). -/
def State.firingEvent (s : State) (kind fn group sag rank : Nat) (sags : List Nat) : State :=
  s.event 6 (bodyOf [(s.time.toNat, 0, 8), (fn, 8, 6), (kind, 14, 1), (group, 16, 4), (sag, 20, 2), (rank, 22, 2)]) sags

/-! ### Service of nodes, links and planes (R389, R400) -/

/-- Whether a datapath node position is in service in a plane. -/
def State.nodeUp (s : State) (q plane : Nat) : Bool := !(s.node (nodeIx q false plane)).stat.pairOut

/-- Whether a link of the datapath is in service. -/
def State.linkUp (s : State) (k : Nat) : Bool := !(s.link k).failed

/-- Whether every node and link between a leaf and the kiln is in service in a plane. -/
def State.pathUp (s : State) (l plane : Nat) : Bool :=
  let c := leafQ l
  let d := dieQ (l / 256)
  s.linkUp (leafLinkKey l .up plane) && s.linkUp (leafLinkKey l .down plane) && s.nodeUp c plane
    && s.linkUp (linkKey c .up plane) && s.linkUp (linkKey c .down plane) && s.nodeUp d plane
    && s.linkUp (linkKey d .up plane) && s.linkUp (linkKey d .down plane) && s.nodeUp 0 plane

/-- Whether a plane is in service for a firing with these leaves on its path (R389). -/
def State.planeUp (s : State) (leaves : List Nat) (plane : Nat) : Bool :=
  leaves.all (fun l => s.pathUp l plane) && s.nodeUp 0 plane

/-- Takes a link out of service (R389, R390): the reason is its code of Table 12.2. The kiln registers it later. -/
def State.failLink (s : State) (k : Nat) (reason : Nat) : State :=
  s.modLink k (fun x => if x.failed then x else { x with failed := true, reported := false, reason := BitVec.ofNat 5 reason })

/-- Takes one twin of a node out. -/
def NodeStat.twinOut (n : NodeStat) (t : Twin) (reason : Nat) : NodeStat :=
  match t with
  | .a => { n with aOut := true, outReason := BitVec.ofNat 5 reason }
  | .b => { n with bOut := true, outReason := BitVec.ofNat 5 reason }

/-- Takes a pair out. -/
def NodeStat.pairLost (n : NodeStat) (reason : Nat) : NodeStat :=
  { n with aOut := true, bOut := true, pairOut := true, reported := false, outReason := BitVec.ofNat 5 reason }

/-- Counts a residue firing of a twin (Table 12.6). -/
def NodeStat.residue (n : NodeStat) (t : Twin) : NodeStat :=
  match t with
  | .a => { n with residueA := satInc n.residueA }
  | .b => { n with residueB := satInc n.residueB }

/-- A twin's code in a fault event. -/
def twinCode : Twin → Nat
  | .a => 1
  | .b => 2

/-! ### Scratchpad bytes the leaf port writes -/

/-- The default of `scratch`: bytes the leaf port has not written are the core's own; the model's image reads 0 there
(assumption log 2). -/
def LeafPort.byteAt (p : LeafPort) (a : Nat) : Byte := tget 0 p.scratch a

/-- Writes bytes to scratchpad from an address. -/
def LeafPort.store (p : LeafPort) (a : Nat) (bs : List Byte) : LeafPort := { p with scratch := tsetRun 0 p.scratch a bs }

/-- Writes scattered bytes to scratchpad. -/
def LeafPort.storeAll (p : LeafPort) (ws : List (Nat × Byte)) : LeafPort :=
  { p with scratch := ws.foldl (fun t w => tset 0 t w.1 w.2) p.scratch }

/-- Sets a bit of LP_INT_STATUS. -/
def LeafPort.raise (p : LeafPort) (i : Nat) : LeafPort := { p with intStatus := setBit p.intStatus i }

/-- Records a leaf fault of classes 0x01 to 0x05 in the fault log; entry (count − 1) mod 16 is the newest (R285, Table 8.15). -/
def LeafPort.log (p : LeafPort) (cls : BitVec 8) (slot addr chunk fn : Nat) : LeafPort :=
  let e : BitVec 128 := BitVec.ofNat 128 (at' (chunk % 2 ^ 32) 96 + at' (addr % 2 ^ 32) 64 + at' (fn % 2 ^ 48) 16
    + at' cls.toNat 8 + slot % 256)
  let n := satInc p.flogCount
  { p with flog := tset 0 p.flog ((n.toNat - 1) % 16) e, flogCount := n }

end Sys2Proof.Machine
end

