-- ==== Sys2Proof/Machine/Service.lean ====
section
/-! DEFINITION. Services of the block that several commands share: the version word and the keys (chapter 11), the swap of
the global set (R61, R481), leaves disabled and failed (R58, R401 to R404, R479), parts found failed (R565), firmware images
(R456) and the controller's phases. -/

namespace Sys2Proof.Machine
open Sys2Proof

/-! ### Version and keys (Table 0.3, R364 to R366) -/

/-- BLK_VERSION of a build with `n` die slices less one in its field. -/
def blkVersionOf (ndieM1 : Nat) : Word := BitVec.ofNat 32 (at' 0xC08 20 + at' 2 16 + at' (ndieM1 % 64) 6)

/-- BLK_VERSION (R3). -/
def State.blkVersion (s : State) : Word := blkVersionOf s.straps.ndieM1.toNat

/-- The key image of Table 11.2. -/
def reproImage (s : State) : List Byte :=
  [0x01] ++ leBytes 3 (slice s.blkVersion.toNat 12 20) ++ [s.ctl.runMajor, s.ctl.runMinor] ++ leBytes 8 s.cfg.shape.toNat
    ++ [0x01, 0x01]

/-- The key image of Table 11.3. -/
def exactImage : List Byte := [0x02, 0x01, 0x01]

/-- Forms the keys; a change of either raises a CONFIG event: cause 1 a global commit, 2 an activation (R366,
Table 13.15). -/
def State.rekey (s : State) (cause : Nat) : State :=
  let k := crc64 (reproImage s)
  let x := crc64 exactImage
  let t := s.modCfg (fun c => { c with reproKey := k, exactKey := x })
  if k = s.cfg.reproKey ∧ x = s.cfg.exactKey then t
  else t.event 2 (bodyOf [(s.cfg.reproKey.toNat, 0, 8), (k.toNat, 8, 8), (s.cfg.activeGen.toNat, 16, 4), (cause, 20, 1),
    (s.time.toNat, 24, 8)]) []

/-! ### The global set -/

/-- A die slot's budget in W; an unlisted entry reads the reset value (Table 14.1). -/
def GlobalSet.budgetOf (g : GlobalSet) (d : Nat) : BitVec 16 := tget 1000 g.budget d

/-- The swap of the global set: the shadow set becomes active under its generation plus 1, the tables of R61 and the digest
of R86 are formed again, and words lost or damaged in the set are rewritten (R413, R478, R481). -/
def Config.swapGlobal (c : Config) (n : Nat) : Config :=
  ({ c with active := c.shadow, activeGen := c.shadowGen + 1, shadowGen := c.shadowGen + 1, poked := false,
            lost := c.lost.filter (fun w => w.set.isSome), badWords := c.badWords.filter (fun w => w.1.set.isSome) }).derive n

/-- A leaf takes its rank from the active map: LP_IDENT changes and rank_change is set when it differs (R289). -/
def LeafPort.takeRank (p : LeafPort) (r : BitVec 16) : LeafPort :=
  if p.rank = r then p else { p with rank := r }.raise ibRankChange

/-- Every leaf takes its rank. -/
def State.takeRanks (s : State) : State :=
  (List.range (256 * s.n)).foldl (fun a l => a.modLeaf l (fun p => p.takeRank (BitVec.ofNat 16 (s.cfg.rankOf l)))) s

/-- From a commit's boundary no firing is granted until the pacing mode has been switched (R335). -/
def State.notePace (s : State) : State :=
  s.modKiln (fun k => { k with paceHold := s.paceWanted != s.paceMode })

/-! ### Leaves disabled and failed -/

/-- The saggars of a leaf. -/
def State.leafSags (s : State) (l : Nat) : List Nat := (s.cfg.active.leafSaggars l).filter (fun k => decide (k < 4096))

/-- Firmware sets a leaf's bit in the shadow global set and writes a FIRING record of kind 3 (R58, R479). -/
def State.disableLeaf (s : State) (l : Nat) : State :=
  (s.modCfg (fun c => { c with shadow := { c.shadow with disabled := c.shadow.disabled ||| BitVec.ofNat 8192 (2 ^ l) },
                               shadowGen := c.shadowGen + 1 })).firingEvent 3 0 0 0 l (s.leafSags l)

/-- A leaf port has failed: enable clears, err_record sets, and no further descriptor is taken (R401, R402). The kiln registers it
later. -/
def LeafPort.fail (p : LeafPort) : LeafPort :=
  if p.failed then p else { p with failed := true, failReported := false, enable := false }.raise ibErrRecord

/-- The end message that a failed leaf port gives itself: FAULT, class LEAF_FAILED, naming its own rank, in a granted firing the one
it was granted with (R289, R402). -/
def LeafPort.ownFailure (p : LeafPort) (t : Taken) (ts : Quad) : EndMsg :=
  { ts := ts, fn := t.fn, seq := t.seq, setter := t.setter,
    rank := if t.phase == .running then BitVec.ofNat 16 t.rank else p.rank, code := clLeafFailed, status := stFault,
    noGrant := t.phase != .running }

/-- A failed leaf port completes each descriptor it has taken with FAULT, as far as it has not yet ended (R402). -/
def LeafPort.endAll (p : LeafPort) (ts : Quad) : LeafPort :=
  { p with taken := p.taken.map (fun t =>
      match t.phase, t.ended with
      | .pass, _ => { t with passEnd := some (t.passEnd.getD (stFault, clLeafFailed, 0)) }
      | _, none => { t with ended := some (p.ownFailure t ts), stopped := true }
      | _, some _ => t) }

/-- The fault event of a leaf's failure (kind 0x0A). -/
def State.leafEvent (s : State) (l count : Nat) : State :=
  s.fault { kind := 0x0A, rank := s.cfg.rankOf l, wh := l, count := count } (s.leafSags l)

/-- A leaf found failed at start-up: failed, registered, disabled in the shadow set, its events written (R565). -/
def State.leafLostAtStart (s : State) (l : Nat) : State :=
  if !s.leafExists l || (s.leaf l).failed then s
  else (((s.modLeaf l (fun p => { p.fail with failReported := true, failCounted := true })).modKiln
    (fun k => { k with failedLeaves := insertRise l k.failedLeaves })).disableLeaf l).leafEvent l 0

/-- The leaves below a node. -/
def State.leavesBelow (s : State) (q : Nat) : List Nat := (List.range (256 * s.n)).filter (fun l => below q l)

/-- The leaf positions below a node, by the tree's shape alone. -/
def leavesOf (q : Nat) : List Nat := if q = 0 then List.range 8192 else if q < 33 then upFrom (256 * (q - 1)) 256 else upFrom (16 * (q - 33)) 16

/-! ### Parts found failed (R565) -/

/-- Changes the status of a node position, datapath or control path, by its node index. -/
def State.modStat (s : State) (ix : Nat) (f : NodeStat → NodeStat) : State :=
  if ix / 4 % 2 = 1 then s.modCtl ix (fun n => { n with stat := f n.stat })
  else s.modNode ix (fun n => { n with stat := f n.stat })

/-- The status of a node position. -/
def State.stat (s : State) (ix : Nat) : NodeStat := if ix / 4 % 2 = 1 then (s.ctlNode ix).stat else (s.node ix).stat

/-- The fault event of a node. -/
def State.nodeEvent (s : State) (ix kind twin count : Nat) : State :=
  s.fault { kind := kind, wh := firstLeaf (qOf ix), level := levelOf (qOf ix), plane := planeOf ix, twin := twin,
            ctrl := ix / 4 % 2 == 1, count := count } []

/-- The fault event of a datapath link. -/
def State.linkEvent (s : State) (key kind count : Nat) : State :=
  s.fault { kind := kind, wh := keyWhere key, level := keyLevel key, plane := key % 4,
            down := key / 4 % 2 == 1, count := count } []

/-- A pair out at start-up. A control-path pair takes every leaf below it with it, the kiln's own stops admission (R400). -/
def State.pairLostAtStart (s : State) (ix : Nat) : State :=
  if ix / 4 % 2 = 1 then
    let t := (s.modStat ix (fun n => { n.pairLost 0x09 with testFailed := true, reported := true })).nodeEvent ix 0x09 3 0
    let t := if qOf ix = 0 then t.modKiln (fun k => { k with admitStopped := true }) else t
    (leavesOf (qOf ix)).foldl State.leafLostAtStart t
  else (s.modStat ix (fun n => { n.pairLost 0x07 with testFailed := true, reported := true })).nodeEvent ix 0x07 3 0

/-- One part that the start-up self-test found failed (R565). -/
def State.partLostAtStart (s : State) (p : Part) : State :=
  match p with
  | .twin ix t =>
    let n := s.stat ix
    if n.pairOut then s
    else if (match t with | .a => n.bOut | .b => n.aOut) then s.pairLostAtStart ix
    else (s.modStat ix (fun n => { n.twinOut t 0x05 with testFailed := true })).nodeEvent ix
      (if ix / 4 % 2 = 1 then 0x08 else 0x05) (twinCode t) 0
  | .pair ix => if (s.stat ix).pairOut then s else s.pairLostAtStart ix
  | .ctrlLink ix => if (s.stat ix).pairOut then s else s.pairLostAtStart ix
  | .link key =>
    if (s.link key).failed then s
    else
      let kind := if isBridge key then 3 else 2
      ((s.failLink key kind).modLink key (fun x => { x with reported := true })).linkEvent key kind 0
  | .leaf l => s.leafLostAtStart l
  | .dieSlice d =>
    let ixs := (dieQ d :: (List.range 16).map (clusterQ d)).flatMap (fun q =>
      (nodeIx q true 0 :: (List.range 4).map (nodeIx q false)))
    let t := ixs.foldl (fun a ix => if (a.stat ix).pairOut then a else a.pairLostAtStart ix) (s.modDie d (fun x => { x with dead := true }))
    (upFrom (256 * d) 256).foldl State.leafLostAtStart t

/-! ### Firmware images (Table 13.16, R455, R456) -/

/-- Bytes of a bank. -/
def bankSize : Nat := 0x80000
/-- Bytes of the controller's RAM. -/
def ramSize : Nat := 0x80000

/-- Whether an image's header has the form of Table 13.16 and its body fits the RAM. -/
def imageForm (img : List Byte) : Bool :=
  let len := numAt img 12 4
  numAt img 0 4 == 0x5A0ED4A2 && numAt img 4 2 == 1 && decide (1 ≤ len) && decide (len ≤ 491520)
    && decide (numAt img 16 4 + len ≤ ramSize) && ((img.drop 168).take 88).all (· == 0)

/-- Whether the body's hash and the header's signature hold. -/
def imageSigned (img : List Byte) : Bool :=
  let body := bytesAt img 256 (numAt img 12 4)
  bytesAt img 24 48 == sha384 body
    && Config.signatureValid (sha384 (bytesAt img 0 72)) (bytesAt img 72 48) (bytesAt img 120 48)

/-- R456. -/
def imageValid (img : List Byte) : Bool := imageForm img && imageSigned img

/-- A bank whose image no longer runs: the image it holds has passed its checks. -/
def Bank.demoted (b : Bank) : Bank := if b.st == .active then { b with st := .verified } else b

/-- The bank A or B of a controller. -/
def Controller.bank (c : Controller) (b : Bool) : Bank := if b then c.bankB else c.bankA
/-- Changes a bank. -/
def Controller.modBank (c : Controller) (b : Bool) (f : Bank → Bank) : Controller :=
  if b then { c with bankB := f c.bankB } else { c with bankA := f c.bankA }

/-- The image a bank holds, as its header gives its length. -/
def Bank.image (b : Bank) : List Byte := tgetRun 0 b.bytes 0 (min bankSize (256 + ofLe (tgetRun 0 b.bytes 12 4)))

/-- A bank with the version of the image it holds and a state; its bytes stay (R457). -/
def Bank.named (b : Bank) (st : BankState) : Bank :=
  let head := tgetRun 0 b.bytes 0 12
  { b with st := st, major := head.getD 6 0, minor := head.getD 7 0, patch := BitVec.ofNat 16 (numAt head 8 2),
           secVer := BitVec.ofNat 16 (numAt head 10 2) }

/-- The image of a bank starts: its version is that of the running firmware, it sets its stack limits, and the watchdog runs from now
(R461, R464). -/
def Controller.runs (c : Controller) (b : Bank) (now : Quad) : Controller :=
  let limits := Config.stackLimits b.major b.minor b.patch
  { c with runMajor := b.major, runMinor := b.minor, runPatch := b.patch, stackHigh := limits.1, stackLow := limits.2, wdFrom := now }

/-- The controller enters safe mode: MC_FAULT stays as it is raised, a CONTROLLER record of kind 5 is written (R466,
R518). -/
def State.safeMode (s : State) (cause : Nat) : State :=
  (s.modCtlr (fun c => { c with phase := .safe, onEmergency := false })).controllerEvent 5 cause

/-- The controller serves: the 100 ms of a new image begin (R459), mc_ready is set on every port, CX_MC_FAULT falls, a CONTROLLER record of the kind is written
(R462, R518, R562). -/
def State.serves (s : State) (kind cause : Nat) : State :=
  let t := s.modCtlr (fun c => { c with
    phase := .serving, mcFault := false, onEmergency := false, confirm := c.confirm.map (fun e => (e.1, s.time)) })
  ((List.range 18).foldl (fun a p => a.modPort p (fun x => { x with intStatus := setBit x.intStatus mbMcReady })) t).controllerEvent
    kind cause

/-! ### Start-up phases -/

/-- Whether every built die slice that answers has completed its first pass (Table 17.1, step 7). -/
def State.passesDone (s : State) : Bool := (List.range s.n).all (fun d => (s.die d).passed || (s.die d).dead)

/-- The phase after the self-test: the first passes, or the first commit when they have ended. -/
def State.afterSelfTest (s : State) : State :=
  s.modCtlr (fun c => { c with selfTested := true, phase := if s.passesDone then .firstCommit else .firstPass })

/-- The controller is out of block reset. -/
def State.awake (s : State) : Bool := s.ctl.phase != .inReset

/-- A leaf port that can be reached: the block is out of reset, and the index names a leaf (R28). -/
def State.leafLive (s : State) (l : Nat) : Bool := s.awake && s.leafExists l

end Sys2Proof.Machine
end

