-- ==== Sys2Proof/Machine/Records.lean ====
section
/-! DEFINITION. Completion records and their queue (R236, R237, R264 to R269, R288, R310). -/

namespace Sys2Proof.Machine
open Sys2Proof

/-- What a taken firing's member is in its group (R208). -/
def Taken.who (t : Taken) : Who := { rank := t.rank, m := t.m, idx := t.idx, ragged := t.ragged }

/-- The descriptor of a taken firing. -/
def Taken.desc (t : Taken) : Desc := descOf t.words

/-- Whether the firing follows PAD or COUNT rules (R238). -/
def Taken.pad (t : Taken) : Bool := padRules t.desc t.ragged

/-- The descriptor with the count that a ragged-tail probe measured: nothing beyond it is read (R244). -/
def Taken.measured (t : Taken) : Desc :=
  match t.probe with
  | some n => { t.desc with count := n }
  | none => t.desc

/-- The areas of a taken firing or pass, each with the index of its first chunk (R270). -/
def Taken.areas (t : Taken) (c : Nat) : List (Nat × Range) :=
  numberChunks c 0 (if t.phase == .pass then passRanges t.words else rangesOf t.measured t.segs t.who)

/-- The area a chunk is of, with the index of the area's first chunk. -/
def Taken.areaOf (t : Taken) (c ix : Nat) : Option (Nat × Range) :=
  (t.areas c).find? (fun e => decide (e.1 ≤ ix) && decide (ix < e.1 + chunksIn c e.2))

/-- Addresses of a chunk: its first, and its length. -/
def chunkSpan (c ix first : Nat) (r : Range) : Nat × Nat :=
  let lo := (ix - first) * c
  (r.addr + lo, min c (r.len - lo))

/-- Whether an area holds the segment status entries (R236, R270). -/
def Range.isStatus (r : Range) : Bool := r.code == 0x49

/-- The segment that holds a chunk; none for a chunk of the status entries. -/
def Taken.segOf (t : Taken) (c ix : Nat) : Option Nat :=
  match t.areaOf c ix with
  | some (_, r) => if r.isStatus then none else some r.seg
  | none => none

/-- Whether a chunk of the segment status entries could not be written (R283). -/
def Taken.statusBad (t : Taken) (c : Nat) : Bool := t.badAt.any (fun ix => (t.areaOf c ix).any (fun e => e.2.isStatus))

/-- The status that the leaf port gives when the kiln's is OK (R268). -/
def Taken.leafStatus (t : Taken) : BitVec 8 :=
  if !t.badAt.isEmpty then stFault else if !t.poisAt.isEmpty then stPoison else if t.partDrop != 0 then stRange else stOk

/-- The statuses of the segments (R237). -/
def Taken.segStatus (t : Taken) (c : Nat) (e : EndMsg) : List (BitVec 8) :=
  (List.range t.desc.segCount).map (fun i =>
    let k := e.segs.getD i e.status
    if k != stOk then k
    else if t.badAt.any (fun x => t.segOf c x == some i) then stFault
    else if t.poisAt.any (fun x => t.segOf c x == some i) then stPoison
    else stOk)

/-- The status of a firing's record (R237, R268). -/
def Taken.status (t : Taken) (c : Nat) (e : EndMsg) : BitVec 8 :=
  if t.desc.segCount = 0 then (if e.status != stOk then e.status else t.leafStatus)
  else ((t.segStatus c e).find? (· != stOk)).getD (if t.statusBad c then stFault else stOk)

/-- Table 8.10. -/
def detailWord (rank code n chunk : Nat) : Nat := at' (rank % 2 ^ 16) 48 + at' (code % 256) 40 + at' (min n 255) 32 + chunk % 2 ^ 32

/-- Whether the status was the kiln's own RANGE (R267). -/
def kilnRange (e : EndMsg) : Bool := e.status == stRange || e.segs.contains stRange

/-- Chunks of this leaf found faulted or poisoned, rising. -/
def Taken.chunksNamed (t : Taken) : List Nat := sortRise (t.badAt ++ t.poisAt)

/-- detail and digest_or_detail of a firing's record (R267). A FAULT or POISON of the leaf's own finding names no rank. -/
def Taken.detail (t : Taken) (st : BitVec 8) (e : EndMsg) : Bool × Nat :=
  if st == stOverflow then (false, 0)
  else if st == stOk || (st == stRange && kilnRange e) then (false, e.digest.toNat)
  else if e.status != stOk then
    (true, detailWord e.rank.toNat e.code.toNat t.chunksNamed.length (t.chunksNamed.headD 0))
  else if st == stRange then (true, detailWord 0xFFFF 0 0 0)
  else
    let code := match st == stFault, t.badFirst with
      | true, some (_, cl) => cl.toNat
      | _, _ => 0
    (true, detailWord 0xFFFF code t.chunksNamed.length (t.chunksNamed.headD 0))

/-- drop_count (R169, R200, R239, R310). -/
def Taken.drops (t : Taken) (e : EndMsg) : Nat :=
  if e.drop != 0 then e.drop.toNat
  else if t.partDrop != 0 then t.partDrop
  else if t.pad then t.probe.getD t.desc.count - t.desc.capacity else 0

/-- A completion record (Table 8.9). -/
structure Record where
  info   : Nat
  ts     : Nat
  drop   : Nat
  phase  : Bool
  detail : Bool
  bisque : Bool
  noGrant : Bool
  slot   : Nat
  seqLo  : Nat
  scale  : Nat
  status : BitVec 8
  fn     : Nat

/-- The 32 bytes of a record. -/
def Record.bytes (r : Record) : List Byte :=
  leBytes 32 (at' (r.info % 2 ^ 64) 192 + at' (r.ts % 2 ^ 64) 128 + at' (r.drop % 2 ^ 32) 96 + at' (b2n r.phase) 95
    + at' (b2n r.detail) 94 + at' (b2n r.bisque) 93 + at' (b2n r.noGrant) 92 + at' (r.slot % 256) 80
    + at' (r.seqLo % 2 ^ 16) 64 + at' (r.scale % 256) 56 + at' r.status.toNat 48 + r.fn % 2 ^ 48)

/-- The ring slot of a descriptor (R255). -/
def LeafPort.slotOf (p : LeafPort) (t : Taken) : Nat := t.cnt.toNat % p.e

/-- phase of the record that goes in next (R266). -/
def LeafPort.phase (p : LeafPort) : Bool := decide (p.cqTail.toNat / p.e % 2 = 0)

/-- Completion records written and not yet consumed. -/
def LeafPort.unconsumed (p : LeafPort) : Nat := (p.cqTail - p.cqHead).toNat

/-- The record of a taken descriptor that has ended; none while it has not. -/
def LeafPort.record (p : LeafPort) (t : Taken) : Option Record :=
  let slot := p.slotOf t
  if t.phase == .pass then
    t.passEnd.map (fun x =>
      let io := x.1 == stFault && decide (1 ≤ x.2.1.toNat) && decide (x.2.1.toNat ≤ 3)
      { info := if x.1 == stOk then 0
          else detailWord (if x.2.1 == clLeafFailed then p.rank.toNat else 0xFFFF) x.2.1.toNat (b2n io) (if io then x.2.2 else 0),
        ts := 0, drop := 0, phase := p.phase, detail := x.1 != stOk, bisque := true, noGrant := false, slot := slot,
        seqLo := 0, scale := 0, status := x.1, fn := 0 })
  else
    t.ended.map (fun e =>
      let st := t.status p.chunk e
      let d := t.detail st e
      { info := d.2, ts := if e.noGrant || t.phase != .running then e.ts.toNat else t.ts.toNat, drop := t.drops e,
        phase := p.phase, detail := d.1, bisque := false, noGrant := e.noGrant, slot := slot, seqLo := e.seq.toNat,
        scale := e.scale.toNat, status := st, fn := e.fn.toNat })

/-- Whether the record of a taken descriptor may be written now (R269, R310): it has ended, every result write is
complete, and every earlier firing of its group at this leaf has its record. -/
def LeafPort.recordDue (p : LeafPort) (t : Taken) : Bool :=
  (p.record t).isSome && t.writes.isEmpty
    && (t.phase == .pass || (p.taken.takeWhile (fun x => x.cnt != t.cnt)).all (fun x =>
          x.phase == .pass || x.desc.group != t.desc.group))

/-- LP_RING_HEAD passes every retired slot in ring order (R264). -/
def retireFrom : Nat → BitVec 16 → List (BitVec 16) → BitVec 16 × List (BitVec 16)
  | 0, h, r => (h, r)
  | fuel + 1, h, r => if r.contains h then retireFrom fuel (h + 1) (r.filter (· != h)) else (h, r)

/-- The bisque accumulators whose tag is a descriptor's lose it; a firing that completes with OK and has bisque_clear empties
those it names (R175, R181). -/
def LeafPort.untag (p : LeafPort) (t : Taken) (st : BitVec 8) : LeafPort :=
  let b := t.tags.foldl (fun b i => tmod {} b i (fun a => { a with tags := a.tags.filter (· != t.cnt) })) p.bisque
  let clear := t.phase != .pass && st == stOk && t.desc.bisqueClear
  { p with bisque := if clear then t.desc.bisques.foldl (fun b i => tmod {} b i (fun a => { a with st := .empty, val := {} })) b else b }

/-- Whether segment status entries can be written where a descriptor places them: aligned, at most 64, and off the push buffer
(R233, R236, R273). An invalid descriptor may place them so that they cannot (assumption log 38). -/
def Taken.statusPlaced (t : Taken) : Bool :=
  t.desc.segStatus % 4 == 0 && decide (t.desc.segCount ≤ 64) && decide (t.desc.segStatus + 4 * t.desc.segCount ≤ pushBase)

/-- The segment status entries and the count write-back that precede a record (R236, R244, R269). -/
def LeafPort.beforeRecord (p : LeafPort) (t : Taken) : LeafPort :=
  let p := match t.ended with
    | some e =>
      if t.phase != .pass && t.desc.segCount != 0 && t.statusPlaced then
        p.store t.desc.segStatus ((t.segStatus p.chunk e).map (fun x => leBytes 4 x.toNat)).flatten
      else p
    | none => p
  match t.probe with
  | some n => p.store (p.ringBase.toNat + 128 * p.slotOf t + 16) (leBytes 4 n)
  | none => p

/-- Writes a record, advances LP_CQ_TAIL, retires the slot, clears the tags and sets the interrupt causes (R264, R265, R269,
R288). -/
def LeafPort.writeRecord (p : LeafPort) (t : Taken) (r : Record) : LeafPort :=
  let q := (p.beforeRecord t).store (p.cqBase.toNat + 32 * (p.cqTail.toNat % p.e)) r.bytes
  let h := retireFrom 256 p.ringHead (p.retired ++ [t.cnt])
  let q := ({ q with cqTail := q.cqTail + 1, cqFull := false, taken := q.taken.filter (fun x => x.cnt != t.cnt),
                     ringHead := h.1, retired := h.2 }).untag t r.status
  let q := if q.cqThresh.toNat + 1 ≤ q.unconsumed then q.raise ibCq else q
  if r.status != stOk then q.raise ibErrRecord else q

/-- A descriptor taken into a slot. -/
def LeafPort.inSlot (p : LeafPort) (slot : Nat) : Option Taken := p.taken.find? (fun t => p.slotOf t == slot)

/-- Changes a taken descriptor. -/
def LeafPort.modTaken (p : LeafPort) (cnt : BitVec 16) (f : Taken → Taken) : LeafPort :=
  { p with taken := modFirst (fun t => t.cnt == cnt) f p.taken }

/-- A leaf port that stops itself (R283): the fault is logged with the firing number it concerns, enable clears, it fails and ends what
it has taken (R401, R402). -/
def LeafPort.stop (p : LeafPort) (cls : BitVec 8) (slot addr fn : Nat) (ts : Quad) : LeafPort :=
  ((p.log cls slot addr 0 fn).fail).endAll ts

/-- A chunk found faulted: named once (Table 8.10), logged, counted, its interrupt cause set (R282, R283, R285). -/
def LeafPort.chunkFault (p : LeafPort) (t : Taken) (cls : BitVec 8) (addr ix : Nat) : LeafPort :=
  let q := p.modTaken t.cnt (fun x => { x with
    badAt := addOnce x.badAt ix, badCount := x.badCount + 1,
    badFirst := match x.badFirst with
      | some (i, c) => if ix < i then some (ix, cls) else some (i, c)
      | none => some (ix, cls) })
  ({ q with chunkFaults := satInc q.chunkFaults }.log cls (p.slotOf t) addr ix t.fn.toNat).raise ibChunkFault

/-- Bytes that a failed write leaves: nothing is known of them (R283). -/
def openBytes (tick n : Nat) : List Byte := (List.range n).map (Config.openByte tick)

/-- A record that cannot be written stops the leaf port (R283); its descriptor is counted once among those not written (R402). -/
def LeafPort.recordFails (p : LeafPort) (t : Taken) (ts : Quad) : LeafPort :=
  ({ p.stop clCqWrite (p.slotOf t) (p.cqBase.toNat + 32 * (p.cqTail.toNat % p.e)) t.fn.toNat ts with
     unwritten := p.unwritten + b2n (!t.recLost) }).modTaken t.cnt (fun x => { x with recLost := true })

end Sys2Proof.Machine
end

