-- ==== Sys2Proof/Machine/LeafRegs.lean ====
section
/-! DEFINITION. The leaf port's registers: enabling, disabling and resetting, the ring and the queue, interrupts, pushes and
tile drains (R245, R246, R249 to R258, R273 to R277, R286, R290, R291). -/

namespace Sys2Proof.Machine
open Sys2Proof

/-! ### LP_CTRL and the ring registers -/

/-- Whether the ring and the queue are laid out as R254 wants: no byte of either lies at or above the push window's base. -/
def LeafPort.ringOk (p : LeafPort) : Bool :=
  decide (4 ≤ p.ringLog2.toNat) && decide (p.ringLog2.toNat ≤ 8) && p.ringBase.toNat % (128 * p.e) == 0
    && p.cqBase.toNat % (32 * p.e) == 0 && decide (p.ringBase.toNat + 128 * p.e ≤ pushBase)
    && decide (p.cqBase.toNat + 32 * p.e ≤ pushBase)

/-- A write that the leaf port refuses (R252). -/
def LeafPort.refuse (p : LeafPort) : LeafPort := { p with configErr := true }

/-- An LP_CTRL write that does not start a reset (R252, R290). A failed leaf port refuses to be enabled (R402). -/
def LeafPort.ctrlWrite (p : LeafPort) (v : Word) : LeafPort :=
  let cl := BitVec.ofNat 4 (slice v.toNat 8 4)
  let th := BitVec.ofNat 4 (slice v.toNat 12 4)
  let en := bitOf v.toNat 0
  if p.enable && cl != p.chunkLog2 then p.refuse
  else if en && !p.enable then
    if decide (8 ≤ cl.toNat) && decide (cl.toNat ≤ 12) && p.ringOk && p.outstanding == 0 && !p.failed then
      { p with enable := true, chunkLog2 := cl, cqThresh := th, configErr := false, ringHead := 0, ringTail := 0, cqTail := 0,
               cqHead := 0, flogCount := 0, cqFull := false, next := 0, held := [], retired := [] }
    else p.refuse
  else { p with enable := en, chunkLog2 := cl, cqThresh := th, configErr := false }

/-- A write of LP_RING_CFG, LP_RING_BASE or LP_CQ_BASE (R254). -/
def LeafPort.ringWrite (p : LeafPort) (f : LeafPort → LeafPort) : LeafPort :=
  if p.enable || p.outstanding != 0 then p.refuse else { f p with configErr := false }

/-- The node index of the cluster node on a leaf's control path. -/
def leafCtl (l : Nat) : Nat := nodeIx (leafQ l) true 0

/-- A leaf port sends an ARM into its cluster node's input; a failed leaf port sends none. -/
def State.sendUp (s : State) (l : Nat) (a : Arm) : State :=
  if (s.leaf l).failed then s else s.modCtl (leafCtl l) (fun n => { n with inq := n.inq ++ [(inputOf (leafQ l) l, a)] })

/-- The ARM with abort set that a resetting leaf port sends for a firing it has not armed (R318). -/
def abortArm (l : Nat) (t : Taken) : Arm :=
  { group := t.desc.group, abort := true, last := BitVec.ofNat 16 l, refIx := BitVec.ofNat 16 l, who := [(l, 0)] }

/-- The ARM with reset set (R318). -/
def resetArm (l : Nat) : Arm :=
  { reset := true, last := BitVec.ofNat 16 l, refIx := BitVec.ofNat 16 l, who := [(l, 0)] }

/-- Passes taken and not begun leave with a reset; the one that runs stays (R291, assumption log 18). -/
def keepFirstPass : Bool → List Taken → List Taken
  | _, [] => []
  | seen, t :: ts =>
    if t.phase == .pass && t.passEnd.isNone then (if seen then keepFirstPass true ts else t :: keepFirstPass true ts)
    else t :: keepFirstPass seen ts

/-- A write of 1 to LP_CTRL.reset (R291, R318). -/
def State.leafReset (s : State) (l : Nat) : State :=
  let p := s.leaf l
  if p.resetBusy then s
  else
    let unarmed := p.taken.filter (fun t => t.phase == .taken && t.ended.isNone)
    let q := { p with resetBusy := true, enable := false, held := [],
                      taken := (keepFirstPass false p.taken).map (fun t => if t.phase == .taken then { t with phase := .waiting } else t) }
    let t := unarmed.foldl (fun a x => a.sendUp l (abortArm l x)) (s.setLeaf l q)
    t.sendUp l (resetArm l)

/-- Any write of LP_CTRL. One with reset 1 starts the reset, whatever its other fields: also where it would change chunk_log2 while
enable is 1 (DEDUCED, assumption log 93). -/
def State.lpCtrlWrite (s : State) (l : Nat) (v : Word) : State :=
  if bitOf v.toNat 1 then s.leafReset l else s.modLeaf l (fun p => p.ctrlWrite v)

/-- LP_ENABLE: a write with enable 1 and reset 0. -/
def execLpEnable (leaf : Nat) (v : Word) (s : State) : Host.Outcome State Fault Refusal :=
  if s.leafLive leaf && bitOf v.toNat 0 && !bitOf v.toNat 1 then .next (s.lpCtrlWrite leaf v) else .next s

/-- LP_DISABLE: a write with enable 0 and reset 0. -/
def execLpDisable (leaf : Nat) (v : Word) (s : State) : Host.Outcome State Fault Refusal :=
  if s.leafLive leaf && !bitOf v.toNat 0 && !bitOf v.toNat 1 then .next (s.lpCtrlWrite leaf v) else .next s

/-- LP_RESET: a write with reset 1. -/
def execLpReset (leaf : Nat) (v : Word) (s : State) : Host.Outcome State Fault Refusal :=
  if s.leafLive leaf && bitOf v.toNat 1 then .next (s.lpCtrlWrite leaf v) else .next s

/-- A taken descriptor leaves without a record. -/
def LeafPort.dropTaken (p : LeafPort) (cnt : BitVec 16) : LeafPort := { p with taken := p.taken.filter (fun x => x.cnt != cnt) }

/-- One descriptor at a reset's end: its record is written if the queue has room (R291 step 3). -/
def LeafPort.flushOne (p : LeafPort) (t : Taken) : LeafPort :=
  match p.record t with
  | some r => if p.unconsumed < p.e then p.writeRecord t r else p.dropTaken t.cnt
  | none => p.dropTaken t.cnt

/-- Steps 4 to 6 of R291: accumulators NEVER_WRITTEN, push buffer zero, every register but LP_IDENT at its reset value,
reset_done set. What the block keeps about the leaf beside its registers stays. -/
def LeafPort.afterReset (p : LeafPort) : LeafPort :=
  { rank := p.rank, failed := p.failed, failReported := p.failReported, failCounted := p.failCounted, unwritten := p.unwritten,
    ctlA := p.ctlA, ctlB := p.ctlB, inbox := p.inbox, trim0 := p.trim0, trim1 := p.trim1, base := p.base, clamped := p.clamped,
    delay := p.delay, poisonFlits := p.poisonFlits, sramCorr := p.sramCorr, sramUncorr := p.sramUncorr, armLast := p.armLast,
    lagSum := p.lagSum, lagMax := p.lagMax, missing := p.missing, scratch := p.scratch,
    intStatus := setBit 0 ibResetDone }

/-- Whether everything a resetting leaf port has taken has ended. -/
def LeafPort.allEnded (p : LeafPort) : Bool :=
  p.taken.all (fun t => if t.phase == .pass then t.passEnd.isSome else t.ended.isSome)

/-- A write of LP_DOORBELL (R255, R256). A write of the current tail is judged by the two conditions like any other: it sets db_err
only where tail − head exceeds E (DEDUCED, assumption log 93). -/
def LeafPort.doorbell (p : LeafPort) (v : Word) : LeafPort :=
  let t : BitVec 16 := v.setWidth 16
  if (t - p.ringHead).toNat ≤ p.e ∧ (t - p.ringTail).toNat ≤ p.e then { p with ringTail := t } else p.raise ibDbErr

/-- LP_DOORBELL. -/
def execLpDoorbell (leaf : Nat) (v : Word) (s : State) : Host.Outcome State Fault Refusal :=
  if s.leafLive leaf then .next (s.modLeaf leaf (fun p => p.doorbell v)) else .next s

/-- A write of LP_CQ_HEAD (R257); a freed entry ends cq_full (R269). -/
def LeafPort.cqHeadWrite (p : LeafPort) (v : Word) : LeafPort :=
  let k : BitVec 16 := v.setWidth 16
  if (k - p.cqHead).toNat ≤ (p.cqTail - p.cqHead).toNat then
    { p with cqHead := k, cqFull := p.cqFull && decide (p.e ≤ (p.cqTail - k).toNat) }
  else p.raise ibCqHeadErr

/-- LP_CQ_HEAD_WRITE. -/
def execLpCqHeadWrite (leaf : Nat) (v : Word) (s : State) : Host.Outcome State Fault Refusal :=
  if s.leafLive leaf then .next (s.modLeaf leaf (fun p => p.cqHeadWrite v)) else .next s

/-- LP_INT_STATUS_CLEAR (R16, R286). -/
def execLpIntStatusClear (leaf : Nat) (v : Word) (s : State) : Host.Outcome State Fault Refusal :=
  if s.leafLive leaf then .next (s.modLeaf leaf (fun p => { p with intStatus := w1c p.intStatus v })) else .next s

/-! ### Pushes (R273 to R275) -/

/-- Whether a line of the push buffer lies in a source area of a taken descriptor (R275). -/
def LeafPort.lineLocked (p : LeafPort) (line : Nat) : Bool :=
  p.taken.any (fun t => (t.areas p.chunk).any (fun e =>
    e.2.input && decide (0 < e.2.len) && decide (e.2.addr < pushBase + 16 * line + 16)
      && decide (pushBase + 16 * line < e.2.addr + e.2.len)))

/-- A refused push (Table 8.11). -/
def LeafPort.pushRefused (p : LeafPort) (cause off : Nat) : LeafPort :=
  { p with pushFault := BitVec.ofNat 32 (at' cause 28 + off % 4096), pushFaults := satInc p.pushFaults }.raise ibPushFault

/-- A store to the push window: whole or nothing. During a reset every push is refused with cause 3 (R291); otherwise width and
alignment are judged first, then whether the leaf port runs, then the line's lock. -/
def LeafPort.push (p : LeafPort) (off : Nat) (wide : Bool) (data : BitVec 128) : LeafPort :=
  if p.resetBusy then p.pushRefused 3 off
  else if !wide || off % 16 != 0 then p.pushRefused 2 off
  else if !p.running then p.pushRefused 3 off
  else if p.lineLocked (off / 16) then p.pushRefused 1 off
  else { p with pushBuf := tsetRun 0 p.pushBuf off (leBytes 16 data.toNat) }

/-- LP_PUSH. -/
def execLpPush (leaf off : Nat) (wide : Bool) (data : BitVec 128) (s : State) : Host.Outcome State Fault Refusal :=
  if s.leafLive leaf && decide (off < 4096) then .next (s.modLeaf leaf (fun p => p.push off wide data)) else .next s

/-! ### Tile drains (R245, R246, R276, R277) -/

/-- Elements of a member's streamed contribution. -/
def streamElems (d : Desc) : Nat := if d.kind == 8 then d.count * d.vecLen else d.count

/-- Tiles implied by count (R245). -/
def tilesOf (d : Desc) : Nat := ceilDiv (streamElems d) 1024

/-- A refused drain (Table 8.15). -/
def LeafPort.drainRefused (p : LeafPort) (cause slot : Nat) : LeafPort :=
  { p with drainRefuse := BitVec.ofNat 32 (at' cause 28 + slot % 256), drainsRefused := satInc p.drainsRefused }.raise ibDrainRefused

/-- Writes bytes where addresses at and above the push window's base name the push buffer (R273). -/
def LeafPort.storeOrPush (p : LeafPort) (a : Nat) (bs : List Byte) : LeafPort :=
  let below := min bs.length (pushBase - a)
  let q := p.store a (bs.take below)
  { q with pushBuf := tsetRun 0 q.pushBuf (a + below - pushBase) (bs.drop below) }

/-- A drain, judged in the order of R277. -/
def LeafPort.drain (p : LeafPort) (slot fmt : Nat) (data : List Byte) : LeafPort :=
  if p.resetBusy then p.drainRefused 4 slot
  else match p.inSlot slot with
  | none => p.drainRefused 1 slot
  | some t =>
    let d := t.desc
    if t.phase == .pass || !d.stream then p.drainRefused 1 slot
    else if fmt != d.inF || !drainFmt fmt then p.drainRefused 2 slot
    else if tilesOf d ≤ t.tilesIn then p.drainRefused 3 slot
    else if t.ended.isSome then p.drainRefused 4 slot
    else
      let n := min 1024 (streamElems d - 1024 * t.tilesIn)
      (p.storeOrPush (d.src + 1024 * t.tilesIn * d.b) (bytesAt data 0 (n * d.b))).modTaken t.cnt
        (fun x => { x with tilesIn := x.tilesIn + 1 })

/-- TILE_DRAIN. -/
def execTileDrain (leaf slot fmt : Nat) (data : List Byte) (s : State) : Host.Outcome State Fault Refusal :=
  if s.leafLive leaf then .next (s.modLeaf leaf (fun p => p.drain slot fmt data)) else .next s

/-- TILE_LANDED: the write of an accepted tile is complete. -/
def execTileLanded (leaf slot tile : Nat) (s : State) : Host.Outcome State Fault Refusal :=
  match (s.leaf leaf).inSlot slot with
  | none => .next s
  | some t =>
    if tile < t.tilesIn then
      .next (s.modLeaf leaf (fun p => p.modTaken t.cnt (fun x => { x with landed := insertRise tile x.landed })))
    else .next s

/-! ### Other register writes (R15, R249, R250) -/

/-- A 32-bit store to the register block; any other width or alignment is ignored, but in the push window it is a refused
push (R249, Table 8.11). -/
def State.lpWrite (s : State) (l off : Nat) (narrow : Bool) (v : Word) : State :=
  if 0x1000 ≤ off && off < 0x2000 then s.modLeaf l (fun p => p.push (off - 0x1000) false 0)
  else if !narrow || off % 4 != 0 then s
  else match off with
  | 0x04 => s.lpCtrlWrite l v
  | 0x0C => s.modLeaf l (fun p => p.ringWrite (fun q => { q with ringLog2 := v.setWidth 4 }))
  | 0x10 => s.modLeaf l (fun p => p.ringWrite (fun q => { q with ringBase := v &&& 0xFFFFFFE0 }))
  | 0x14 => s.modLeaf l (fun p => p.ringWrite (fun q => { q with cqBase := v &&& 0xFFFFFFE0 }))
  | 0x18 => s.modLeaf l (fun p => p.doorbell v)
  | 0x28 => s.modLeaf l (fun p => p.cqHeadWrite v)
  | 0x2C => s.modLeaf l (fun p => { p with intStatus := w1c p.intStatus v })
  | 0x30 => s.modLeaf l (fun p => { p with intEnable := v &&& 0x1FF })
  | _ => s

end Sys2Proof.Machine
end

