-- ==== Sys2Proof/Machine/Taking.lean ====
section
/-! DEFINITION. Taking descriptors, arming, bisque passes and the chunk transfers (R171 to R176, R181, R244, R261 to R263,
R270 to R273, R282, R283, R343). -/

namespace Sys2Proof.Machine
open Sys2Proof

/-! ### Taking (R262, R263) -/

/-- A descriptor read from the ring and not yet taken. -/
abbrev HeldDesc := BitVec 16 × BitVec 1024 × List (BitVec 256)

/-- Whether the words are a bisque pass (Table 7.1). -/
def isPass (words : BitVec 1024) : Bool := slice words.toNat 0 8 == 0x10

/-- How the ring's order bears on a descriptor: it may be taken, it is held by the limit of its group, or it holds every
later one (R181, R220, R262). -/
inductive TakeRule where
  | free | group | stop
deriving DecidableEq, Repr

/-- Whether one ring count lies before another; a ring holds at most 256, so the two are close (R255). -/
def ringBefore (a b : BitVec 16) : Bool := a != b && decide ((b - a).toNat < 2 ^ 15)

/-- The rule for a descriptor, given those still untaken ahead of it. An unfinished earlier pass on an accumulator it names holds it
and every later one, whatever else would hold it (R181). -/
def LeafPort.takeRule (p : LeafPort) (ahead : List HeldDesc) (cnt : BitVec 16) (words : BitVec 1024) : TakeRule :=
  if isPass words then .free
  else
    let d := descOf words
    if p.taken.any (fun t => t.phase == .pass && ringBefore t.cnt cnt && d.bisques.contains (passIdx t.words)) then .stop
    else if d.kind == 4 && !ahead.isEmpty then .stop
    else if decide (16 ≤ p.groupCount d.group) || ahead.any (fun h => !isPass h.2.1 && (descOf h.2.1).group == d.group) then .group
    else .free

/-- The first held descriptor that may be taken, looking no further than one that holds all later ones. -/
def LeafPort.firstFree (p : LeafPort) : List HeldDesc → List HeldDesc → Option HeldDesc
  | _, [] => none
  | ahead, h :: hs => match p.takeRule ahead h.1 h.2.1 with
    | .free => some h
    | .group => firstFree p (ahead ++ [h]) hs
    | .stop => none

/-- Whether some held descriptor holds every later one. -/
def LeafPort.ringHeld (p : LeafPort) : List HeldDesc → List HeldDesc → Bool
  | _, [] => false
  | ahead, h :: hs => match p.takeRule ahead h.1 h.2.1 with
    | .stop => true
    | _ => ringHeld p (ahead ++ [h]) hs

/-- Whether a firing holds a tag of an accumulator (R181); passes run one at a time and never refuse each other. -/
def LeafPort.tagHeld (p : LeafPort) (i : Nat) : Bool :=
  (tget {} p.bisque i).tags.any (fun c => p.taken.any (fun t => t.cnt == c && t.phase != .pass))

/-- A descriptor is taken and tags every accumulator it names, until its record is written (R181). -/
def LeafPort.addTaken (p : LeafPort) (t : Taken) : LeafPort :=
  { p with taken := p.taken ++ [t]
           bisque := t.tags.foldl (fun b i => tmod {} b i (fun a => { a with tags := a.tags ++ [t.cnt] })) p.bisque }

/-- A pass is taken: a malformed one or a refused one does not run (R173, R181, R261). -/
def LeafPort.takePass (p : LeafPort) (h : HeldDesc) : LeafPort :=
  let i := passIdx h.2.1
  p.addTaken { cnt := h.1, words := h.2.1, phase := .pass, tags := [i], passEnd := match passInvalid h.2.1 with
    | some c => some (stMismatch, BitVec.ofNat 8 c, 0)
    | none => if p.tagHeld i then some (stDenied, 0, 0) else none }

/-- A firing is taken: its fields are checked (R260), and it is refused where another descriptor's tag stands on an accumulator it
names (R181). -/
def LeafPort.takeFiring (p : LeafPort) (w : Who) (h : HeldDesc) : LeafPort :=
  let d := descOf h.2.1
  p.addTaken { cnt := h.1, words := h.2.1, segs := h.2.2, invalid := invalidCode h.2.1 h.2.2 w,
               denied := d.bisques.any (fun i => !(tget {} p.bisque i).tags.isEmpty),
               tags := d.bisques, rank := w.rank, m := w.m, idx := w.idx, ragged := w.ragged }

/-- Takes a descriptor. -/
def State.take (s : State) (l : Nat) (h : HeldDesc) : State :=
  s.modLeaf l (fun p => if isPass h.2.1 then p.takePass h else p.takeFiring (s.cfg.who (descOf h.2.1).group l) h)

/-- TAKE_DESCRIPTOR. `words` is what the slot read gave, none when it failed; `segs` is the segment table that the
descriptor names. A held descriptor that may now be taken goes first, and the slot is then not read. -/
def execTakeDescriptor (leaf : Nat) (words : Option (BitVec 1024)) (segs : List (BitVec 256)) (s : State) :
    Host.Outcome State Fault Refusal :=
  let p := s.leaf leaf
  if !p.running || p.failed then .next s
  else match p.firstFree [] p.held with
  | some h => .next ((s.setLeaf leaf { p with held := p.held.filter (fun x => x.1 != h.1) }).take leaf h)
  | none =>
    if p.next = p.ringTail || p.ringHeld [] p.held then .next s
    else match words with
    | none =>
      let slot := p.next.toNat % p.e
      .next (s.setLeaf leaf (p.stop clDescRead slot (p.ringBase.toNat + 128 * slot) 0 s.time))
    | some w =>
      let h : HeldDesc := (p.next, w, if isPass w then [] else segs.take (descOf w).segCount)
      let q := { p with next := p.next + 1 }
      if p.takeRule p.held p.next w = .free then .next ((s.setLeaf leaf q).take leaf h)
      else .next (s.setLeaf leaf { q with held := q.held ++ [h] })

/-! ### Chunks (R270 to R273, R282, R283) -/

/-- Bytes read at an address: the push buffer answers at and above its base (R273). -/
def LeafPort.sourceBytes (p : LeafPort) (a : Nat) (given : List Byte) (n : Nat) : List Byte :=
  let below := min n (pushBase - a)
  bytesAt given 0 below ++ tgetRun 0 p.pushBuf (a + below - pushBase) (n - below)

/-- Tiles that cover a chunk have landed; a contribution that is not streamed waits for none (R246, R271). -/
def Taken.tilesLanded (t : Taken) (r : Range) (addr n : Nat) : Bool :=
  !t.desc.stream || r.area != .src
    || (let tile := 1024 * t.desc.b
        (upFrom ((addr - r.addr) / tile) (ceilDiv (addr - r.addr + n) tile - (addr - r.addr) / tile)).all t.landed.contains)

/-- The kiln forms one fault event of kind 0x0C for a firing, at its first failed result chunk (R419). Table 12.8 gives this kind no
count; its status is the one that the kiln has given the firing, if it has. A number is kept while a leaf still runs the firing. -/
def State.writeFaultEvent (s : State) (l : Nat) (t : Taken) : State :=
  if s.kiln.writeFaults.contains t.fn then s
  else
    let live (x : BitVec 48) : Bool := s.leaves.any (fun e => e.2.taken.any (fun y => y.fn == x))
    let mine := s.kiln.firings.find? (fun f => f.fn == t.fn && f.group == t.desc.group)
    let sag := match mine with
      | some f => f.saggar
      | none => (s.cfg.groupSaggar t.desc.group).getD 0
    (s.modKiln (fun k => { k with writeFaults := t.fn :: k.writeFaults.filter live })).fault
      { kind := 0x0C, fn := t.fn.toNat, group := t.desc.group, saggar := sag, rank := t.rank, wh := l,
        status := match mine.bind (·.endMsg) with
          | some e => e.status.toNat
          | none => 0 } [sag]

/-- CHUNK_WRITE_DONE: the result bytes of a chunk that are on their way reach scratchpad, or the chunk is undefined (R283). -/
def execChunkWriteDone (leaf slot chunk : Nat) (ok : Bool) (s : State) : Host.Outcome State Fault Refusal :=
  let p := s.leaf leaf
  match p.inSlot slot with
  | none => .next s
  | some t => match t.areaOf p.chunk chunk with
    | none => .next s
    | some (first, rg) =>
      let (a, n) := chunkSpan p.chunk chunk first rg
      let mine := t.writes.filter (fun w => decide (a ≤ w.1) && decide (w.1 < a + n))
      if t.phase == .pass || rg.input || mine.isEmpty then .next s
      else
        let rest (q : LeafPort) : LeafPort := q.modTaken t.cnt (fun x =>
          { x with writes := x.writes.filter (fun w => !(decide (a ≤ w.1) && decide (w.1 < a + n))) })
        if t.badAt.contains chunk then .next (s.setLeaf leaf (rest p))
        else if ok then .next (s.setLeaf leaf (rest (p.storeAll mine)))
        else
          let q := (rest p).store a (openBytes s.tick n)
          .next (((s.setLeaf leaf (q.chunkFault t clWriteAddr a chunk)).tock).writeFaultEvent leaf t)

/-! ### The ragged tail (R244) -/

/-- RAG_TAIL_PROBE: `fault` is the first element of the contribution that faulted, and how (Table 8.14). A fault at element 0 is a read
fault of chunk 0; the count then stands. -/
def execRagTailProbe (leaf slot : Nat) (fault : Option (Nat × IoClass)) (s : State) : Host.Outcome State Fault Refusal :=
  let p := s.leaf leaf
  match p.inSlot slot with
  | none => .next s
  | some t =>
    let d := t.desc
    if t.phase != .taken || !d.ragTail || t.invalid.isSome || t.probe.isSome || t.ended.isSome then .next s
    else
      let q (n : Nat) : LeafPort := p.modTaken t.cnt (fun x => { x with probe := some n })
      match fault with
      | none => .next (s.setLeaf leaf (q d.count))
      | some (e, c) =>
        if d.count ≤ e then .next (s.setLeaf leaf (q d.count))
        else if 0 < e then .next (s.setLeaf leaf (q e))
        else .next (s.setLeaf leaf (((q d.count).chunkFault t (readClass c) d.src 0).modTaken t.cnt (fun x =>
          { x with probeBad := true, chunks := [{ area := .src, ix := 0, data := none }] })))

/-! ### Arming (R263, R298, R302, R303) -/

/-- The leaf form of an ARM (Table 9.2). -/
def armOf (l : Nat) (p : LeafPort) (t : Taken) : Arm :=
  let d := t.desc
  let me := BitVec.ofNat 16 l
  let nw := d.bisques.any (fun i => (tget {} p.bisque i).st == .neverWritten)
  let damaged := d.bisques.any (fun i => (tget {} p.bisque i).damaged)
  let vc := validCount d t.pad t.probe
  { checks := fieldChecks t.words t.segs t.pad, digest := descDigest t.words t.segs t.pad,
    valid := if t.ragged == 0 then 0 else BitVec.ofNat 32 vc, last := me, refIx := me,
    deniedIx := if t.denied then me else 0xFFFF, nwIx := if nw && !damaged then me else 0xFFFF,
    invalidIx := if t.invalid.isSome then me else 0xFFFF, group := d.group,
    invalidCode := BitVec.ofNat 8 (t.invalid.getD 0), denied := t.denied, nw := nw && !damaged, invalid := t.invalid.isSome,
    barrier := d.kind == 4, desc := t.words, segs := t.segs, who := [(l, vc)] }

/-- The first four chunks of an input of a firing, through its segments (R270, R271). -/
def Taken.firstFour (t : Taken) (c : Nat) (area : Area) : List Nat :=
  (((t.areas c).filter (fun e => e.2.input && e.2.area == area)).flatMap (fun e => upFrom e.1 (min 4 (chunksIn c e.2)))).take 4

/-- Whether the first chunks that paced operation wants staged before the ARM have been read (R343). -/
def Taken.stagedFor (t : Taken) (c : Nat) : Bool :=
  t.desc.stream || t.invalid.isSome
    || (t.firstFour c .src ++ t.firstFour c .src2).all (fun ix => t.chunks.any (fun x => x.ix == ix))

/-- SEND_ARM: the oldest firing taken and not armed arms once its probe is done, or completes at once while the leaf has no
rank (R263). -/
def execSendArm (leaf : Nat) (s : State) : Host.Outcome State Fault Refusal :=
  let p := s.leaf leaf
  if p.failed then .next s
  else match p.taken.find? (fun t => t.phase == .taken && t.ended.isNone) with
  | none => .next s
  | some t =>
    if p.rank = 0xFFFF then
      .next (s.setLeaf leaf (p.modTaken t.cnt (fun x => { x with
        ended := some { ts := s.time, group := BitVec.ofNat 20 t.desc.group, code := clLeafDisabled, status := stFault, noGrant := true } })))
    else if (t.desc.ragTail && t.invalid.isNone && t.probe.isNone) || (s.paceActive && !t.stagedFor p.chunk) then .next s
    else
      let q := p.modTaken t.cnt (fun x => { x with phase := .waiting })
      .next ((s.setLeaf leaf q).sendUp leaf (armOf leaf p t))

/-! ### Bisque passes (R172 to R174) -/

/-- The pass that runs: the oldest not yet ended (R174). -/
def LeafPort.pass (p : LeafPort) (action : Nat) : Option Taken :=
  match p.taken.find? (fun t => t.phase == .pass && t.passEnd.isNone) with
  | some t => if passAction t.words == action then some t else none
  | none => none

/-- A pass ends with a status; on OK it commits its working copy (R173). -/
def LeafPort.endPass (p : LeafPort) (t : Taken) (st code : BitVec 8) (chunk : Nat) (acc : Option (AccState × Sherd)) : LeafPort :=
  let q := p.modTaken t.cnt (fun x => { x with passEnd := some (st, code, chunk) })
  match acc with
  | some (a, v) => { q with bisque := tmod {} q.bisque (passIdx t.words) (fun b => { b with st := a, val := v }) }
  | none => q

/-- A pass whose read failed: FAULT, naming the first failed chunk (R282). -/
def LeafPort.passFault (p : LeafPort) (t : Taken) (chunk : Nat) (cls : BitVec 8) : LeafPort :=
  let addr := match t.areaOf p.chunk chunk with
    | some (first, r) => (chunkSpan p.chunk chunk first r).1
    | none => 0
  let q := ({ p with chunkFaults := satInc p.chunkFaults }.log cls (p.slotOf t) addr chunk 0).raise ibChunkFault
  q.endPass t stFault cls chunk none

/-- Runs a pass on its accumulator. A damaged one ends the pass with FAULT (R414); an ADD action without `first`, or a STORE,
on one never written ends with NEVER_WRITTEN. -/
def LeafPort.runPass (p : LeafPort) (t : Taken) (needs : Bool) (f : Bisque → LeafPort) : LeafPort :=
  let b := tget {} p.bisque (passIdx t.words)
  if b.damaged then
    { p with bisque := tmod {} p.bisque (passIdx t.words) (fun x => { x with damaged := false }) }.endPass t stFault clStateLost 0 none
  else if needs && b.st == .neverWritten then p.endPass t stNeverWritten 0 0 none
  else f b

/-- The value an ADD action starts from: absent when EMPTY or when `first` is set. -/
def passBase (t : Taken) (b : Bisque) : Option Sherd :=
  if passFirst t.words || b.st != .held then none else some b.val

/-- Commits the sum of an ADD action, or ends it with RANGE (R112, R172, R173). -/
def LeafPort.commitSum (p : LeafPort) (t : Taken) (b : Bisque) (xs : List Sherd) : LeafPort :=
  match sherdSum (passBase t b, false) xs with
  | (_, true) => p.endPass t stRange 0 0 none
  | (none, false) => p.endPass t stOk 0 0 (some (.empty, {}))
  | (some v, false) => p.endPass t stOk 0 0 (some (.held, v))

/-- The elements of a pass's vector. -/
def passElems (t : Taken) (bs : List Byte) : List Nat :=
  let w := compWidth (passFmt t.words)
  (List.range (passLen t.words)).map (fun i => numAt bs (i * w) w)

/-- A pass that reads one vector. -/
def LeafPort.addPass (p : LeafPort) (t : Taken) (x : PassRead) (f : Nat → Nat → Sherd) : LeafPort :=
  p.runPass t (!passFirst t.words) (fun b => match x with
    | .bad c cl => p.passFault t c (readClass cl)
    | .ok bs =>
      let r := p.sourceBytes (slice t.words.toNat 192 32) bs (passLen t.words * compWidth (passFmt t.words))
      p.commitSum t b ((passElems t r).map (f (passFmt t.words))))

/-- The command of a pass acts when that pass is the one that runs. -/
def State.onPass (s : State) (leaf action : Nat) (f : LeafPort → Taken → LeafPort) : Host.Outcome State Fault Refusal :=
  let p := s.leaf leaf
  match p.pass action with
  | none => .next s
  | some t => .next (s.setLeaf leaf (f p t))

/-- BISQUE_CLEAR (action 0x0). -/
def execBisqueClear (leaf : Nat) (s : State) : Host.Outcome State Fault Refusal :=
  s.onPass leaf 0 (fun p t => p.runPass t false (fun _ => p.endPass t stOk 0 0 (some (.empty, {}))))

/-- BISQUE_LOAD (action 0x1). -/
def execBisqueLoad (leaf : Nat) (r : PassRead) (s : State) : Host.Outcome State Fault Refusal :=
  s.onPass leaf 1 (fun p t => p.runPass t false (fun _ => match r with
    | .bad c cl => p.passFault t c (readClass cl)
    | .ok bs => match readOneSherd (p.sourceBytes (slice t.words.toNat 192 32) bs sherdMax) with
      | none => p.endPass t stRange 0 0 none
      | some none => p.endPass t stOk 0 0 (some (.empty, {}))
      | some (some v) => p.endPass t stOk 0 0 (some (.held, v))))

/-- BISQUE_ADD_SUM (action 0x2). -/
def execBisqueAddSum (leaf : Nat) (x : PassRead) (s : State) : Host.Outcome State Fault Refusal :=
  s.onPass leaf 2 (fun p t => p.addPass t x sherdOfValue)

/-- BISQUE_ADD_SUMSQ (action 0x3). -/
def execBisqueAddSumsq (leaf : Nat) (x : PassRead) (s : State) : Host.Outcome State Fault Refusal :=
  s.onPass leaf 3 (fun p t => p.addPass t x (fun f v => sherdOfProduct f v v))

/-- BISQUE_ADD_DOT (action 0x4). -/
def execBisqueAddDot (leaf : Nat) (x y : PassRead) (s : State) : Host.Outcome State Fault Refusal :=
  s.onPass leaf 4 (fun p t => p.runPass t (!passFirst t.words) (fun b => match x, y with
    | .bad c cl, _ => p.passFault t c (readClass cl)
    | .ok _, .bad c cl => p.passFault t c (readClass cl)
    | .ok bx, .ok by_ =>
      let n := passLen t.words * compWidth (passFmt t.words)
      let rx := p.sourceBytes (slice t.words.toNat 192 32) bx n
      let ry := p.sourceBytes (slice t.words.toNat 224 32) by_ n
      p.commitSum t b ((List.zip (passElems t rx) (passElems t ry)).map (fun e => sherdOfProduct (passFmt t.words) e.1 e.2))))

/-- BISQUE_ADD_SHERD (action 0x5). -/
def execBisqueAddSherd (leaf : Nat) (r : PassRead) (s : State) : Host.Outcome State Fault Refusal :=
  s.onPass leaf 5 (fun p t => p.runPass t (!passFirst t.words) (fun b => match r with
    | .bad c cl => p.passFault t c (readClass cl)
    | .ok bs => match readOneSherd (p.sourceBytes (slice t.words.toNat 192 32) bs sherdMax) with
      | none => p.endPass t stRange 0 0 none
      | some v => p.commitSum t b v.toList))

/-- BISQUE_STORE (action 0x6): `bad` is the index of the chunk whose write failed; its bytes are then undefined (R283). -/
def execBisqueStore (leaf : Nat) (bad : Option Nat) (s : State) : Host.Outcome State Fault Refusal :=
  let p := s.leaf leaf
  match p.pass 6 with
  | none => .next s
  | some t =>
    let dst := slice t.words.toNat 256 32
    let out (b : Bisque) : List Byte := if b.st == .held then sherdBytes b.val.canon else leBytes 8 absentHeader
    .next ((s.setLeaf leaf (p.runPass t true (fun b => match bad with
      | none => (p.store dst (out b)).endPass t stOk 0 0 none
      | some c => ((p.store dst (out b)).store (dst + c * p.chunk) (openBytes s.tick (min p.chunk ((out b).length - c * p.chunk)))).passFault t c
          clWriteAddr))).tock)

end Sys2Proof.Machine
end

