-- ==== Sys2Proof/Machine/KilnOps.lean ====
section
/-! DEFINITION. The kiln's firings: positions and their order (R292 to R297, R301), messages downward, result digests and digest
accumulators (R370 to R377), kiln accumulators (R177, R229, R230), wakes (R499 to R502, R505), admission (R306, R307) and the end
of a firing (R309, R311, R319). -/

namespace Sys2Proof.Machine
open Sys2Proof

/-! ### Reaching a firing -/

/-- Changes the firing with a number of the model's own. -/
def State.modFiring (s : State) (uid : Nat) (f : Firing → Firing) : State :=
  s.modKiln (fun k => { k with firings := modFirst (fun x => x.uid == uid) f k.firings })

/-- The firing with a number. -/
def State.firing? (s : State) (uid : Nat) : Option Firing := s.kiln.firings.find? (fun f => f.uid == uid)

/-- The firing granted on a setter. -/
def State.granted? (s : State) (setter : Nat) : Option Firing :=
  s.kiln.firings.find? (fun f => f.st == .granted && f.setter == some setter)

/-- What the kiln keeps for a group. -/
def State.groupRun (s : State) (g : Nat) : GroupRun := tget {} s.kiln.groups g

/-- Changes what the kiln keeps for a group. -/
def State.modGroup (s : State) (g : Nat) (f : GroupRun → GroupRun) : State :=
  s.modKiln (fun k => { k with groups := tmod {} k.groups g f })

/-- The descriptor of a firing's reference member. -/
def Firing.desc (f : Firing) : Desc := descOf f.arm.desc
/-- Whether it follows PAD or COUNT rules. -/
def Firing.pad (f : Firing) : Bool := padRules f.desc f.ragged
/-- Whether it runs in two phases (R242). -/
def Firing.count2 (f : Firing) : Bool := countRules f.desc f.ragged
/-- Whether it needs a setter, slots and planes (R306). -/
def Firing.usesPlane (f : Firing) : Bool := f.desc.kind != 4 && f.desc.kind != 0xC
/-- Whether it is in exact mode for the purpose of glaze accumulators (R161). -/
def Firing.glazes (f : Firing) : Bool := f.desc.mode && f.usesPlane
/-- The valid count of a member (R240). -/
def Firing.countOf (f : Firing) (l : Nat) : Nat :=
  match f.arm.who.find? (fun e => e.1 == l) with
  | some e => e.2
  | none => 0
/-- Members with their ranks: leaf, rank. -/
def Firing.members (f : Firing) : List (Nat × Nat) := List.zip f.leaves f.ranks
/-- The rank of a leaf in a firing. -/
def Firing.rankOf (f : Firing) (l : Nat) : Nat :=
  match f.members.find? (fun e => e.1 == l) with
  | some e => e.2
  | none => 0xFFFF
/-- The leaf of a rank in a firing, by the map it was opened under (R59); none reads 0. -/
def Firing.leafOf (f : Firing) (r : Nat) : Nat :=
  match f.members.find? (fun e => e.2 == r) with
  | some e => e.1
  | none => 0
/-- Leaves that contribute (R207). -/
def Firing.contributors (f : Firing) : List Nat := (f.members.filter (fun e => contributes f.desc e.2)).map (·.1)
/-- Leaves that receive results. -/
def Firing.receivers (f : Firing) : List Nat := (f.members.filter (fun e => receives f.desc e.2)).map (·.1)
/-- Leaves that make the path (R306 condition 2), the preload member among them. -/
def Firing.pathLeaves (f : Firing) : List Nat :=
  (f.members.filter (fun e => contributes f.desc e.2 || receives f.desc e.2 || (f.desc.preEn && e.2 == f.desc.preRank))).map (·.1)
/-- The path selects the latency path (R231). -/
def Firing.isLatency (f : Firing) (threshold : Nat) : Bool := decide (pathSize f.desc f.arm.segs f.pad ≤ threshold)
/-- Arithmetic settings of a part. -/
def Firing.arith (f : Firing) (p : Desc) : Arith := arithOf p f.attempt f.fn.toNat f.seq.toNat
/-- The scale reported (R143): that of the last attempt. -/
def Firing.finalScale (f : Firing) : Nat :=
  if (parts f.desc f.arm.segs).any scaledPart then ofSigned 8 (scaleAt f.desc f.attempt) else 0

/-! ### Downward messages (Table 1.4) -/

/-- The leaves a message leads to. -/
def CtlMsg.dst : CtlMsg → List Nat
  | .grant _ d => d
  | .done _ d => d
  | .release _ d _ => d

/-- A message for some of its leaves. -/
def CtlMsg.withDst (m : CtlMsg) (d : List Nat) : CtlMsg :=
  match m with
  | .grant g _ => .grant g d
  | .done e _ => .done e d
  | .release e _ b => .release e d b

/-- The node index of a die node of the control path. -/
def dieCtl (d : Nat) : Nat := nodeIx (dieQ d) true 0

/-- The 48 bytes of an end message (Table 9.5). -/
def EndMsg.word (e : EndMsg) : BitVec 384 :=
  BitVec.ofNat 384 (at' e.ts.toNat 320 + at' e.digest.toNat 256 + at' e.fn.toNat 208 + at' e.seq.toNat 176 + at' e.drop.toNat 144
    + at' e.group.toNat 124 + at' e.setter.toNat 114 + at' e.target.toNat 98 + at' e.rank.toNat 82 + at' e.code.toNat 74
    + at' e.status.toNat 66 + at' e.scale.toNat 58 + at' (b2n e.noGrant) 57)

/-- The 32 bytes of a GRANT (Table 9.4). -/
def GrantMsg.word (g : GrantMsg) : BitVec 256 :=
  BitVec.ofNat 256 (at' g.ts.toNat 192 + at' g.fn.toNat 144 + at' g.seq.toNat 112 + at' g.setter.toNat 102 + at' g.group.toNat 82
    + at' g.planes.toNat 78 + at' (b2n g.latency) 77 + at' g.attempt.toNat 75)

/-- A downward message as a link carries it; a BARRIER_RELEASE has the layout of an end message (R293). -/
def CtlMsg.bytes : CtlMsg → List Byte
  | .grant g _ => leBytes 32 g.word.toNat
  | .done e _ => leBytes 48 e.word.toNat
  | .release e _ _ => leBytes 48 e.word.toNat

/-- The kiln sends a message to the die nodes that lead to its leaves. -/
def State.sendDown (s : State) (m : CtlMsg) : State :=
  let kiln := (s.ctlNode (nodeIx 0 true 0)).stat
  (sortRise (m.dst.map (· / 256))).foldl (fun a d => a.modCtl (dieCtl d) (fun n =>
    { n.signal .down kiln m.bytes with downq := n.downq ++ [m.withDst (m.dst.filter (fun l => l / 256 == d))] })) s

/-- An end message to one leaf, for a late, foreign or refused ARM (R295, R296). -/
def State.answerLeaf (s : State) (l : Nat) (e : EndMsg) : State :=
  s.sendDown (.done { e with target := BitVec.ofNat 16 l, noGrant := true, fn := 0, setter := 0 } [l])

/-! ### Dealing (R72, R393, R394) -/

/-- An entry of a plane list by a number modulo its length. -/
def pickPlane (h : List Nat) (n : Nat) : Nat := h.getD (n % max 1 h.length) 0

/-- The plane that carries a stripe after the grant and each redeal since, given their lists H. On the latency path the firing
number takes the stripe's place. -/
def stripePlane (latency : Bool) (fn : Nat) (deals : List (List Nat)) (s : Nat) : Option Nat :=
  deals.foldl (fun cur h => match cur with
    | some p => if h.contains p then some p else some (pickPlane h (if latency then fn else s))
    | none => some (pickPlane h (if latency then fn else s))) none

/-- The stripes of a plane in sending order: those it carried first, then those each redeal moved to it, ascending. -/
def stripeOrder (latency : Bool) (fn : Nat) (deals : List (List Nat)) (ixs : List Nat) (plane : Nat) : List Nat :=
  (upFrom 1 deals.length).flatMap (fun k =>
    let now (s : Nat) : Bool := stripePlane latency fn (deals.take k) s == some plane
    let was (s : Nat) : Bool := k != 1 && stripePlane latency fn (deals.take (k - 1)) s == some plane
    ixs.filter (fun s => now s && !was s))

/-! ### Stripes and the result image (R72, R242, R371, Table 11.4) -/

/-- Bytes of the whole concatenation of a COUNT firing. -/
def Firing.countBytes (f : Firing) : Nat := (f.contributors.map f.countOf).foldl (· + ·) 0 * f.desc.b

/-- Whether a firing moves data. -/
def Firing.moves (f : Firing) : Bool :=
  f.usesPlane && (delivers f.desc || f.members.any (fun e => contributes f.desc e.2))

/-- The stripes of a firing. On a COUNT firing they are cut from the concatenated result, and lo and hi count its bytes. -/
def Firing.stripes (f : Firing) : List Stripe :=
  if !f.moves then []
  else if f.count2 then
    let n := ceilDiv f.countBytes 4096
    (List.range n).map (fun s =>
      { ix := s, seg := 0, lo := 4096 * s, hi := min f.countBytes (4096 * (s + 1)), lastOfSeg := s + 1 == n })
  else stripesOf f.desc f.arm.segs f.pad

/-- What a stripe's table gives. -/
def stripeBytes (t : Table (List Byte)) (ix : Nat) : List Byte := tget [] t ix

/-- Bytes of the count vector (R243). -/
def Firing.countVector (f : Firing) : List Byte :=
  if f.desc.countRec then (f.contributors.map (fun l => leBytes 4 (f.countOf l))).flatten else []

/-- The result bytes of Table 11.4. -/
def Firing.image (f : Firing) : List Byte :=
  let d := f.desc
  let ss := f.stripes
  if d.kind == 5 then
    ((List.range (max 1 d.segCount)).map (fun i => (f.leaves.map (fun l => ((ss.filter (fun st => st.seg == i)).map (fun st =>
      match (tget [] f.scan st.ix).find? (fun e => e.1 == l) with
      | some e => e.2
      | none => [])).flatten)).flatten)).flatten
  else if d.kind == 6 || d.kind == 7 then
    (if f.count2 then (ss.map (fun st => stripeBytes f.result st.ix)).flatten
     else ((List.range f.contributors.length).map (fun j => (ss.map (fun st =>
        let n := (st.hi - st.lo) * d.b
        bytesAt (stripeBytes f.result st.ix) (j * n) n)).flatten)).flatten)
    ++ f.countVector
  else
    ((List.range (max 1 d.segCount)).map (fun i =>
      let mine := ss.filter (fun st => st.seg == i)
      (mine.map (fun st => stripeBytes f.result st.ix)).flatten ++ (mine.map (fun st => stripeBytes f.aux st.ix)).flatten)).flatten

/-- Whether a firing has a digest image at all (last row of Table 11.4). A firing that feeds an accumulator and delivers nothing
has one of the prefix alone, unless it is a COMBINE (assumption log 46). -/
def Firing.hashes (f : Firing) : Bool :=
  f.usesPlane && !(f.desc.kind == 9 && !f.desc.kFinal) && !(f.desc.kind == 0xB && f.desc.depAction == 0)

/-- An open value of 64 bits. -/
def openQuad (tick : Nat) : Quad := BitVec.ofNat 64 (ofLe ((List.range 8).map (Config.openByte tick)))

/-- The result digest R (R370). Where the results are not defined, R is a free value. -/
def Firing.digest (f : Firing) (tick : Nat) : Quad :=
  if !f.hashes then 0
  else if f.rangeBad then openQuad tick
  else BitVec.ofNat 64 (crc64From f.prov.toNat (leBytes 4 f.group ++ leBytes 4 f.seq.toNat ++ f.image))

/-- The digest of an end message (Table 9.5). Of a granted firing with any other status than OK or RANGE the result bytes are not
all there, and the spec states no digest: a free value (assumption log 46). -/
def Firing.endDigest (f : Firing) (st : BitVec 8) (tick : Nat) : Quad :=
  if f.st != .granted || !f.hashes then 0 else if st == stOk || st == stRange then f.digest tick else openQuad tick

/-! ### Digest accumulators (R375, R376) -/

/-- A counter that sets count_sat when it reaches its end. -/
def DigestAcc.counted (a : DigestAcc) (full : Bool) : DigestAcc := if full then { a with sat := true } else a

/-- The update of an accumulator at the end of a firing bound to it. -/
def DigestAcc.update (a : DigestAcc) (st : BitVec 8) (r : Quad) (poisoned : Bool) : DigestAcc :=
  if st != stOk && st != stRange then { a with fails := satInc a.fails }.counted (satInc a.fails == BitVec.allOnes 16)
  else if poisoned then { a with poisons := satInc a.poisons }.counted (satInc a.poisons == BitVec.allOnes 16)
  else { a with sum := a.sum + r, firings := satInc a.firings }.counted (satInc a.firings == BitVec.allOnes 48)

/-- A bound firing's end reaches its accumulator if that opening is still current. -/
def State.digestUpdate (s : State) (f : Firing) (st : BitVec 8) (r : Quad) : State :=
  match f.bound with
  | none => s
  | some (i, opening) => s.modKiln (fun k => { k with digests := tmod {} k.digests i (fun a =>
      if a.isOpen && a.opening == opening then a.update st r f.poisoned else a) })

/-! ### Kiln accumulators (R177, R180, R229, R230) -/

/-- A kiln accumulator. -/
def State.kacc (s : State) (i : Nat) : KAcc := tget {} s.kiln.kaccs i
/-- Changes a kiln accumulator. -/
def State.modKacc (s : State) (i : Nat) (f : KAcc → KAcc) : State :=
  s.modKiln (fun k => { k with kaccs := tmod {} k.kaccs i f })

/-- What the end of a granted firing leaves of the accumulator it names: no holder; lost contents after a failure; nothing at
all after a release. An accumulator whose saggar is gone is released when its holder completes (R473). -/
def KAcc.afterEnd (a : KAcc) (failed release orphan : Bool) : KAcc :=
  if release || orphan then {}
  else if failed then
    { a with holder := none, written := false, elems := [], place := none, spanEnd := 0, damaged := false }
  else { a with holder := none }

/-- The hold of a firing on its accumulator ends. RANGE with results that are not defined counts as a failure (R230). -/
def State.kaccEnd (s : State) (f : Firing) (st : BitVec 8) : State :=
  if f.desc.namesKacc then
    s.modKacc f.desc.kacc (fun a => a.afterEnd (st != stOk && (st != stRange || f.rangeBad)) f.desc.kRelease
      (match a.owner with
        | some k => !(s.cfg.sag k).inUse
        | none => false))
  else s

/-! ### Wakes (R490, R491, R499, R500, R502, R505) -/

/-- The segments of one die slice that a path needs in a plane: all eight of each cluster node, and the spine island. -/
def pathSegs (leaves : List Nat) (plane die : Nat) : List Nat :=
  let cs := sortRise ((leaves.filter (fun l => l / 256 == die)).map (fun l => l / 16 % 16))
  if cs.isEmpty then []
  else cs.flatMap (fun c => upFrom (32 * (4 * plane + c / 4) + 8 * (c % 4)) 8) ++ upFrom (32 * (16 + plane)) 32

/-- The die slices of a set of leaves. -/
def diesOf (leaves : List Nat) : List Nat := sortRise (leaves.map (· / 256))

/-- The state of a segment. -/
def Die.seg (d : Die) (i : Nat) : SegState := tget .parked d.segs i

/-- Whether a path is awake in a plane. -/
def State.planeAwake (s : State) (leaves : List Nat) (plane : Nat) : Bool :=
  (diesOf leaves).all (fun d => (pathSegs leaves plane d).all (fun i => (s.die d).seg i == .awake))

/-- A wake request for one segment. -/
def Die.wake (d : Die) (i : Nat) : Die :=
  if d.wakeQ.contains i then d
  else match d.seg i with
  | .parked => { d with wakeQ := d.wakeQ ++ [i] }
  | .parking => { d with wakeQ := i :: d.wakeQ }
  | _ => d

/-- Segments AWAKE, WAKING or queued: n of R503. -/
def Die.live (d : Die) : Nat :=
  (d.segs.filter (fun e => e.2 == .awake || e.2 == .waking)).length
    + (d.wakeQ.filter (fun i => d.seg i == .parked || d.seg i == .parking)).length

/-- p_seg of R503. -/
def pSeg (v : Rat) : Rat := (1075 / 10000 : Rat) * (v / (3 / 4)) * (v / (3 / 4)) / 2

/-- The segments of a path on planes that are parked or on the way there, by die slice. -/
def State.sleeping (s : State) (leaves planes : List Nat) : List (Nat × Nat) :=
  (diesOf leaves).flatMap (fun d => ((planes.flatMap (fun p => pathSegs leaves p d)).filter (fun i =>
    (s.die d).seg i == .parked || (s.die d).seg i == .parking)).map (fun i => (d, i)))

/-- Whether waking segments would break a die slice's budget in paced mode: those not yet queued raise n (R503, R505). -/
def State.wakeBreaks (s : State) (segs : List (Nat × Nat)) (d : Nat) : Bool :=
  let x := s.die d
  let new := segs.filter (fun e => e.1 == d && !x.wakeQ.contains e.2)
  decide (((s.cfg.active.budgetOf d).toNat : Rat) < 1 / 5 + ((x.live + new.length : Nat) : Rat) * pSeg x.vdd * (5 / 4))

/-- The wake requests for segments. -/
def State.wakeSegs (s : State) (segs : List (Nat × Nat)) : State := segs.foldl (fun a e => a.modDie e.1 (Die.wake · e.2)) s

/-! ### Admission (R306, R307) -/

/-- The planes in service for a firing. -/
def State.planesUp (s : State) (f : Firing) : List Nat := (List.range 4).filter (s.planeUp f.pathLeaves)

/-- The latency path or the striped path, as a grant now would choose (R231, R232). -/
def State.wouldLatency (s : State) (f : Firing) : Bool := f.isLatency (s.cfg.latency f.group)

/-- The admission queue: ARMED firings in the order in which arming completed. -/
def State.queue (s : State) : List Firing :=
  let a := s.kiln.firings.filter (fun f => f.st == .armed)
  (sortRise (a.map (·.armedAt))).flatMap (fun t => a.filter (fun f => f.armedAt == t))

/-- The planes whose path an ARMED firing needs awake: every one in service; on the latency path the one it has requested, or none
while some plane is awake, or the lowest (R502). -/
def State.needsAwake (s : State) (f : Firing) : List Nat :=
  let up := s.planesUp f
  if !s.wouldLatency f then up
  else
    let mine := up.filter f.wants.contains
    if !mine.isEmpty then mine.take 1 else if up.any (s.planeAwake f.pathLeaves) then [] else up.take 1

/-- Requests the wakes of an ARMED firing (R502); in paced mode a wake that would break a budget waits, unless the firing heads
the queue (R505). A segment that it found awake and that has parked since is requested then. -/
def State.requestWakes (s : State) (f : Firing) : State :=
  if !f.usesPlane then s
  else
    let ps := s.needsAwake f
    let segs := (s.sleeping f.pathLeaves ps).filter (fun e => !f.asked.contains e)
    let breaks := s.paceMode && (diesOf f.pathLeaves).any (s.wakeBreaks segs)
    let isHead := match s.queue.head? with
      | some h => h.uid == f.uid
      | none => false
    if (segs.isEmpty && ps.all f.wants.contains) || (breaks && !isHead) then s
    else
      let t := (s.wakeSegs segs).modFiring f.uid (fun x => { x with
        wants := x.wants ++ ps.filter (fun p => !x.wants.contains p), asked := x.asked ++ segs })
      if breaks then (diesOf f.pathLeaves).foldl (fun a d =>
        if s.wakeBreaks segs d then a.modDie d (fun x => { x with overBudget := true }) else a) t
      else t

/-- Condition 6 of R306: no earlier firing of the group that names the same kiln accumulator is unended. -/
def State.cond6 (s : State) (f : Firing) : Bool :=
  !f.desc.namesKacc || s.kiln.firings.all (fun x =>
    x.uid == f.uid || x.group != f.group || x.st == .ended || !decide (x.uid < f.uid) || !x.desc.namesKacc || x.desc.kacc != f.desc.kacc)

/-- The fields that an accumulator was initialised with, against a firing's: the code of the first that differs (check 9). -/
def kaccMismatch (a : KAcc) (d : Desc) : Option Nat :=
  if a.exact != d.mode then some 0x04
  else if a.op != d.op then some 0x02
  else if a.inFmt != d.inF then some 0x05
  else if a.tanLog2 != d.tan then some 0x07
  else none

/-- The span of a firing's entry (R79): a COMBINE carries it, a reducing firing's is computed. -/
def Firing.span (f : Firing) : Nat × Nat :=
  if f.desc.kind == 9 then (f.desc.spanLo, f.desc.spanLog2) else spanOf (diesOf f.contributors)

/-- The saggar that owns a kiln accumulator: none where none does, or where its saggar is gone and only a holder keeps it (R473). -/
def KAcc.ownerNow (a : KAcc) : Option Nat := a.owner.filter (fun k => decide (k < 4096))

/-- Whether another saggar owns an accumulator (R180). -/
def KAcc.ownedElsewhere (a : KAcc) (sag : Nat) : Bool :=
  match a.owner with
  | some k => k != sag
  | none => false

/-- Whether a granted firing of another group holds an accumulator (R180). -/
def State.heldElsewhere (s : State) (a : KAcc) (g : Nat) : Bool :=
  match a.holder with
  | some h => s.kiln.firings.any (fun x => x.st == .granted && x.setter == some h && x.group != g)
  | none => false

/-- Checks 7 to 11 of R304: status and code of the first that fails. A damaged accumulator with no holder fails the next firing
that names it (Table 12.4). -/
def State.kaccCheck (s : State) (f : Firing) : Option (BitVec 8 × Nat) :=
  let d := f.desc
  let a := s.kacc d.kacc
  let touches := d.kFeed || (d.kFinal && !d.kInit)
  if !d.namesKacc then none
  else if a.ownedElsewhere f.saggar then some (stDenied, 0)
  else if s.heldElsewhere a f.group then some (stDenied, 0)
  else if a.damaged then some (stFault, clStateLost.toNat)
  else if !d.kInit && touches && !a.written then some (stNeverWritten, 0)
  else if !d.kInit && touches && (kaccMismatch a d).isSome then some (stMismatch, (kaccMismatch a d).getD 0)
  else if !d.kInit && d.kFeed && a.count != d.count then some (stMismatch, 0x10)
  else if !d.kInit && d.kFeed && !d.mode then
    match a.place with
    | none => none
    | some p =>
      if p != d.kPlace then some (stMismatch, 0x21)
      else if !p && decide (f.span.1 < a.spanEnd) then some (stMismatch, 0x22)
      else none
  else none

/-! ### The end of a firing -/

/-- The statuses of the segments at an end (R237). -/
def Firing.segStatuses (f : Firing) (st : BitVec 8) : List (BitVec 8) :=
  (List.range f.desc.segCount).map (fun i =>
    if st == stOverflow then (if f.ovfSegs.contains i then stOverflow else stOk)
    else if st == stRange then (if f.rangeSegs.contains i then stRange else stOk)
    else st)

/-- Whether a status leaves every result area of a granted firing without defined contents (Table 9.7). OVERFLOW and RANGE of a
segmented firing lie with the segments that record them (R237). -/
def Firing.undefAfter (f : Firing) (st : BitVec 8) : Bool :=
  f.st == .granted && (st == stStall || st == stMiscompare || st == stAborted
    || (f.desc.segCount == 0 && (st == stOverflow || (st == stRange && f.rangeBad))))

/-- drop_count of the end message: ROUTE_BACK's and a deposit's (R200, R408, R548, R552). -/
def Firing.dropTotal (f : Firing) : Nat := f.drop + f.depFailed.length

/-- The end message of a firing. -/
def Firing.endWord (f : Firing) (st : BitVec 8) (rank : BitVec 16) (code : BitVec 8) (ts : Quad) (tick : Nat) : EndMsg :=
  let ng := f.st != .granted
  { ts := ts, digest := f.endDigest st tick, fn := if ng then 0 else f.fn, seq := f.seq,
    drop := if ng then 0 else BitVec.ofNat 32 f.dropTotal, group := BitVec.ofNat 20 f.group,
    setter := if ng then 0 else BitVec.ofNat 10 (f.setter.getD 0), rank := rank, code := code, status := st,
    scale := if ng then 0 else BitVec.ofNat 8 f.finalScale, noGrant := ng, segs := f.segStatuses st, undef := f.undefAfter st, ord := f.ord }

/-- An END trace record (Table 16.2). -/
def State.traceEnd (s : State) (f : Firing) (e : EndMsg) : State :=
  s.traceOffer 0x11 (bodyOf [(e.ts.toNat, 0, 8), (e.fn.toNat, 8, 6), (e.status.toNat, 14, 1), (e.code.toNat, 15, 1), (f.group, 16, 4),
    (e.seq.toNat, 20, 4), (e.rank.toNat, 24, 2), (e.setter.toNat, 26, 2), (f.depWait, 28, 4)]) [f.saggar]

/-- The one poison event of a firing (R409, kind 0x0B): it delivered a poisoned element, or dropped one at a kiln accumulator, at
memory or by ending first. -/
def State.poisonEvent (s : State) (f : Firing) (e : EndMsg) : State :=
  if f.poisoned || f.depPoison || f.poisonRank.isSome then
    s.fault { kind := 0x0B, fn := f.fn.toNat, group := f.group, saggar := f.saggar, rank := f.poisonRank.getD 0xFFFF,
              wh := match f.poisonRank with
                | some r => f.leafOf r
                | none => 0,
              count := f.poisonChunk, status := e.status.toNat } [f.saggar]
  else s

/-- Whether the request that the deposit port holds is a firing's. -/
def State.heldNow (s : State) (f : Firing) : Bool := s.dep.queue.head?.any (fun r => r.uid == f.uid)

/-- How long a firing has waited for the request that the port holds, in units of 0.8 ns of block time (R553). -/
def State.waitNow (s : State) (f : Firing) : Nat :=
  match s.dep.since with
  | some t => if s.heldNow f then (s.time - t).toNat * 5 / 4 else 0
  | none => 0

/-- Every datapath node of a firing's path loses its slots on the setter; what waits at them to go up goes with them, and the
kiln forwards no more result flits of a firing that ended early (R309, R311). -/
def State.dropSlots (s : State) (f : Firing) (planes : List Nat) (early : Bool) : State :=
  match f.setter with
  | none => s
  | some x =>
    let mine (c : Carry) : Bool := c.flit.setter.toNat == x
    let qs := 0 :: ((diesOf f.leaves).map dieQ ++ sortRise (f.leaves.map leafQ))
    planes.foldl (fun a p => qs.foldl (fun b q => b.modNode (nodeIx q false p) (fun n =>
      { n with slots := n.slots.filter (fun y => y.setter != x), outUp := n.outUp.filter (fun c => !mine c),
               outDown := if q == 0 && early then n.outDown.filter (fun e => !mine e.2) else n.outDown })) a) s

/-- The deposit requests of a firing that memory has not accepted are not issued (R309). -/
def State.dropDeposits (s : State) (f : Firing) : State :=
  let q := s.dep.queue.filter (fun r => r.uid != f.uid)
  { s with dep := { s.dep with queue := q, parts := s.dep.parts.filter (fun r => r.uid != f.uid),
                               since := if q.isEmpty then none else if s.heldNow f then some s.time else s.dep.since,
                               glaze := s.dep.glaze.filter (fun e => e.1 / 2 ^ 32 != f.uid) } }

/-- The wait of a firing that ends while the port holds a request of it counts too (R553): in its END record and in dep_stall. -/
def State.countWait (s : State) (f : Firing) : State :=
  let w := s.waitNow f
  if w = 0 then s else (s.bumpBy 0x09 w).modFiring f.uid (fun x => { x with depWait := x.depWait + w })

/-- A position that has ended and rested, and that every member has armed, closes (R296). -/
def State.closePositions (s : State) : State :=
  s.modKiln (fun k => { k with firings := k.firings.filter (fun f =>
    !(f.st == .ended && f.restEnd.isNone && f.expected.all (fun l => f.armedBy.contains l || k.failedLeaves.contains l))) })

/-- The ended positions of a group that are still open (R297). -/
def State.openEnded (s : State) (g : Nat) : Nat :=
  (s.kiln.firings.filter (fun f => f.group == g && f.st == .ended
    && !f.expected.all (fun l => f.armedBy.contains l || s.kiln.failedLeaves.contains l))).length

/-- The kiln fences a group when an ended position more would have to stay open (R297). -/
def State.fenceIfFull (s : State) (f : Firing) : State :=
  if !(s.groupRun f.group).fenced && f.expected.any (fun l => !f.armedBy.contains l && !s.kiln.failedLeaves.contains l)
      && decide (64 ≤ s.openEnded f.group) then
    (s.modGroup f.group (fun g => { g with fenced := true })).firingEvent 1 0 f.group f.saggar 0xFFFF [f.saggar]
  else s

/-- The end of a firing is sent: one end message to every member, and everything it holds is released. -/
def State.finishEnd (s : State) (uid : Nat) : State :=
  match s.firing? uid with
  | none => s
  | some f => match f.cause with
    | none => s
    | some (st, rank, code, ts) =>
      let ran := f.st == .granted
      let early := st != stOk && st != stRange && st != stOverflow
      let e := f.endWord st rank code ts s.tick
      let t := if f.desc.kind == 4 && st == stOk then s.sendDown (.release e f.leaves false) else s.sendDown (.done e f.leaves)
      let t := t.countWait f
      let f := { f with depWait := f.depWait + s.waitNow f }
      let t := if ran then ((t.dropSlots f (List.range 4) early).dropDeposits f).digestUpdate f st e.digest else t
      let t := if ran then t.kaccEnd f st else t
      let t := t.fenceIfFull f
      let t := t.modFiring uid (fun x => { x with
        st := .ended, endMsg := some e, cause := none, setter := if ran then x.setter else none, wants := [], asked := [], waitPlane := none,
        heldSlots := [], heldGlaze := [],
        restEnd := if ran && f.usesPlane then some (s.time + 10000) else none,
        held := [], values := [], scanIn := [], result := [], aux := [], scan := [] })
      let t := if ran && f.usesPlane then t.modKiln (fun k => { k with resting := insertRise (f.setter.getD 0) k.resting }) else t
      let t := ((t.traceEnd f e).poisonEvent f e).tock
      t.closePositions

/-- Sends the ends of a group that the order of R301 now allows: a position that ends without a grant waits until every earlier
one has been granted or has ended. -/
def State.sendEnds : Nat → Nat → State → State
  | 0, _, s => s
  | fuel + 1, g, s =>
    match s.kiln.firings.find? (fun f => f.group == g && f.st != .granted && f.st != .ended && f.cause.isSome
        && f.ord == (s.groupRun g).nextOrd) with
    | none => s
    | some f => sendEnds fuel g ((s.finishEnd f.uid).modGroup g (fun r => { r with nextOrd := r.nextOrd + 1 }))

/-- Registers an end cause: the first one decides (R319). A granted firing ends at once. -/
def State.decideEnd (s : State) (uid : Nat) (st : BitVec 8) (rank : Nat) (code : Nat) : State :=
  match s.firing? uid with
  | none => s
  | some f =>
    if f.st == .ended || f.cause.isSome then s
    else
      let t := s.modFiring uid (fun x => { x with cause := some (st, BitVec.ofNat 16 rank, BitVec.ofNat 8 code, s.time) })
      if f.st == .granted then t.finishEnd uid else t.sendEnds (t.kiln.firings.length + 1) f.group

/-- A firing ends by its accumulator checks, and applies none of its own actions. A damaged accumulator is then as after a failed
holder (Table 12.4, R230). -/
def State.kaccRefuse (s : State) (f : Firing) (st : BitVec 8) (code : Nat) : State :=
  (if (s.kacc f.desc.kacc).damaged && st == stFault then s.modKacc f.desc.kacc (fun a => a.afterEnd true false false)
   else s).decideEnd f.uid st 0xFFFF code

/-! ### The resources of a firing (R306 conditions 2 and 3, R307) -/

/-- Cluster and die nodes of a firing's path, by q. -/
def pathNodes (leaves : List Nat) : List Nat := (diesOf leaves).map dieQ ++ sortRise (leaves.map leafQ)

/-- The next firing number (R308). -/
def nextFn (last : BitVec 48) : BitVec 48 := if last = BitVec.allOnes 48 then 1 else last + 1

/-- H as a grant now would fix it (R72, R502). On the latency path it is the plane whose wake was requested, where one was, else
the planes awake, else the lowest. -/
def State.hNow (s : State) (f : Firing) : List Nat :=
  let up := s.planesUp f
  if s.wouldLatency f then
    let asked := up.filter f.wants.contains
    let awake := up.filter (s.planeAwake f.pathLeaves)
    if !asked.isEmpty then asked.take 1 else if awake.isEmpty then up.take 1 else awake
  else up

/-- The planes that a firing uses of H. -/
def usedOf (latency : Bool) (h : List Nat) (fn : Nat) : List Nat := if latency then [pickPlane h fn] else h

/-- Active slots, as node positions, and glaze accumulators, as planes, that a firing takes on some planes. -/
structure Needs where
  slots : List Nat := []
  glaze : List Nat := []
deriving DecidableEq, Repr

/-- Both of two needs. -/
def Needs.add (a b : Needs) : Needs := { slots := a.slots ++ b.slots, glaze := a.glaze ++ b.glaze }

/-- What a firing takes on some planes. -/
def Firing.needs (f : Firing) (planes : List Nat) : Needs :=
  { slots := planes.flatMap (fun p => (pathNodes f.pathLeaves).map (fun q => nodeIx q false p)),
    glaze := if f.glazes then planes else [] }

/-- The planes that a granted firing uses now. -/
def Firing.usesNow (f : Firing) : List Nat := usedOf f.latency f.planes f.fn.toNat

/-- Glaze accumulators held on a plane. -/
def State.glazeHeld (s : State) (p : Nat) : Nat :=
  (s.kiln.firings.filter (fun f => f.st == .granted && f.glazes && f.waitPlane.isNone && f.usesNow.contains p)).length

/-- Whether one more active slot at a node position is free beside those held back. -/
def State.slotFree (s : State) (held : Needs) (ix : Nat) : Bool := decide ((s.node ix).slots.length + held.slots.count ix < 8)

/-- Whether one more glaze accumulator of a plane is free beside those held back. -/
def State.glazeFree (s : State) (held : Needs) (p : Nat) : Bool := decide (s.glazeHeld p + held.glaze.count p < 64)

/-- Whether what a firing takes is free beside what others hold back. -/
def State.fits (s : State) (held want : Needs) : Bool := want.slots.all (s.slotFree held) && want.glaze.all (s.glazeFree held)

/-- What latency-path redeals wait for (R394). -/
def State.redealNeeds (s : State) : Needs :=
  (s.kiln.firings.filter (fun f => f.st == .granted)).foldl (fun a f => match f.waitPlane with
    | some p => a.add (f.needs [p])
    | none => a) {}

/-- What the waiting firings but one have taken (R307). -/
def State.heldNeeds (s : State) (uid : Nat) : Needs :=
  (s.kiln.firings.filter (fun f => f.st == .armed && f.uid != uid)).foldl (fun a f =>
    a.add { slots := f.heldSlots, glaze := f.heldGlaze }) {}

/-- What an ARMED firing takes at a grant now. -/
def State.wantsNow (s : State) (f : Firing) : Needs :=
  if f.usesPlane then f.needs (usedOf (s.wouldLatency f) (s.hNow f) (nextFn s.kiln.lastFn).toNat) else {}

/-- A waiting firing takes what is free of the slots and glaze accumulators it needs, and keeps what it has taken of them
(R307; assumption log 48). Redeals that wait are served before it (R394). -/
def State.takeFree (s : State) (f : Firing) : State :=
  let w := s.wantsNow f
  let held := (s.heldNeeds f.uid).add s.redealNeeds
  s.modFiring f.uid (fun x => { x with
    heldSlots := w.slots.filter (fun ix => x.heldSlots.contains ix || s.slotFree held ix)
    heldGlaze := w.glaze.filter (fun p => x.heldGlaze.contains p || s.glazeFree held p) })

/-! ### Offers (R304, R307) -/

/-- The lowest free setter: none is held by a firing, none rests. -/
def State.freeSetter (s : State) : Option Nat :=
  (List.range 1024).find? (fun x => !s.kiln.resting.contains x && s.kiln.firings.all (fun f => f.st == .ended || f.setter != some x))

/-- One ARMED firing meets its accumulator checks, is given a setter if it needs one and one is free, and requests its wakes. -/
def State.offerOne (s : State) (uid : Nat) : State :=
  match s.firing? uid with
  | none => s
  | some f =>
    if f.st != .armed || f.cause.isSome || !f.usesPlane then s
    else if (s.planesUp f).isEmpty then s.decideEnd uid stFault 0xFFFF clNoPlane.toNat
    else if !s.cond6 f then s.requestWakes f
    else match s.kaccCheck f with
    | some (st, c) =>
      if f.checked then s
      else s.kaccRefuse f st c
    | none =>
      let t := s.modFiring uid (fun x => { x with checked := true, setter := match x.setter with
        | some y => some y
        | none => s.freeSetter })
      let t := t.requestWakes f
      match t.firing? uid with
      | some g => t.takeFree g
      | none => t

/-- What has come free is offered to the waiting firings in queue order. -/
def State.offer (s : State) : State := (s.queue.map (·.uid)).foldl State.offerOne s

end Sys2Proof.Machine
end

