-- ==== Sys2Proof/Machine/DepositOps.lean ====
section
/-! DEFINITION. Deposits at the kiln: region entries (R544, Table 16.12), what ends a deposit at its grant (R415, R546), the
requests of ADD, GLAZE and DEPOSIT_INIT (R547, R548, R550, R551) and what their answers do (R552). -/

namespace Sys2Proof.Machine
open Sys2Proof

/-! ### Regions -/

/-- A region's entry in the active global set. -/
def State.regionEntry (s : State) (k : Nat) : BitVec 256 := tget 0 s.cfg.active.regions k
/-- The same as a number. -/
def State.region (s : State) (k : Nat) : Nat := (s.regionEntry k).toNat
/-- The region entry that a granted firing acts on: that of the set it was granted with (R484). -/
def Firing.reg (f : Firing) : Nat := f.region.toNat
/-- Whether a region's entry differs from another in its saggar at most: then its initialisation bits stay (R415, R545). -/
def regionKept (a b : BitVec 256) : Bool := (a ^^^ b) &&& ~~~(BitVec.ofNat 256 (at' 0xFFF 164)) == 0
/-- base. -/
def rBase (v : Nat) : Nat := slice v 208 48
/-- elements. -/
def rElems (v : Nat) : Nat := slice v 176 32
/-- saggar. -/
def rSaggar (v : Nat) : Nat := slice v 164 12
/-- kind: 1 FAST32, 2 FAST64, 3 EXACT. -/
def rKind (v : Nat) : Nat := slice v 162 2
/-- words. -/
def rWords (v : Nat) : Nat := slice v 157 5
/-- base_weight, e_b. -/
def rWeight (v : Nat) : Int := toSigned 13 (slice v 144 13)
/-- Bytes of an element. -/
def rSize (v : Nat) : Nat :=
  match rKind v with
  | 1 => 4
  | 2 => 8
  | 3 => if rWords v ≤ 4 then 32 else if rWords v ≤ 8 then 64 else 128
  | _ => 0
/-- Bytes of an element that hold its value: an exact element's words only. -/
def rUsed (v : Nat) : Nat := if rKind v = 3 then 8 * rWords v else rSize v

/-- Elements of a deposit: count, or capacity under PAD rules. -/
def Firing.depCount (f : Firing) : Nat := nElems f.desc f.pad

/-- Whether a firing is a DEPOSIT ADD. -/
def Firing.isAdd (f : Firing) : Bool := f.desc.kind == 0xB && f.desc.depAction == 0
/-- Whether a firing is a DEPOSIT GLAZE. -/
def Firing.isGlaze (f : Firing) : Bool := f.desc.kind == 0xB && f.desc.depAction == 1
/-- Whether a firing is a DEPOSIT_INIT. -/
def Firing.isInit (f : Firing) : Bool := f.desc.kind == 0xC
/-- Whether a firing acts on memory. -/
def Firing.isDeposit (f : Firing) : Bool := f.desc.kind == 0xB || f.desc.kind == 0xC

/-- A DEPOSIT_INIT that R415 makes invalid: it does not cover whole blocks of 64 elements. -/
def State.depInvalid (s : State) (f : Firing) : Bool :=
  let d := f.desc
  f.isInit && (d.depIndex % 64 != 0 || (d.count % 64 != 0 && d.depIndex + d.count != rElems (s.region d.depRegion)))

/-- Whether every block of an element range is initialised (R415). -/
def State.depReady (s : State) (reg lo n : Nat) : Bool :=
  n == 0 || (upFrom (lo / 64) ((lo + n - 1) / 64 + 1 - lo / 64)).all (fun b => s.cfg.depInit.contains (reg, b))

/-- What ends a deposit at its grant: status and code (R415, R546). -/
def State.depCheck (s : State) (f : Firing) : Option (BitVec 8 × Nat) :=
  let d := f.desc
  let v := s.region d.depRegion
  if !f.isDeposit then none
  else if rKind v == 0 || rSaggar v != f.saggar || s.cfg.active.stale.contains d.depRegion then some (stDenied, 0)
  else if f.isAdd && !d.mode && !((rKind v == 1 && d.outF == 2) || (rKind v == 2 && d.outF == 1)) then some (stMismatch, 0x28)
  else if d.kind == 0xB && d.mode && rKind v != 3 then some (stMismatch, 0x28)
  else if rElems v < d.depIndex + f.depCount then some (stRange, 0)
  else if d.kind == 0xB && d.mode && !s.depReady d.depRegion d.depIndex f.depCount then some (stNeverWritten, 0)
  else none

/-! ### Requests -/

/-- Bytes to be written or added at an address. -/
structure DepLane where
  addr  : Nat
  bytes : List Byte
deriving DecidableEq, Repr

/-- Address of element k of a firing. -/
def depAddr (v : Nat) (d : Desc) (k : Nat) : Nat := rBase v + (d.depIndex + k) * rSize v

/-- Lines that an element lies on. -/
def depLines (v : Nat) (d : Desc) (k : Nat) : List Nat :=
  let a := depAddr v d k
  upFrom (a / 64) ((a + rSize v - 1) / 64 + 1 - a / 64)

/-- One request on a line with its lanes. The identifier is given when memory accepts it. -/
def depReq (uid : Nat) (op : DepOp) (line : Nat) (elems : List Nat) (step : Nat) (lanes : List DepLane) : DepReq :=
  let at64 (l : DepLane) : Nat := l.addr % 64
  { id := 0, op := op, line := line, uid := uid, elems := elems, step := step,
    mask := BitVec.ofNat 64 (lanes.foldl (fun m l => m ||| ((2 ^ l.bytes.length - 1) * 2 ^ at64 l)) 0),
    data := BitVec.ofNat 512 (lanes.foldl (fun m l => m ||| (ofLe l.bytes * 2 ^ (8 * at64 l))) 0) }

/-- The requests of a run of elements: every element on one line in one request (R547, R548). -/
def depByLine (v : Nat) (d : Desc) (uid : Nat) (op : DepOp) (ks : List Nat) (lanes : List DepLane) : List DepReq :=
  (sortRise (ks.flatMap (depLines v d))).map (fun n =>
    depReq uid op n (ks.filter (fun k => (depLines v d k).contains n)) 0 (lanes.filter (fun l => l.addr / 64 == n)))

/-- The same, lines without a lane left out. -/
def depRequests (v : Nat) (d : Desc) (uid : Nat) (op : DepOp) (ks : List Nat) (lanes : List DepLane) : List DepReq :=
  (depByLine v d uid op ks lanes).filter (fun r => r.mask != 0)

/-- The elements of a firing of `n` elements that lie on a line, numbered as the firing's. -/
def lineElems (v : Nat) (d : Desc) (n line : Nat) : List Nat :=
  let lo := (64 * line - rBase v) / rSize v
  let hi := (64 * line + 63 - rBase v) / rSize v
  if 64 * line + 63 < rBase v then []
  else ((upFrom lo (hi + 1 - lo)).filter (fun e => decide (d.depIndex ≤ e) && decide (e < d.depIndex + n))).map (· - d.depIndex)

/-- Two requests for one line in one. -/
def DepReq.join (a b : DepReq) : DepReq := { b with mask := a.mask ||| b.mask, data := a.data ||| b.data, elems := a.elems ++ b.elems }

/-- The digits of an exact element (R548): none when its finite part is no multiple of the base weight or leaves the window. -/
def depDigits (v : Nat) (a : Int) : Option (List Int) :=
  let sh := (rWeight v + 2148).toNat
  let w := rWords v
  let m := a / 2 ^ sh
  if a % 2 ^ sh ≠ 0 ∨ m < -(2 ^ (48 * w - 1)) ∨ (2 : Int) ^ (48 * w - 1) ≤ m then none
  else some ((List.range (w - 1)).map (fun j => m / 2 ^ (48 * j) % 2 ^ 48) ++ [m / 2 ^ (48 * (w - 1))])

/-- What an ADD makes of one element: its lanes, or a failure. -/
def depElem (v : Nat) (d : Desc) (a : Arith) (base k : Nat) (c : Cell) : Option (List DepLane) :=
  match c.val with
  | none => some []
  | some e =>
    if d.mode then
      let s := e.sh.headD {}
      if s.special then none
      else (depDigits v s.fin).map (fun ds => (numbered 0 ds).filterMap (fun (j, x) =>
        if x = 0 then none else some { addr := depAddr v d k + 8 * j, bytes := leBytes 8 (ofSigned 64 x) }))
    else
      let r := ((outElem a (base + k) (some e)).1.headD []).headD 0
      some [{ addr := depAddr v d k, bytes := leBytes (rSize v) r }]

/-- Queues requests of a firing. -/
def State.askMemory (s : State) (uid : Nat) (rs : List DepReq) : State :=
  let q := s.dep.queue ++ rs
  ({ s with dep := { s.dep with queue := q, since := if s.dep.queue.isEmpty && !q.isEmpty then some s.time else s.dep.since } }).modFiring
    uid (fun f => { f with depLeft := f.depLeft + rs.length })

/-- Queues the adds of an exact firing: the elements of one line go in one request, so a line whose elements come in several stripes
waits for the last (R548). -/
def State.askLines (s : State) (f : Firing) (rs : List DepReq) : State :=
  let mine (r p : DepReq) : Bool := p.uid == f.uid && p.line == r.line
  let joined := rs.map (fun r => match s.dep.parts.find? (mine r) with
    | some p => p.join r
    | none => r)
  let whole (r : DepReq) : Bool := (lineElems f.reg f.desc f.depCount r.line).all r.elems.contains
  let keep := s.dep.parts.filter (fun p => !rs.any (fun r => mine r p))
  ({ s with dep := { s.dep with parts := keep ++ joined.filter (fun r => !whole r) } }).askMemory f.uid
    (joined.filter (fun r => whole r && r.mask != 0))

/-- The adds of a stripe's elements, numbered from `lo`: poisoned ones are dropped (R408), failed ones fail with RANGE
(R548). -/
def State.depAdd (s : State) (f : Firing) (lo : Nat) (cells : List Cell) : State :=
  let d := f.desc
  let v := f.reg
  let ks := numbered lo cells
  let bad := (ks.filter (fun e => e.2.poison)).map (·.1)
  let made := (ks.filter (fun e => !e.2.poison && !f.depBad.contains e.1)).map (fun e => (e.1, depElem v d (f.arith d) 0 e.1 e.2))
  let failed := (made.filter (fun e => e.2.isNone)).map (·.1)
  let op : DepOp := if d.mode then .addI else if rKind v == 1 then .addF32 else .addF64
  let t := s.modFiring f.uid (fun x => { x with
    depFailed := (bad ++ failed).foldl addOnce x.depFailed, range := x.range || !failed.isEmpty, depPoison := x.depPoison || !bad.isEmpty })
  let lanes := (made.filterMap (·.2)).flatten
  if d.mode then t.askLines f (depByLine v d f.uid op (ks.map (·.1)) lanes)
  else t.askMemory f.uid (depRequests v d f.uid op (ks.map (·.1)) lanes)

/-- The writes of a DEPOSIT_INIT: zero to every byte that holds an element's value. -/
def State.depZero (s : State) (f : Firing) : State :=
  let d := f.desc
  let v := f.reg
  let ks := List.range d.count
  s.askMemory f.uid (depRequests v d f.uid .write ks (ks.flatMap (fun k =>
    let a := depAddr v d k
    (List.range (ceilDiv (rUsed v) 64)).map (fun j => { addr := a + 64 * j, bytes := List.replicate (min 64 (rUsed v - 64 * j)) 0 }))))

/-! ### GLAZE (R550) -/

/-- The key of an element that a GLAZE reads. -/
def glazeKey (uid k : Nat) : Nat := uid * 2 ^ 32 + k

/-- Address of word j of an element. -/
def wordAddr (v : Nat) (d : Desc) (k j : Nat) : Nat := depAddr v d k + 8 * j

/-- The read of word j. -/
def glazeRead (v : Nat) (f : Firing) (k j : Nat) : DepReq :=
  depReq f.uid .read (wordAddr v f.desc k j / 64) [k] (2 * j) []

/-- Starts the reads of a stripe's elements. -/
def State.depGlaze (s : State) (f : Firing) (lo n : Nat) : State :=
  s.askMemory f.uid ((upFrom lo n).map (fun k => glazeRead f.reg f k 0))

/-- The adds of a carry out of word j: in one request where both words lie on one line. The last carries the step. -/
def glazeCarry (v : Nat) (f : Firing) (k j : Nat) (c : Int) : List DepReq :=
  let lane (i : Nat) (x : Int) : DepLane := { addr := wordAddr v f.desc k i, bytes := leBytes 8 (ofSigned 64 x) }
  let l0 := lane j (-c * 2 ^ 48)
  let l1 := lane (j + 1) c
  if l0.addr / 64 = l1.addr / 64 then [depReq f.uid .addI (l0.addr / 64) [k] (2 * j + 1) [l0, l1]]
  else [depReq f.uid .addI (l0.addr / 64) [k] (2 * rWords v) [l0], depReq f.uid .addI (l1.addr / 64) [k] (2 * j + 1) [l1]]

/-- One answer OK of a GLAZE: the next operation on the element. -/
def State.glazeStep (s : State) (f : Firing) (r : DepReq) (data : BitVec 512) : State :=
  let v := f.reg
  let w := rWords v
  let k := r.elems.headD 0
  let j := r.step / 2
  if f.depBad.contains k || f.depFailed.contains k || w ≤ j then s
  else if r.step % 2 = 1 then s.askMemory f.uid [glazeRead v f k (j + 1)]
  else
    let x := toSigned 64 (slice data.toNat (8 * (wordAddr v f.desc k j % 64)) 64)
    let c := x / 2 ^ 48
    let keep := if j + 1 = w then x else x - c * 2 ^ 48
    let t := { s with dep := { s.dep with glaze := tmod [] s.dep.glaze (glazeKey f.uid k) (fun ws => ws ++ [keep]) } }
    if j + 1 = w then t
    else if c = 0 then t.askMemory f.uid [glazeRead v f k (j + 1)]
    else t.askMemory f.uid (glazeCarry v f k j c)

/-- Whether a GLAZE is done with an element. -/
def State.glazeDone (s : State) (f : Firing) (k : Nat) : Bool :=
  f.depBad.contains k || f.depFailed.contains k
    || (tget [] s.dep.glaze (glazeKey f.uid k)).length == rWords f.reg

/-- The value of an element that a GLAZE has read. -/
def State.glazeCell (s : State) (f : Firing) (k : Nat) : Cell :=
  let v := f.reg
  if f.depBad.contains k then { poison := true }
  else
    let a := ((numbered 0 (tget [] s.dep.glaze (glazeKey f.uid k))).map (fun (j, x) => x * 2 ^ (rWeight v + 48 * j + 2148).toNat)).foldl (· + ·) 0
    { val := some { sh := [{ fin := a }] } }

/-! ### Answers (R552) -/

/-- Takes the lanes of elements out of a request that is not yet issued. -/
def DepReq.without (r : DepReq) (v : Nat) (d : Desc) (ks : List Nat) : DepReq :=
  { r with mask := r.mask &&& ~~~(BitVec.ofNat 64 (ks.foldl (fun m k =>
      let a := depAddr v d k
      (List.range 64).foldl (fun m b => if a ≤ 64 * r.line + b ∧ 64 * r.line + b < a + rSize v then m ||| 2 ^ b else m) m) 0)) }

/-- No further operation is issued for elements of a firing. -/
def State.depDrop (s : State) (f : Firing) (ks : List Nat) : State :=
  let cut (r : DepReq) : DepReq := if r.uid == f.uid && r.op != .read then r.without f.reg f.desc ks else r
  let dead (r : DepReq) : Bool := r.uid == f.uid && ((r.op == .read && r.elems.all ks.contains) || (r.op != .read && r.mask == 0))
  let q := s.dep.queue.map cut
  let left := q.filter (fun r => !dead r)
  ({ s with dep := { s.dep with
      queue := left, parts := s.dep.parts.map cut,
      since := if left.isEmpty then none else if q.head?.any dead then some s.time else s.dep.since } }).modFiring f.uid (fun x =>
    { x with depLeft := x.depLeft - (q.filter dead).length })

/-- The lowest identifier that no outstanding request has. -/
def Deposit.freeId (d : Deposit) : Option Nat := (List.range 256).find? (fun i => d.flying.all (fun r => r.id != i))

/-- The elements that an answer concerns: all of the firing's that lie on the line. -/
def Firing.onLine (f : Firing) (r : DepReq) : List Nat := lineElems f.reg f.desc f.depCount r.line

/-- An exact region's initialisation bits of the blocks of some elements are clear after an error in a DEPOSIT_INIT. -/
def State.clearInitBits (s : State) (f : Firing) (ks : List Nat) : State :=
  if f.isInit && rKind f.reg == 3 && regionKept f.region (s.regionEntry f.desc.depRegion) then
    s.modCfg (fun c => { c with depInit := c.depInit.filter (fun b =>
      b.1 != f.desc.depRegion || !ks.any (fun k => (f.desc.depIndex + k) / 64 == b.2)) })
  else s

/-- An answer to a request of a firing that still runs. -/
def State.depAnswer (s : State) (f : Firing) (r : DepReq) (code : DepCode) (data : BitVec 512) : State :=
  let ks := f.onLine r
  let t := s.modFiring f.uid (fun x => { x with depLeft := x.depLeft - 1 })
  match code with
  | .ok => if f.isGlaze then t.glazeStep f r data else t
  | .mappedOut =>
    t.modFiring f.uid (fun x => { x with
      depFailed := ks.foldl addOnce x.depFailed, depMapped := ks.foldl addOnce x.depMapped, range := true })
  | .dataError =>
    let t := if f.depBad.isEmpty then
        t.fault { kind := 0x13, fn := f.fn.toNat, group := f.group, saggar := f.saggar, status := stFault.toNat } [f.saggar]
      else t
    let t := t.modFiring f.uid (fun x => { x with
      depBad := ks.foldl addOnce x.depBad
      depPoison := x.depPoison || !f.isGlaze
      depFailed := if f.isAdd then ks.foldl addOnce x.depFailed else x.depFailed })
    if f.isAdd then t.depDrop f ks else t.clearInitBits f ks

/-- The blocks of 64 elements that a DEPOSIT_INIT has zeroed whole (R551, R552). -/
def Firing.initBlocks (f : Firing) : List Nat :=
  let d := f.desc
  (upFrom (d.depIndex / 64) (ceilDiv d.count 64)).filter (fun b =>
    !(f.depBad ++ f.depFailed).any (fun k => (d.depIndex + k) / 64 == b))

end Sys2Proof.Machine
end

