-- ==== Sys2Proof/Machine/Arming.lean ====
section
/-! DEFINITION. Arming: the merging of ARMs (R294, R295, R298, R483), what the kiln makes of them (R296, R304, R305, R318,
R321, R404, R413, R485), and messages on their way down (R296, R395). -/

namespace Sys2Proof.Machine
open Sys2Proof

/-! ### Merging (R298, R305) -/

/-- The lower of two indices that 0xFFFF marks as absent, with what belongs to each. -/
def lowerOf {α : Type} (a b : BitVec 16 × α) : BitVec 16 × α := if b.1.toNat < a.1.toNat then b else a

/-- Two ARMs of one position merged, `b` arriving after `a`. -/
def mergeArm (a b : Arm) : Arm :=
  let swap := decide (b.refIx.toNat < a.refIx.toNat)
  let ref := if swap then b else a
  let oth := if swap then a else b
  let differs : BitVec 16 × BitVec 8 :=
    if ref.digest != oth.digest then (oth.refIx, BitVec.ofNat 8 (splitCodeOf ref.checks oth.checks)) else (0xFFFF, 0x61)
  let split := lowerOf (lowerOf (a.splitIx, a.splitCode) (b.splitIx, b.splitCode)) differs
  let inv := lowerOf (a.invalidIx, a.invalidCode) (b.invalidIx, b.invalidCode)
  { ref with
    splitIx := split.1, splitCode := split.2, invalidIx := inv.1, invalidCode := inv.2,
    deniedIx := (lowerOf (a.deniedIx, ()) (b.deniedIx, ())).1, nwIx := (lowerOf (a.nwIx, ()) (b.nwIx, ())).1,
    denied := a.denied || b.denied, nw := a.nw || b.nw, invalid := a.invalid || b.invalid,
    mshipSplit := a.mshipSplit || b.mshipSplit || a.mship != b.mship, last := b.last, valid := 0, who := a.who ++ b.who }

/-! ### Group records (R483) -/

/-- A group's record at a node, from the active tables; none for a group active in no saggar. -/
def State.groupRec (s : State) (q g : Nat) : Option GroupRec :=
  if (s.cfg.groupSaggar g).isSome then
    some { group := g, digest := mshipDigest g (s.cfg.members g),
           inputs := sortRise (((s.cfg.memberLeaves g).filter (below q)).map (inputOf q)) }
  else none

/-- The record used for a group: from the cache, or fetched, the least recently used of 64 leaving. -/
def useRec (cache : List GroupRec) (fresh : Option GroupRec) (g : Nat) : Option GroupRec × List GroupRec :=
  match cache.find? (fun r => r.group == g) with
  | some r => (some r, r :: cache.filter (fun x => x.group != g))
  | none => match fresh with
    | some r => (some r, (r :: cache).take 64)
    | none => (none, cache)

/-- The members of a group whose ARMs are counted (R295, R470). -/
def State.expected (s : State) (g : Nat) : List Nat := (s.cfg.memberLeaves g).filter (s.cfg.groupHas g)

/-- Whether nothing is left to arm below an input: it has armed, or every member below it is failed (R403) or foreign. -/
def State.inputDone (s : State) (q g input : Nat) (armed : List Nat) : Bool :=
  armed.contains input
    || (let ls := (s.cfg.memberLeaves g).filter (fun l => below q l && inputOf q l == input)
        !ls.isEmpty && ls.all (fun l => s.kiln.failedLeaves.contains l || !s.cfg.groupHas g l))

/-- The firing at a position. -/
def State.posAt (s : State) (g ord : Nat) : Option Firing := s.kiln.firings.find? (fun f => f.group == g && f.ord == ord)

/-- Whether a position has ended, or has closed since. -/
def State.posOver (s : State) (g ord : Nat) : Bool :=
  match s.posAt g ord with
  | some f => f.st == .ended
  | none => decide (ord < (s.groupRun g).nextOrd)

/-! ### Positions at the kiln -/

/-- Whether a configuration entry that a group rests on is lost (R413): a word of the global set, the group's entry, or
another word of its saggar's set or quota. -/
def Config.lostFor (c : Config) (g : Nat) : Bool :=
  let k := c.groupSaggar g
  c.lost.any (fun w => !w.shadow && (match w.set with
    | none => w.table != 0x12 || some w.index == k
    | some x => some x == k && (w.table != 1 || w.index == g)))

/-- What ends a position at its first ARM: a lost entry, a failed member, the fence, a broken group (R297, R404, R413, R485). -/
def State.firstArmEnd (s : State) (g : Nat) : Option (BitVec 8 × Nat × Nat) :=
  let r := s.groupRun g
  if s.cfg.lostFor g || (r.broken && r.reason == 3) then some (stFault, 0xFFFF, clTableLost.toNat)
  else match (s.cfg.members g).find? (fun x => s.kiln.failedLeaves.contains (s.cfg.leafOf x)) with
  | some x => some (stFault, x, clLeafFailed.toNat)
  | none =>
    if r.fenced then some (stAborted, 0xFFFF, 0)
    else if r.broken then some (stMismatch, r.badRank, 0x60)
    else none

/-- A position opens: the firing enters ARMING under the active group entry (R292, R314). -/
def State.newFiring (s : State) (g ord sag : Nat) : Firing :=
  let ls := s.cfg.memberLeaves g
  { uid := s.kiln.nextUid, group := g, ord := ord, seq := BitVec.ofNat 32 ord, saggar := sag, expected := s.expected g, leaves := ls,
    ranks := ls.map s.cfg.rankOf, ragged := gRagged (s.cfg.groupEntry g), service := !s.diagnostic, firstArm := s.time,
    coneEnd := s.time + BitVec.ofNat 64 (1000 * gCone (s.cfg.groupEntry g)) }

/-- Opens a position if it is not open; its number. A position opened on a group that cannot run ends at once. -/
def State.position (s : State) (g ord : Nat) : Option (State × Nat) :=
  match s.posAt g ord with
  | some f => some (s, f.uid)
  | none => match s.cfg.groupSaggar g with
    | none => none
    | some k =>
      let f := s.newFiring g ord k
      some (s.modKiln (fun x => { x with firings := x.firings ++ [f], nextUid := x.nextUid + 1 }), f.uid)

/-- Leaves counted as having armed a position. -/
def State.noteArmed (s : State) (uid : Nat) (ls : List Nat) : State :=
  s.modFiring uid (fun f => { f with armedBy := ls.foldl addOnce f.armedBy })

/-- The leaves that have armed a position, as the records of its cluster nodes show them (R298). -/
def State.armedBelow (s : State) (g ord : Nat) : List Nat :=
  (sortRise ((s.cfg.memberLeaves g).map leafQ)).flatMap (fun q =>
    match (s.ctlNode (nodeIx q true 0)).pos.find? (fun p => p.group == g && p.ord == ord) with
    | some p => p.armed.map (childLeaf q)
    | none => [])

/-- The 88 bytes of an ARM (Table 9.2). -/
def Arm.word (a : Arm) : BitVec 704 :=
  BitVec.ofNat 704 (at' a.mship.toNat 640 + at' (ofLe (a.checks.take 48)) 256 + at' a.digest.toNat 192 + at' a.valid.toNat 160
    + at' a.splitCode.toNat 152 + at' a.last.toNat 128 + at' a.deniedIx.toNat 112 + at' a.nwIx.toNat 96 + at' a.invalidIx.toNat 80
    + at' a.splitIx.toNat 64 + at' a.refIx.toNat 48 + at' (a.group % 2 ^ 20) 16 + at' a.invalidCode.toNat 8 + at' (b2n a.denied) 6
    + at' (b2n a.nw) 5 + at' (b2n a.invalid) 4 + at' (b2n a.mshipSplit) 3 + at' (b2n a.late) 2 + at' (b2n a.reset) 1 + b2n a.abort)

/-! ### ARM_MERGE -/

/-- The first ARM that waits at an input. -/
def takeInput (input : Nat) : List (Nat × Arm) → Option (Arm × List (Nat × Arm))
  | [] => none
  | e :: es =>
    if e.1 = input then some (e.2, es)
    else match takeInput input es with
      | some (a, r) => some (a, e :: r)
      | none => none

/-- A node sends an ARM towards the kiln. -/
def State.armUp (s : State) (q : Nat) (a : Arm) : State :=
  if q < 33 then
    (s.modCtl (nodeIx q true 0) (fun n => n.signal .up n.stat (leBytes 88 a.word.toNat))).modKiln (fun k => { k with inq := k.inq ++ [(q - 1, a)] })
  else s.modCtl (nodeIx (parentQ q).1 true 0) (fun n => { n with inq := n.inq ++ [((parentQ q).2, a)] })

/-- The first ARM of a position goes on its way to the kiln while the nodes merge (Table 9.1 ARMING, R315, R321; assumption log 9). A
later one, once the kiln knows the position, is noted in its record of who has armed (R298). -/
def State.noteFirst (s : State) (q : Nat) (a : Arm) (opens : Bool) : State :=
  if s.posOver a.group a.ord then s
  else match s.posAt a.group a.ord with
  | some f => s.noteArmed f.uid (a.who.map (·.1))
  | none => if opens then s.armUp q { a with first := true } else s

/-- A position at a node takes an input; `a` is none for an abort ARM, which is not merged. -/
def CtlNode.arm (n : CtlNode) (g ord input : Nat) (a : Arm) (merge : Bool) : CtlNode :=
  if n.pos.any (fun p => p.group == g && p.ord == ord) then
    { n with
      pos := modFirst (fun p => p.group == g && p.ord == ord) (fun p => { p with
        armed := addOnce p.armed input
        arm := if merge then (if p.arm.who.isEmpty then a else mergeArm p.arm a) else p.arm }) n.pos }
  else { n with pos := n.pos ++ [{ group := g, ord := ord, armed := [input], arm := if merge then a else { group := g, ord := ord } }] }

/-- A node forwards a position's merged ARM once nothing is left to arm below it. Only a leaf's own ARM carries a valid count
(Table 9.2). -/
def State.forward (s : State) (q g ord : Nat) (r : GroupRec) : State :=
  match (s.ctlNode (nodeIx q true 0)).pos.find? (fun p => p.group == g && p.ord == ord) with
  | none => s
  | some p =>
    if r.inputs.all (fun i => s.inputDone q g i p.armed) && !p.arm.who.isEmpty then
      s.armUp q { p.arm with valid := 0, mship := r.digest, mshipSplit := p.arm.mshipSplit || (decide (q < 33) && p.arm.mship != r.digest) }
    else s

/-- An ARM that names a group outside the leaf's saggars or without the leaf's rank (R295, R470). -/
def State.foreignArm (s : State) (r : Option GroupRec) (q g input : Nat) : Bool :=
  match r with
  | none => true
  | some x => !x.inputs.contains input
      || (match s.cfg.groupSaggar g with
          | some k => !(s.cfg.active.leafSaggars (childLeaf q input)).contains k
          | none => true)

/-- A counted ARM at a node: late and abort ARMs go on at once, others are merged; at a die node one that meets the end of its
position on the way needs no merging. -/
def State.armCounted (s : State) (q input : Nat) (r : GroupRec) (a : Arm) : State :=
  let ix := nodeIx q true 0
  if (s.ctlNode ix).ended.contains (a.group, a.ord) then s.armUp q { a with late := true }
  else if q < 33 && s.posOver a.group a.ord then s.armUp q a
  else if a.abort then (s.modCtl ix (fun n => n.arm a.group a.ord input a false)).armUp q a
  else
    let opens := !(s.ctlNode ix).pos.any (fun p => p.group == a.group && p.ord == a.ord)
    let t := s.modCtl ix (fun n => n.arm a.group a.ord input a true)
    (if 33 ≤ q then t.noteFirst q a opens else t).forward q a.group a.ord r

/-- Positions known ended are forgotten once every input has armed them. -/
def CtlNode.forget (n : CtlNode) (g base : Nat) (inputs : List Nat) : CtlNode :=
  { n with ended := n.ended.filter (fun e => e.1 != g || inputs.any (fun i => decide (base + tget 0 n.counts (64 * g + i) ≤ e.2))) }

/-- An ARM taken from an input of a node. -/
def State.armAt (s : State) (q input : Nat) (a : Arm) : State :=
  let ix := nodeIx q true 0
  if a.reset || a.foreign || a.late || a.first then s.armUp q a
  else
    let (r, cache) := useRec (s.ctlNode ix).cache (s.groupRec q a.group) a.group
    let t := s.modCtl ix (fun n => { n with cache := cache })
    match r with
    | none => t.armUp q { a with foreign := true }
    | some x =>
      if 33 ≤ q then
        if t.foreignArm r q a.group input then t.armUp q { a with foreign := true }
        else
          let key := 64 * a.group + input
          let base := (t.groupRun a.group).base
          let ord := base + tget 0 (t.ctlNode ix).counts key
          ((t.modCtl ix (fun n => { n with counts := tmod 0 n.counts key (· + 1) })).armCounted q input x { a with ord := ord }).modCtl ix
            (fun n => n.forget a.group base x.inputs)
      else t.armCounted q input x a

/-- One waiting ARM of an input merged. -/
def State.mergeOne (s : State) (q input : Nat) : State :=
  match takeInput input (s.ctlNode (nodeIx q true 0)).inq with
  | none => s
  | some (a, rest) => (s.modCtl (nodeIx q true 0) (fun n => { n with inq := rest })).armAt q input a

/-- Whether a node index names a control-path node below the kiln. -/
def isCtlIx (ix : Nat) : Bool := ix % 8 == 4 && decide (1 ≤ qOf ix)

/-- ARM_MERGE at a cluster node or die node. -/
def execArmMerge (node input : Nat) (s : State) : Host.Outcome State Fault Refusal :=
  if isCtlIx node && !(s.ctlNode node).stat.pairOut then .next (s.mergeOne (qOf node) input) else .next s

/-! ### Checks at the kiln -/

/-- The rank of an index, by the rank map active now (R304). -/
def State.rankIx (s : State) (ix : BitVec 16) : Nat := s.cfg.rankOf ix.toNat

/-- Checks 1 to 6 of R304, and what R415 makes invalid in a DEPOSIT_INIT. -/
def State.armChecks (s : State) (f : Firing) : Option (BitVec 8 × Nat × Nat) :=
  let a := f.arm
  let d := f.desc
  if a.invalid then some (stMismatch, s.rankIx a.invalidIx, a.invalidCode.toNat)
  else if s.depInvalid f then some (stMismatch, s.rankIx a.refIx, 0x29)
  else if a.mshipSplit || a.mship != mshipDigest f.group (s.cfg.members f.group) then some (stMismatch, 0xFFFF, 0x60)
  else if a.splitIx != 0xFFFF then some (stMismatch, s.rankIx a.splitIx, a.splitCode.toNat)
  else if hasRoot d.kind && !f.ranks.contains d.root then some (stMismatch, s.rankIx a.refIx, 0x12)
  else if d.preEn && !f.ranks.contains d.preRank then some (stMismatch, s.rankIx a.refIx, 0x16)
  else if a.nw then some (stNeverWritten, s.rankIx a.nwIx, 0)
  else if a.denied then some (stDenied, s.rankIx a.deniedIx, 0)
  else none

/-- The arming counters of a completed arming (R321, Table 9.6). -/
def State.chargeLag (s : State) (f : Firing) : State :=
  let lag := (s.time - f.firstArm).toNat
  let l := f.arm.last.toNat
  (s.modLeaf l (fun p => { p with
    armLast := satInc p.armLast, lagSum := satAdd p.lagSum lag,
    lagMax := if p.lagMax.toNat < lag then (if lag < 2 ^ 32 then BitVec.ofNat 32 lag else BitVec.allOnes 32) else p.lagMax })).modGroup
    f.group (fun g => { g with slowRank := BitVec.ofNat 16 (s.cfg.rankOf l),
                               slowLag := if lag < 2 ^ 32 then BitVec.ofNat 32 lag else BitVec.allOnes 32 })

/-- Arming completes: the counters, checks 1 to 6, and the admission queue (R304, R307). -/
def State.armComplete (s : State) (uid : Nat) : State :=
  match s.firing? uid with
  | none => s
  | some f =>
    let t := s.chargeLag f
    match t.armChecks f with
    | some (st, r, c) => t.decideEnd uid st r c
    | none => ((t.modFiring uid (fun x => { x with st := .armed, armedAt := t.kiln.armCount, bornFn := t.kiln.lastFn })).modKiln
        (fun k => { k with armCount := k.armCount + 1 })).offer

/-- The first ARM of a position reaches the kiln: the firing enters ARMING, its cone starts, and the records of the nodes below tell
who has armed it by now (Table 9.1, R314, R321). -/
def State.armFirst (s : State) (a : Arm) : State :=
  if s.posOver a.group a.ord then s
  else match s.position a.group a.ord with
  | none => s
  | some (t, uid) =>
    let t := t.noteArmed uid (a.who.map (·.1) ++ s.armedBelow a.group a.ord)
    match (if (s.posAt a.group a.ord).isNone then t.firstArmEnd a.group else none) with
    | some (st, r, c) => t.decideEnd uid st r c
    | none => t

/-- A merged ARM at the kiln. -/
def State.armMerged (s : State) (input : Nat) (a : Arm) : State :=
  match s.position a.group a.ord with
  | none => s
  | some (t, uid) =>
    let opened := (s.posAt a.group a.ord).isNone
    let t := t.noteArmed uid (a.who.map (·.1) ++ s.armedBelow a.group a.ord)
    match t.firing? uid with
    | none => t
    | some f =>
      if f.st == .ended then t.closePositions
      else if f.cause.isSome then t
      else match (if opened then t.firstArmEnd a.group else none) with
      | some (st, r, c) => t.decideEnd uid st r c
      | none =>
        let (r, cache) := useRec t.kiln.cache (t.groupRec 0 a.group) a.group
        let t := (t.modKiln (fun k => { k with cache := cache })).modFiring uid (fun x => { x with
          arm := if x.arm.who.isEmpty then a else mergeArm x.arm a, armedIn := addOnce x.armedIn input })
        let armed := addOnce f.armedIn input
        if (match r with
            | some x => x.inputs.all (fun i => t.inputDone 0 a.group i armed)
            | none => false) then t.armComplete uid
        else t

/-- An abort ARM: it fills its position and ends it with ABORTED, naming the leaf's rank (R318). -/
def State.armAborts (s : State) (a : Arm) : State :=
  match s.position a.group a.ord with
  | none => s
  | some (t, uid) =>
    ((t.noteArmed uid (a.who.map (·.1) ++ s.armedBelow a.group a.ord)).decideEnd uid stAborted (s.rankIx a.refIx) 0).closePositions

/-- Positions that a leaf has armed and that have not ended, as the control nodes above it hold them (R298, R318). -/
def State.nodePositions (s : State) (l : Nat) : List (Nat × Nat) :=
  ((s.ctlNode (leafCtl l)).pos.filter (fun p => p.armed.contains (inputOf (leafQ l) l))).map (fun p => (p.group, p.ord))

/-- The reset ARM: every unended firing that the leaf has armed ends with ABORTED, naming its rank in that firing (R318, R59). -/
def State.armResets (s : State) (l : Nat) : State :=
  let t := (s.nodePositions l).foldl (fun a p =>
    if a.posOver p.1 p.2 then a
    else match a.position p.1 p.2 with
    | some (b, uid) => b.noteArmed uid (l :: s.armedBelow p.1 p.2)
    | none => a) s
  (t.kiln.firings.filter (fun f => f.st != .ended && f.armedBy.contains l)).foldl
    (fun a f => a.decideEnd f.uid stAborted (f.rankOf l) 0) t

/-- A late ARM: each of its leaves gets the ended firing's status and detail (R296). -/
def State.armLate (s : State) (a : Arm) : State :=
  match s.posAt a.group a.ord with
  | none => s
  | some f => match f.endMsg with
    | none => s
    | some e =>
      (((a.who.map (·.1)).foldl (fun b l => b.answerLeaf l { e with digest := 0, drop := 0, scale := 0, undef := false }) s).noteArmed f.uid
        (a.who.map (·.1))).closePositions

/-- A foreign ARM: DENIED, naming the leaf's rank, to that leaf alone (R295). -/
def State.armForeign (s : State) (a : Arm) : State :=
  a.who.foldl (fun b e => b.answerLeaf e.1
    { ts := s.time, group := BitVec.ofNat 20 a.group, rank := BitVec.ofNat 16 (s.cfg.rankOf e.1), status := stDenied }) s

/-- ARM_AT_KILN. -/
def execArmAtKiln (input : Nat) (s : State) : Host.Outcome State Fault Refusal :=
  if (s.ctlNode (nodeIx 0 true 0)).stat.pairOut then .next s
  else match takeInput input s.kiln.inq with
  | none => .next s
  | some (a, rest) =>
    let t := s.modKiln (fun k => { k with inq := rest })
    if a.reset then .next (t.armResets a.refIx.toNat).offer
    else if a.foreign then .next (t.armForeign a)
    else if a.ord < (t.groupRun a.group).base || ((t.posAt a.group a.ord).isNone && t.posOver a.group a.ord) then .next t
    else if a.late then .next (t.armLate a)
    else if a.first then .next (t.armFirst a).offer
    else if a.abort then .next (t.armAborts a).offer
    else .next (t.armMerged input a).offer

/-! ### Messages on their way down -/

/-- The datapath slots of planes that a GRANT no longer names are released at a node position (R395). -/
def State.releaseSlots (s : State) (q : Nat) (g : GrantMsg) : State :=
  ((List.range 4).filter (fun p => !bitOf g.planes.toNat p)).foldl (fun a p => a.modNode (nodeIx q false p) (fun n =>
    { n with slots := n.slots.filter (fun y => y.setter != g.setter.toNat),
             outUp := n.outUp.filter (fun c => c.flit.setter != g.setter),
             outDown := n.outDown.filter (fun e => e.2.flit.setter != g.setter) })) s

/-- ARMs of a group that wait at a node are merged before an end of that group passes it. -/
def State.mergeWaiting : Nat → Nat → Nat → State → State
  | 0, _, _, s => s
  | fuel + 1, q, g, s => match (s.ctlNode (nodeIx q true 0)).inq.find? (fun e => e.2.group == g && !e.2.reset) with
    | none => s
    | some e => mergeWaiting fuel q g (s.mergeOne q e.1)

/-- An end without a grant passes a node: the position is ended there. The inputs that had armed it, and the state. -/
def State.endPasses (s : State) (q : Nat) (e : EndMsg) : List Nat × State :=
  let ix := nodeIx q true 0
  let g := e.group.toNat
  let t := State.mergeWaiting (s.ctlNode ix).inq.length q g s
  let p := (t.ctlNode ix).pos.find? (fun p => p.group == g && p.ord == e.ord)
  let who := match p with
    | some x => x.arm.who.map (·.1) ++ (if 33 ≤ q then x.armed.map (childLeaf q) else [])
    | none => []
  let t := t.modCtl ix (fun n => { n with pos := n.pos.filter (fun p => !(p.group == g && p.ord == e.ord)) })
  let t := match t.posAt g e.ord with
    | some f => t.noteArmed f.uid who
    | none => t
  let ins := match t.groupRec q g with
    | some r => r.inputs
    | none => []
  let base := (t.groupRun g).base
  let t := if 33 ≤ q && decide (base ≤ e.ord) then (t.modCtl ix (fun n => { n with ended := n.ended ++ [(g, e.ord)] })).modCtl ix
    (fun n => n.forget g base ins) else t
  (match p with
    | some x => x.armed
    | none => [], t.closePositions)

/-- A node keeps nothing of a position that has run and ended (R298). -/
def State.forgetPos (s : State) (ix : Nat) (e : EndMsg) : State :=
  s.modCtl ix (fun n => { n with pos := n.pos.filter (fun p => !(p.group == e.group.toNat && p.ord == e.ord)) })

/-- A node copies a message to the nodes or leaf ports below it that lead to its leaves. -/
def State.copyDown (s : State) (q : Nat) (m : CtlMsg) : State :=
  if q < 33 then
    (sortRise (m.dst.map leafQ)).foldl (fun a c => a.modCtl (nodeIx c true 0) (fun n =>
      { n with downq := n.downq ++ [m.withDst (m.dst.filter (fun l => leafQ l == c))] })) s
  else m.dst.foldl (fun a l => a.modLeaf l (fun p => { p with inbox := p.inbox ++ [m] })) s

/-- CONTROL_PATH_DOWNWARD_MESSAGE: the oldest message at a node. The die node marks a release with its epoch (R356). -/
def execControlPathDownwardMessage (node : Nat) (s : State) : Host.Outcome State Fault Refusal :=
  if !isCtlIx node || (s.ctlNode node).stat.pairOut then .next s
  else match (s.ctlNode node).downq with
  | [] => .next s
  | m :: ms =>
    let q := qOf node
    let t := s.modCtl node (fun n => { n with downq := ms })
    match m with
    | .grant g d => .next ((t.releaseSlots q g).copyDown q (.grant g d))
    | .release e d ep =>
      .next ((t.forgetPos node e).copyDown q (.release e d (if q < 33 then (s.die (q - 1)).epoch else ep)))
    | .done e d =>
      if e.noGrant && e.target == 0xFFFF then
        let (armed, u) := t.endPasses q e
        .next (u.copyDown q (.done e (if 33 ≤ q then d.filter (fun l => armed.contains (inputOf q l)) else d)))
      else .next ((if e.noGrant then t else t.forgetPos node e).copyDown q (.done e d))

end Sys2Proof.Machine
end

