-- ==== Sys2Proof/Machine/Sending.lean ====
section
/-! DEFINITION. What a leaf port sends of a firing: the flits of each stripe (R72, R126, R155, R156, R175, R199 to R201, R221 to
R227, R239 to R242, R282), and the dealing of them to its plane links. -/

namespace Sys2Proof.Machine
open Sys2Proof

/-! ### Staged bytes -/

/-- The first chunk index and the range of an input area of a segment. -/
def Taken.input (t : Taken) (c : Nat) (area : Area) (seg : Nat) : Option (Nat × Range) :=
  (t.areas c).find? (fun e => e.2.input && e.2.area == area && e.2.seg == seg)

/-- Bytes lo to lo + n − 1 of an input area with whether each lies in a failed chunk; none while a chunk of them has not been
read (R271). -/
def Taken.staged (t : Taken) (c : Nat) (area : Area) (seg lo n : Nat) : Option (List (Byte × Bool)) :=
  if n = 0 then some []
  else match t.input c area seg with
  | none => some (List.replicate n (0, false))
  | some (first, r) =>
    let n := min n (r.len - lo)
    let ixs := upFrom (first + lo / c) (ceilDiv (lo + n) c - lo / c)
    let found := ixs.map (fun ix => t.chunks.find? (fun x => x.ix == ix))
    if found.any (·.isNone) then none
    else
      let all := (found.map (fun o => match o with
        | some x => match x.data with
          | some bs => bs.map (fun b => (b, false))
          | none => List.replicate c ((0 : Byte), true)
        | none => [])).flatten
      some ((all.drop (lo - lo / c * c)).take n)

/-- Whether any of some bytes lies in a failed chunk. -/
def anyBad (bs : List (Byte × Bool)) : Bool := bs.any (·.2)

/-- Whole elements of `w` bytes. -/
def elemsOf (w : Nat) (bs : List (Byte × Bool)) : List (List (Byte × Bool)) := piecesOf w bs

/-- The encodings of an element's components. -/
def rawOf (fmt : Nat) (bs : List (Byte × Bool)) : List Nat := (piecesOf (compWidth fmt) (bs.map (·.1))).map ofLe

/-- A poisoned flit has a zero payload (R282, R406). -/
def Packed.zeroed (p : Packed) : Packed := if p.poison then { p with payload := payload64 [] } else p

/-- The flits of one exact element; a poisoned one is a single flit. -/
def exactFlits (c : Cell) : List Packed :=
  if c.poison then [{ type := 0x02, payload := payload64 [], sherds := 1, poison := true }]
  else (packExact c.val).map (fun p => { type := p.1, payload := p.2.1, sherds := p.2.2 })

/-- Runs of elements as flits of a link form. -/
def formFlits (a : Arith) (f : LinkForm) (cs : List Cell) : List Packed :=
  match f with
  | .sherds _ => (cs.map exactFlits).flatten
  | _ => (packRun a f cs).map Packed.zeroed

/-! ### The stripes of a member -/

/-- A member's valid count (R239, R244). -/
def Taken.valid (t : Taken) : Nat := validCount t.desc t.pad t.probe

/-- The settings of a part at the current attempt. -/
def Taken.arith (t : Taken) (d : Desc) : Arith := arithOf d t.attempt.toNat t.fn.toNat t.seq.toNat

/-- The descriptor of a segment. -/
def Taken.part (t : Taken) (seg : Nat) : Desc := (parts t.desc t.segs).getD seg t.desc

/-- The stripes of a taken firing. Those of a COUNT firing are cut from the concatenated result, whose length phase 1 has told
(R242). -/
def Taken.stripes (t : Taken) : List Stripe :=
  if countRules t.desc t.ragged then
    let total := (t.counts.headD (0, 0)).1 * t.desc.b
    (List.range (ceilDiv total 4096)).map (fun s =>
      { ix := s, seg := 0, lo := 4096 * s, hi := min total (4096 * (s + 1)), lastOfSeg := s + 1 == ceilDiv total 4096 })
  else stripesOf t.desc t.segs t.pad

/-- The value of a bisque source, as the i-th element of a contribution (R175). -/
def bisqueElem (p : LeafPort) (a : Arith) (d : Desc) (i : Nat) : Cell :=
  match d.bisques[i]? with
  | none => {}
  | some j =>
    let b := tget {} p.bisque j
    if b.st == .held then { val := some { sh := b.val :: List.replicate a.w sherdNegZero } } else {}

/-- What a member has read: the flits of a stripe and whether a sherd was not well formed (R116). -/
abbrev StripeFlits := List Packed × Bool

/-- Contribution of a reducing member, elements lo to hi − 1 (R72, R155, R175, R240). -/
def reduceFlits (p : LeafPort) (t : Taken) (d : Desc) (st : Stripe) : Option StripeFlits :=
  let a := t.arith d
  let vc := if t.pad then t.valid else d.count
  let top := max st.lo (min st.hi vc)
  if d.srcBisque != 0 then some (((upFrom st.lo (st.hi - st.lo)).map (fun i => exactFlits (bisqueElem p a d i))).flatten, false)
  else match t.staged p.chunk .src st.seg (st.lo * d.b) ((top - st.lo) * d.b) with
  | none => none
  | some bs =>
    if a.isExact then
      some ((((elemsOf d.b bs).map (fun e => exactFlits { val := some (exactElem a (rawOf d.inF e)), poison := anyBad e }))
        ++ List.replicate (st.hi - top) (exactFlits {})).flatten, false)
    else some ((packBytes 0x01 (bs ++ List.replicate ((st.hi - top) * d.b) (0, false))).map Packed.zeroed, false)

/-- Member values of DOT (R136 to R138, R153, R221, R222). A dot product of length 0 is absent (R138), and no encoding marks absence on
the leaf-port link (R128): its lane carries the absent encoding of the entry type, and the cluster node reads it back as absent
(DEDUCED, assumption log 94). -/
def dotFlits (p : LeafPort) (t : Taken) (d : Desc) (st : Stripe) : Option StripeFlits :=
  let a := t.arith d
  let w := d.vecLen * d.b
  let n := (st.hi - st.lo) * w
  match t.staged p.chunk .src 0 (st.lo * w) n, t.staged p.chunk .src2 0 (st.lo * w) n with
  | some x, some y =>
    let cell (i : Nat) : Cell :=
      let xe := (x.drop (i * w)).take w
      let ye := (y.drop (i * w)).take w
      { dotCell a (List.zip (rawOf d.inF xe) (rawOf d.inF ye)) with poison := anyBad xe || anyBad ye }
    let cs := (List.range (st.hi - st.lo)).map cell
    some (formFlits a (a.upForm 0) cs, cs.any (·.range))
  | _, _ => none

/-- Elements of a sherd stream from its start, as far as they have been read: the first `n` elements. Every element behind a
failed chunk cannot be found and is poisoned. At a sherd that is not well formed the reading ends, even where its header alone shows
it: the rest goes out as absent, for the firing ends with RANGE and its results are undefined (R116, R170). -/
def streamCells (per n : Nat) (bs : List (Byte × Bool)) : List Cell × Bool :=
  let good := (bs.takeWhile (fun b => !b.2)).map (·.1)
  let rec go : Nat → List Byte → List Cell × Bool
    | 0, _ => ([], false)
    | k + 1, r =>
      if r.length < 8 then ({ poison := true } :: (go k []).1, (go k []).2)
      else if numAt r 0 8 = absentHeader then
        let (cs, b) := go k (r.drop 8)
        ({} :: cs, b)
      else
        match readSherds per r with
        | none => (List.replicate (k + 1) {}, true)
        | some none => ({ poison := true } :: (go k []).1, (go k []).2)
        | some (some (ss, rest)) =>
          let (cs, b) := go k rest
          ({ val := some { sh := ss } } :: cs, b)
  go n good

/-- Bytes of an area that have been read, from its start. -/
def Taken.readSoFar (t : Taken) (c : Nat) (area : Area) : List (Byte × Bool) :=
  match t.input c area 0 with
  | none => []
  | some (first, r) =>
    let mine := (List.range (chunksIn c r)).map (fun j => t.chunks.find? (fun x => x.ix == first + j))
    ((mine.takeWhile (·.isSome)).map (fun o => match o with
      | some x => match x.data with
        | some bs => bs.map (fun b => (b, false))
        | none => List.replicate c ((0 : Byte), true)
      | none => [])).flatten

/-- Whether enough of a sherd stream has been read for its first `n` elements. -/
def Taken.streamReady (t : Taken) (c : Nat) (area : Area) (per n : Nat) : Bool :=
  match t.input c area 0 with
  | none => true
  | some (_, r) =>
    let bs := t.readSoFar c area
    decide (bs.length ≥ r.len) || anyBad bs || !((streamCells per n bs).1.any (·.poison)) || (streamCells per n bs).2

/-- The partials that the root of a COMBINE sends (R170, R223). -/
def combineFlits (p : LeafPort) (t : Taken) (d : Desc) (st : Stripe) : Option StripeFlits :=
  let a := t.arith d
  if a.isExact then
    if !t.streamReady p.chunk .src a.sherds st.hi then none
    else
      let (cs, bad) := streamCells a.sherds st.hi (t.readSoFar p.chunk .src)
      some (((cs.drop st.lo).map exactFlits).flatten, bad)
  else
    let w := a.partialSize
    match t.staged p.chunk .src 0 (st.lo * w) ((st.hi - st.lo) * w) with
    | none => none
    | some bs =>
      some (formFlits a (a.upForm 0) ((elemsOf w bs).map (fun e => { val := readPartial a (e.map (·.1)), poison := anyBad e })), false)

/-- Elements in one flit of the LOC layout with values of `w` bytes (Table 4.2). -/
def locPer (w : Nat) : Nat := 64 / (w + 2)

/-- Flits in the LOC layout: values, and 16-bit ranks or records beside them. Lanes past the last element are zero (assumption
log 91). -/
def locFlits (type : BitVec 8) (w : Nat) (xs : List (List Byte × List Byte × Bool)) : List Packed :=
  (piecesOf (locPer w) xs).map (fun g => Packed.zeroed
    { type := type, payload := payload64 (padTo (locPer w * w) (g.map (·.1)).flatten ++ (g.map (·.2.1)).flatten),
      poison := g.any (·.2.2) })

/-- What the root of a ROUTE_BACK sends: adjoint values and records (R199, R201). -/
def routeFlits (p : LeafPort) (t : Taken) (d : Desc) (st : Stripe) : Option StripeFlits :=
  let n := st.hi - st.lo
  match t.staged p.chunk .src 0 (st.lo * d.b) (n * d.b), t.staged p.chunk .aux 0 (2 * st.lo) (2 * n) with
  | some v, some r =>
    some (locFlits 0x04 d.b ((List.zip (elemsOf d.b v) (elemsOf 2 r)).map (fun e =>
      (e.1.map (·.1), e.2.map (·.1), anyBad e.1 || anyBad e.2))), false)
  | _, _ => none

/-- What a member of a COUNT-mode GATHER or ALLGATHER sends of a stripe: its part of it (R242). -/
def countFlits (p : LeafPort) (t : Taken) (d : Desc) (st : Stripe) : Option StripeFlits :=
  let start := (t.counts.headD (0, 0)).2 * d.b
  let stop := start + t.valid * d.b
  let lo := max start st.lo
  let hi := min stop st.hi
  (t.staged p.chunk .src 0 (lo - start) (hi - lo)).map (fun bs => ((packBytes 0x04 bs).map Packed.zeroed, false))

/-- Elements copied without combining (R218, R219, R241). -/
def copyFlits (p : LeafPort) (t : Taken) (d : Desc) (st : Stripe) : Option StripeFlits :=
  let vc := if t.pad then t.valid else d.count
  let top := max st.lo (min st.hi vc)
  (t.staged p.chunk .src st.seg (st.lo * d.b) ((top - st.lo) * d.b)).map (fun bs =>
    ((packBytes 0x04 (bs ++ List.replicate ((st.hi - top) * d.b) (0, false))).map Packed.zeroed, false))

/-- The preload elements of a stripe as COPY flits (R227). -/
def preloadFlits (p : LeafPort) (t : Taken) (d : Desc) (st : Stripe) : Option StripeFlits :=
  let a := t.arith d
  if !(d.preEn && t.rank == d.preRank) then some ([], false)
  else if d.preForm then
    if !t.streamReady p.chunk .preload a.sherds st.hi then none
    else
      let (cs, bad) := streamCells a.sherds st.hi (t.readSoFar p.chunk .preload)
      some ((packBytes 0x04 ((cs.drop st.lo).map (fun c =>
        (if c.poison then List.replicate 8 ((0 : Byte), true) else (streamElem c.val).map (fun b => (b, false))))).flatten).map Packed.zeroed, bad)
  else
    let w := elemSize (preFmt a) d.tan
    (t.staged p.chunk .preload 0 (st.lo * w) ((st.hi - st.lo) * w)).map (fun bs => ((packBytes 0x04 bs).map Packed.zeroed, false))

/-- A member's own flits of a stripe. -/
def ownFlits (p : LeafPort) (t : Taken) (d : Desc) (st : Stripe) : Option StripeFlits :=
  if !contributes t.desc t.rank then some ([], false)
  else match d.kind with
  | 1 | 2 | 5 | 0xB => reduceFlits p t d st
  | 8 => dotFlits p t d st
  | 9 => combineFlits p t d st
  | 0xA => routeFlits p t d st
  | 6 | 7 => if countRules t.desc t.ragged then countFlits p t d st else copyFlits p t d st
  | 3 => copyFlits p t d st
  | _ => some ([], false)

/-- The flits of a stripe, framed: the preload goes ahead, last marks the last of the member's own, seg_end the last of a segment
on the plane (R72, R227, R235). -/
def stripeCarries (p : LeafPort) (t : Taken) (st : Stripe) (segEnds : Bool) : Option (List Carry × Bool) :=
  let d := t.part st.seg
  match preloadFlits p t d st, ownFlits p t d st with
  | some (pre, b1), some (own, b2) =>
    let n := pre.length + own.length
    some ((numbered 1 (pre ++ own)).map (fun (i, x) =>
      { flit := { type := x.type, poison := x.poison, last := i == n && !own.isEmpty, segEnd := i == n && segEnds,
                  stripe := BitVec.ofNat 10 st.ix, setter := t.setter, payload := x.payload },
        sherds := x.sherds, ix := st.ix }), b1 || b2)
  | _, _ => none

/-! ### LEAF_FLIT_SEND -/

/-- The plane of phase 1 of a COUNT firing, and of a firing on the latency path (R72, R242, R394). -/
def Taken.phasePlane (t : Taken) : Nat := pickPlane t.planes t.fn.toNat

/-- The stripes that a member sends on a plane, in order. -/
def Taken.planeOrder (t : Taken) (plane : Nat) : List Nat :=
  stripeOrder t.latency t.fn.toNat t.deals (t.stripes.map (·.ix)) plane

/-- The index that marks a flit of phase 1 of a COUNT firing. -/
def phaseOneIx : Nat := 2 ^ 32

/-- A COUNT flit of phase 1 going up: the sum of the counts below. -/
def countCarry (setter : BitVec 10) (n : Nat) : Carry :=
  { flit := { type := 0x06, last := true, setter := setter, payload := payload64 (leBytes 4 n) }, ix := phaseOneIx }

/-! ### Reading ahead (R271, R280) -/

/-- The bytes of an input area that the flits of a stripe are made of, from and to, counted in its area; those of a sherd stream may
lie anywhere in it. -/
def Taken.spanIn (t : Taken) (st : Stripe) (r : Range) : Nat × Nat :=
  let d := t.part st.seg
  let run (w : Nat) : Nat × Nat := (st.lo * w, st.hi * w)
  match r.area with
  | .src | .src2 =>
    if d.kind == 8 then run (d.vecLen * d.b)
    else if d.kind == 9 then (if (t.arith d).isExact then (0, r.len) else run (t.arith d).partialSize)
    else if countRules t.desc t.ragged then
      let start := (t.counts.headD (0, 0)).2 * d.b
      (st.lo - start, st.hi - start)
    else run d.b
  | .preload => if d.preForm then (0, r.len) else run (elemSize (preFmt (t.arith d)) d.tan)
  | .aux => run 2
  | .result => (0, 0)

/-- Whether a stripe's flits are made of bytes of a chunk. -/
def Taken.uses (t : Taken) (c ix first : Nat) (r : Range) (st : Stripe) : Bool :=
  let sp := t.spanIn st r
  st.seg == r.seg && decide ((ix - first) * c < sp.2) && decide (sp.1 < (ix - first) * c + c)

/-- The stripes of a plane that are not yet sent whole, in order. -/
def Taken.unsentOn (t : Taken) (plane : Nat) : List Stripe :=
  ((t.planeOrder plane).drop (tget 0 t.sendIx plane)).filterMap (fun ix => t.stripes.find? (fun s => s.ix == ix))

/-- Whether a firing does not yet know the stripes it sends: it has no grant, or phase 1 of a COUNT firing still runs. -/
def Taken.beforeData (t : Taken) : Bool := t.phase != .running || (countRules t.desc t.ragged && !t.counted)

/-- Whether a chunk holds something that is still to be sent. -/
def Taken.wanted (t : Taken) (c ix first : Nat) (r : Range) : Bool :=
  t.beforeData || t.planes.any (fun p => (t.unsentOn p).any (t.uses c ix first r))

/-- Whether a chunk has been read, well or not. -/
def Taken.hasChunk (t : Taken) (ix : Nat) : Bool := t.chunks.any (fun x => x.ix == ix)

/-- The index of the first chunk of a contribution, a second vector, a preload or the records of a ROUTE_BACK. -/
def Taken.firstChunk (t : Taken) (c : Nat) (area : Area) : Nat :=
  match (t.areas c).find? (fun e => e.2.input && e.2.area == area) with
  | some e => e.1
  | none => 0

/-- The last chunk of the stripes that a firing is sending (R271; assumption log 34). -/
def Taken.front (t : Taken) (c : Nat) (area : Area) : Nat :=
  (t.planes.map (fun p => match (t.unsentOn p).head? with
    | none => 0
    | some st => match t.input c area st.seg with
      | none => 0
      | some (first, r) => first + (min (t.spanIn st r).2 r.len - 1) / c)).foldl max 0

/-- Whether the leaf port may read a chunk now: it is still wanted, every wanted chunk of its area before it has been read, and it is
one of the first four, or at most four ahead of what is being sent (R271). -/
def Taken.mayRead (t : Taken) (c ix first : Nat) (r : Range) : Bool :=
  !t.hasChunk ix && t.wanted c ix first r
    && (upFrom first (ix - first)).all (fun j => t.hasChunk j || !t.wanted c j first r)
    && (if t.beforeData then decide (ix < t.firstChunk c r.area + 4)
        else decide (ix ≤ max (t.firstChunk c r.area) (t.front c r.area) + 4))

/-- A firing with every input chunk that has not been read taken for zeros, or for failed. -/
def Taken.filled (t : Taken) (c : Nat) (zeros : Bool) : Taken :=
  { t with chunks := t.chunks ++ ((t.areas c).filter (·.2.input)).flatMap (fun e =>
      ((upFrom e.1 (chunksIn c e.2)).filter (fun ix => !t.hasChunk ix)).map (fun ix =>
        { area := e.2.area, ix := ix, data := if zeros then some (List.replicate (chunkSpan c ix e.1 e.2).2 0) else none })) }

/-- The flits of a stripe as far as what has been read gives them: the flits, one that still waits for a chunk shown as none; then
whether a sherd read so far is not well formed. A flit waits for a chunk when it depends on what the chunk holds. -/
def Taken.readyFlits (p : LeafPort) (t : Taken) (st : Stripe) (segEnds : Bool) : Option (List (Option Carry) × Bool) :=
  match stripeCarries p (t.filled p.chunk false) st segEnds, stripeCarries p (t.filled p.chunk true) st segEnds with
  | some (cs, bad), some (ds, _) =>
    some ((List.range (max cs.length ds.length)).map (fun i => if cs[i]? = ds[i]? then cs[i]? else none), bad)
  | _, _ => none

/-- The next flit that a firing has for a plane: the flit, whether a sherd was bad, and the firing after it is sent. A stripe that
gives no flit is passed over. -/
def Taken.nextFlit (p : LeafPort) (plane : Nat) : Nat → Taken → Option (Carry × Bool × Taken)
  | 0, _ => none
  | fuel + 1, t =>
    let two := countRules t.desc t.ragged
    if two && !t.countSent then
      if t.phasePlane == plane && contributes t.desc t.rank then some (countCarry t.setter t.valid, false, { t with countSent := true })
      else none
    else if two && !t.counted then none
    else
      let q := t.planeOrder plane
      let i := tget 0 t.sendIx plane
      match q[i]? with
      | none => none
      | some ix => match t.stripes.find? (fun s => s.ix == ix) with
        | none => none
        | some st =>
          let more := (q.drop (i + 1)).any (fun j => (t.stripes.find? (fun s => s.ix == j)).any (fun s => s.seg == st.seg))
          match t.readyFlits p st (t.desc.segCount != 0 && !more) with
          | none => none
          | some (cs, bad) =>
            let k := tget 0 t.sendFl plane
            let advance (x : Taken) : Taken := { x with sendIx := tset 0 x.sendIx plane (i + 1), sendFl := tset 0 x.sendFl plane 0 }
            match cs[k]? with
            | none => nextFlit p plane fuel (advance t)
            | some none => none
            | some (some c) =>
              some (c, bad, if k + 1 < cs.length then { t with sendFl := tset 0 t.sendFl plane (k + 1) } else advance t)

/-- The first chunk of a member's inputs that failed. -/
def Taken.firstBadChunk (t : Taken) : Nat := ((t.chunks.filter (fun c => c.data.isNone)).map (·.ix)).foldl min (2 ^ 32 - 1)

/-- A poisoned flit leaves a member: the kiln learns the lowest rank that sent one, and its first failed chunk (R408, R409). -/
def Firing.poisonFrom (f : Firing) (rank chunk : Nat) : Firing :=
  match f.poisonRank with
  | some r => if rank < r then { f with poisonRank := some rank, poisonChunk := chunk } else f
  | none => { f with poisonRank := some rank, poisonChunk := chunk }

/-- The first of a leaf's running firings that has a flit for a plane. -/
def LeafPort.sender (p : LeafPort) (plane : Nat) : Option (Taken × Carry × Bool × Taken) :=
  (p.taken.filter (fun t => t.phase == .running && !t.stopped && t.planes.contains plane)).findSome? (fun t =>
    (Taken.nextFlit p plane ((t.planeOrder plane).length + 2) t).map (fun r => (t, r)))

/-- The accumulators a firing takes from that have lost their state (R414). -/
def LeafPort.lostSources (p : LeafPort) (t : Taken) : List Nat := t.desc.bisques.filter (fun i => (tget {} p.bisque i).damaged)

/-- A firing that takes from a lost bisque accumulator ends with FAULT, class STATE_LOST, naming the leaf's rank. -/
def State.sourceLost (s : State) (l : Nat) (t : Taken) : State :=
  let u := s.modLeaf l (fun p => { p with bisque := (p.lostSources t).foldl (fun b i => tmod {} b i (fun x => { x with damaged := false })) p.bisque })
  match s.granted? t.setter.toNat with
  | some f => (u.decideEnd f.uid stFault t.rank clStateLost.toNat).sendEnds (s.kiln.firings.length + 1) f.group |>.offer
  | none => u

/-- LEAF_FLIT_SEND: the link must be free and in service. -/
def execLeafFlitSend (leaf plane : Nat) (s : State) : Host.Outcome State Fault Refusal :=
  let p := s.leaf leaf
  let key := leafLinkKey leaf .up plane
  let k := s.link key
  if p.failed || s.linkStops key || k.offer.isSome || decide (4 ≤ plane) then .next s
  else match p.sender plane with
  | none => .next s
  | some (t, c, bad, t') =>
    if !(p.lostSources t).isEmpty then .next (s.sourceLost leaf t)
    else
    let u := (s.setLeaf leaf (p.modTaken t.cnt (fun _ => t'))).setLink key (k.put false s.time c)
    match s.granted? t.setter.toNat with
    | none => .next u
    | some f =>
      let u := if c.flit.poison then u.modFiring f.uid (fun x => x.poisonFrom t.rank t.firstBadChunk) else u
      .next (if bad then u.modFiring f.uid (fun x => { x with range := true, rangeBad := true }) else u)

/-! ### CHUNK_READ_DONE -/

/-- What the read of a chunk gives: a streamed contribution's bytes are those of the tiles that were drained into scratchpad (R245,
R246), the push buffer answers at and above its base (R273), and any other byte is what the read returned. -/
def LeafPort.chunkBytes (p : LeafPort) (t : Taken) (area : Area) (a n : Nat) (given : List Byte) : List Byte :=
  p.sourceBytes a (if t.desc.stream && area == .src then tgetRun 0 p.scratch a n else given) n

/-- CHUNK_READ_DONE: `chunk` is the chunk's index by R270. -/
def execChunkReadDone (leaf slot : Nat) (area : Area) (chunk : Nat) (r : ReadResult) (s : State) :
    Host.Outcome State Fault Refusal :=
  let p := s.leaf leaf
  match p.inSlot slot with
  | none => .next s
  | some t => match t.areaOf p.chunk chunk with
    | none => .next s
    | some (first, rg) =>
      let (a, n) := chunkSpan p.chunk chunk first rg
      if t.phase == .pass || t.ended.isSome || t.invalid.isSome || (t.desc.ragTail && t.probe.isNone) || !rg.input
          || rg.area != area || !t.mayRead p.chunk chunk first rg || !t.tilesLanded rg a n then .next s
      else match r with
        | .ok bs => .next (s.setLeaf leaf (p.modTaken t.cnt (fun x =>
            { x with chunks := x.chunks ++ [{ area := area, ix := chunk, data := some (p.chunkBytes t area a n bs) }] })))
        | .bad c => .next (s.setLeaf leaf ((p.chunkFault t (readClass c) a chunk).modTaken t.cnt (fun x =>
            { x with chunks := x.chunks ++ [{ area := area, ix := chunk, data := none }] })))

/-- What a member keeps of its chunks when stripes are to be sent again: a failed chunk is not read again, and a good one is read
again from its retained place where a stripe needs it (R280, R282). -/
def Taken.keepChunks (t : Taken) (c : Nat) (again : Stripe → Bool) : List Chunk :=
  t.chunks.filter (fun x => x.data.isNone || (match t.areaOf c x.ix with
    | some (first, r) => !t.stripes.any (fun st => again st && t.uses c x.ix first r st)
    | none => true))

end Sys2Proof.Machine
end

