-- ==== Sys2Proof/Machine/Granting.lean ====
section
/-! DEFINITION. The grant (R306 to R308), the barrier's release (R220), and what a leaf port makes of a GRANT (R301, R392, R393,
R142). -/

namespace Sys2Proof.Machine
open Sys2Proof

/-! ### Admission (R306, R335, R358) -/

/-- Conditions of a grant besides slots and glaze accumulators: its turn in its group, a setter, its segments awake, no
quiet hold on its path, no earlier holder of its accumulator. -/
def State.ready (s : State) (f : Firing) : Bool :=
  f.cause.isNone && f.ord == (s.groupRun f.group).nextOrd && f.desc.kind != 4
    && (!f.usesPlane
        || (f.setter.isSome && s.cond6 f && !(s.hNow f).isEmpty && (s.hNow f).all (s.planeAwake f.pathLeaves)
            && !(diesOf f.pathLeaves).any (fun d => (s.die d).quietHold)))

/-- Whether a firing has taken every slot and glaze accumulator that it needs (R307). -/
def State.holdsAll (s : State) (f : Firing) : Bool :=
  (s.wantsNow f).slots.all f.heldSlots.contains && (s.wantsNow f).glaze.all f.heldGlaze.contains

/-- The first firing of the queue that may be granted. -/
def State.pickGrant (s : State) : Option Firing := s.queue.find? (fun f => s.ready f && s.holdsAll f)

/-- The inputs of a node that lead to some leaves. -/
def inputsTo (q : Nat) (leaves : List Nat) : List Nat := sortRise ((leaves.filter (below q)).map (inputOf q))

/-- Opens the active slots of a firing on planes, at the nodes of its path and at the kiln. -/
def State.openSlots (s : State) (f : Firing) (planes : List Nat) : State :=
  match f.setter with
  | none => s
  | some x =>
    planes.foldl (fun a p => (0 :: pathNodes f.pathLeaves).foldl (fun b q => b.modNode (nodeIx q false p) (fun n =>
      { n with slots := n.slots ++ [{ setter := x, mask := inputsTo q f.contributors }] })) a) s

/-- The accumulator as a grant leaves it: init fixes its fields, empties it and makes it initialised (R177, R229), the firing becomes
its holder (R180). Its elements are the firing's own count, on a PAD group too, where R228 does not say it: a member's elements beyond it
feed nothing (DEDUCED, assumption log 96). -/
def KAcc.atGrant (a : KAcc) (d : Desc) (sag setter : Nat) : KAcc :=
  let b : KAcc := if d.kInit then
      { written := true, exact := d.mode, count := d.count, op := d.op, inFmt := d.inF, tanLog2 := d.tan, owner := some sag,
        elems := List.replicate d.count [] }
    else a
  { b with holder := some setter }

/-- The digest accumulator that a firing's result digest goes to: the open one of its saggar with its group's tag (R374,
R375). -/
def State.digestOf (s : State) (f : Firing) : Option (Nat × Nat × Quad) :=
  let tag := gTag (s.cfg.groupEntry f.group)
  if tag = 0xFFFF then none
  else (s.kiln.digests.find? (fun e => e.2.isOpen && e.2.saggar.toNat == f.saggar && e.2.tag.toNat == tag)).map
    (fun e => (e.1, e.2.opening, e.2.prov))

/-- A set of planes as bits. -/
def planeBits (ps : List Nat) : BitVec 4 := BitVec.ofNat 4 (ps.foldl (fun m p => m ||| 2 ^ p) 0)

/-- The planes that bits name, ascending. -/
def planesIn (b : BitVec 4) : List Nat := (List.range 4).filter (fun p => bitOf b.toNat p)

/-- A firing's GRANT as it stands: on the latency path its planes field names the one plane (R299, R392). -/
def Firing.grant (f : Firing) : GrantMsg :=
  { ts := f.ts, fn := f.fn, seq := f.seq, setter := BitVec.ofNat 10 (f.setter.getD 0), group := BitVec.ofNat 20 f.group,
    planes := planeBits (if f.usesPlane then f.usesNow else []), latency := f.latency, attempt := BitVec.ofNat 2 f.attempt }

/-- The kiln sends a GRANT to every member, with its trace record (Table 16.2, class 0x10). -/
def State.sendGrant (s : State) (f : Firing) : State :=
  (s.traceOffer 0x10 f.grant.word [f.saggar]).sendDown (.grant f.grant f.leaves)

/-- The segments on the path of a firing that is granted are no longer due to park (R501). -/
def State.keepAwake (s : State) (f : Firing) : State :=
  (diesOf f.pathLeaves).foldl (fun a d =>
    let segs := f.planes.flatMap (fun p => pathSegs f.pathLeaves p d)
    a.modDie d (fun x => { x with parkQ := x.parkQ.filter (fun i => !segs.contains i) })) s

/-- The kiln grants a firing (R308). -/
def State.grantOne (s : State) (f : Firing) : State :=
  let h := if f.usesPlane then s.hNow f else []
  let lat := f.usesPlane && s.wouldLatency f
  let fn := nextFn s.kiln.lastFn
  let dig := s.digestOf f
  let g := { f with
    st := .granted, fn := fn, bornFn := fn, ts := s.time, planes := h, deals := if h.isEmpty then [] else [h], latency := lat, wants := [],
    asked := [], heldSlots := [], heldGlaze := [], region := s.regionEntry f.desc.depRegion,
    bound := dig.map (fun e => (e.1, e.2.1)), prov := match dig with
      | some e => e.2.2
      | none => 0 }
  let t := (s.modKiln (fun k => { k with lastFn := fn })).modFiring f.uid (fun _ => g)
  let t := if f.usesPlane then (t.openSlots g (usedOf lat h fn.toNat)).keepAwake g else t
  let t := if f.desc.namesKacc then t.modKacc f.desc.kacc (fun a => a.atGrant f.desc f.saggar (g.setter.getD 0)) else t
  (t.modGroup f.group (fun r => { r with nextOrd := f.ord + 1 })).sendGrant g

/-- How many firing numbers one is older than the newest (R327). -/
def fnAge (last x : BitVec 48) : Nat := (last.toNat + (2 ^ 48 - 1) - x.toNat) % (2 ^ 48 - 1)

/-- Firings in GRANTED or ARMED that are 2^45 numbers old raise an event to their owning host, once (R328). An ARMED firing's age
counts from the newest number when it was armed. -/
def State.noteOld (s : State) : State :=
  (s.kiln.firings.filter (fun f => (f.st == .granted || f.st == .armed) && !f.aged
      && decide (2 ^ 45 ≤ fnAge s.kiln.lastFn f.bornFn))).foldl (fun a f =>
    (a.modFiring f.uid (fun x => { x with aged := true })).firingEvent 2 f.fn.toNat f.group f.saggar 0xFFFF [f.saggar]) s

/-! ### The leaf's side (R301, R392, R393) -/

/-- What a member is in a granted firing, by the set it was granted with. -/
def State.whoIn (s : State) (l : Nat) (g : GrantMsg) : Who :=
  match s.kiln.firings.find? (fun f => f.fn == g.fn && f.group == g.group.toNat) with
  | some f => { rank := f.rankOf l, m := f.leaves.length, idx := (f.leaves.takeWhile (· != l)).length, ragged := f.ragged }
  | none => s.cfg.who g.group.toNat l

/-- The RUNNING firing that a GRANT names (R392). -/
def LeafPort.runningOf (p : LeafPort) (g : GrantMsg) : Option Taken :=
  p.taken.find? (fun t => t.phase == .running && t.fn == g.fn && t.setter == g.setter)

/-- A first grant: the member starts on its planes. -/
def Taken.granted (t : Taken) (g : GrantMsg) (w : Who) : Taken :=
  { t with phase := .running, setter := g.setter, fn := g.fn, seq := g.seq, ts := g.ts, latency := g.latency, attempt := g.attempt,
           planes := planesIn g.planes, deals := [planesIn g.planes], rank := w.rank, m := w.m, idx := w.idx, ragged := w.ragged }

/-- A replay: the contribution goes again from its first stripe (R142), from its retained inputs (R280). -/
def Taken.replayed (t : Taken) (c : Nat) (g : GrantMsg) : Taken :=
  { t with attempt := g.attempt, planes := planesIn g.planes, deals := [planesIn g.planes], sendIx := [], sendFl := [],
           chunks := t.keepChunks c (fun _ => true) }

/-- A redeal: the stripes of lost planes follow those of the planes that stay (R393), their chunks read again (R280); phase 1 of a
COUNT firing goes again if its plane has moved (R394). -/
def Taken.redealt (t : Taken) (c : Nat) (g : GrantMsg) : Taken :=
  let h := planesIn g.planes
  let deals := t.deals ++ [h]
  let plane (ds : List (List Nat)) (ix : Nat) : Option Nat := stripePlane t.latency t.fn.toNat ds ix
  { t with planes := h, deals := deals, countSent := t.countSent && (t.counted || pickPlane h t.fn.toNat == t.phasePlane),
           chunks := t.keepChunks c (fun st => plane t.deals st.ix != plane deals st.ix) }

/-- A GRANT taken by a leaf port: a replay or redeal of a RUNNING firing, or the first grant of the group's oldest WAITING one.
A GRANT that matches nothing is ignored. -/
def LeafPort.takeGrant (p : LeafPort) (g : GrantMsg) (w : Who) : LeafPort :=
  match p.runningOf g with
  | some t =>
    if t.attempt.toNat < g.attempt.toNat then p.modTaken t.cnt (fun x => x.replayed p.chunk g)
    else p.modTaken t.cnt (fun x => x.redealt p.chunk g)
  | none => match p.taken.find? (fun t => t.phase == .waiting && t.ended.isNone && t.desc.group == g.group.toNat) with
    | some t => p.modTaken t.cnt (fun x => x.granted g w)
    | none => p

/-- GRANT_RECEIVE: the oldest message at the leaf port is a GRANT. -/
def execGrantReceive (leaf : Nat) (s : State) : Host.Outcome State Fault Refusal :=
  let p := s.leaf leaf
  match p.inbox with
  | .grant g _ :: ms =>
    if p.failed then .next s else .next (s.setLeaf leaf ({ p with inbox := ms }.takeGrant g (s.whoIn leaf g)))
  | _ => .next s

/-- Whether a GRANT is a redeal at a leaf port (R392). -/
def LeafPort.isRedeal (p : LeafPort) (g : GrantMsg) : Bool :=
  match p.runningOf g with
  | some t => t.attempt == g.attempt
  | none => false

/-- REDEAL_GRANT_RECEIVE: the oldest message at the leaf port is a redeal GRANT. -/
def execRedealGrantReceive (leaf : Nat) (s : State) : Host.Outcome State Fault Refusal :=
  let p := s.leaf leaf
  match p.inbox with
  | .grant g _ :: ms =>
    if p.failed || !p.isRedeal g then .next s
    else .next (s.setLeaf leaf ({ p with inbox := ms }.takeGrant g (s.whoIn leaf g)))
  | _ => .next s

end Sys2Proof.Machine
end

