-- ==== Sys2Proof/Machine/Combine.lean ====
section
/-! DEFINITION. What a datapath node makes of the flits that come up to it: elements read from each input (R126, R155, R156, R203,
R240), combined in the published order (R31, R64 to R66), repacked for the next link (R127), byte streams concatenated (R242),
and counts summed (R242 phase 1). -/

namespace Sys2Proof.Machine
open Sys2Proof

/-! ### A firing as the nodes see it -/

/-- The descriptor of a part. -/
def Firing.part (f : Firing) (seg : Nat) : Desc := (parts f.desc f.arm.segs).getD seg f.desc
/-- The arithmetic of a part. -/
def Firing.partArith (f : Firing) (seg : Nat) : Arith := f.arith (f.part seg)
/-- A stripe by its number. -/
def Firing.stripe? (f : Firing) (ix : Nat) : Option Stripe := f.stripes.find? (fun s => s.ix == ix)
/-- The stripes of a plane in order. -/
def Firing.planeOrder (f : Firing) (p : Nat) : List Nat := stripeOrder f.latency f.fn.toNat f.deals (f.stripes.map (·.ix)) p
/-- The plane of phase 1 of a COUNT firing. -/
def Firing.phasePlane (f : Firing) : Nat := pickPlane f.planes f.fn.toNat
/-- Kinds whose data is carried as bytes and not combined. -/
def Firing.isBytes (f : Firing) : Bool := f.desc.kind == 3 || f.desc.kind == 6 || f.desc.kind == 7 || f.desc.kind == 0xA
/-- Kinds whose flits pass a cluster or die node unchanged: they have one source (R199, R218, R223). -/
def Firing.passes (f : Firing) : Bool := f.desc.kind == 3 || f.desc.kind == 9 || f.desc.kind == 0xA
/-- Whether a stripe is the last of its segment on a plane (R235). -/
def Firing.endsSeg (f : Firing) (p : Nat) (st : Stripe) : Bool :=
  f.desc.segCount != 0 && ((f.planeOrder p).dropWhile (· != st.ix)).tail.all (fun ix => (f.stripe? ix).all (fun x => x.seg != st.seg))

/-- The first element of a COUNT member's part, counted in elements (R242). -/
def Firing.countOff (f : Firing) (l : Nat) : Nat := ((f.contributors.takeWhile (· != l)).map f.countOf).foldl (· + ·) 0

/-- Bytes that a member sends of a stripe. -/
def Firing.memberBytes (f : Firing) (st : Stripe) (l : Nat) : Nat :=
  let b := f.desc.b
  if f.desc.kind == 0xA then 64 * ceilDiv (st.hi - st.lo) (locPer b)
  else if f.count2 then
    let lo := f.countOff l * b
    let hi := lo + f.countOf l * b
    min hi st.hi - max lo st.lo
  else (st.hi - st.lo) * b

/-- Bytes that come up an input of a node for a stripe. -/
def Firing.inputBytes (f : Firing) (st : Stripe) (q i : Nat) : Nat :=
  ((f.contributors.filter (fun l => below q l && inputOf q l == i)).map (f.memberBytes st)).foldl (· + ·) 0

/-- How many of a stripe's `n` bytes come in one run: on a SAME or PAD group each member's part of a GATHER or ALLGATHER keeps
its own flits, for only a COUNT group's are repacked with no gaps (R219, R241, R242, R405). -/
def Firing.runLen (f : Firing) (st : Stripe) (n : Nat) : Nat :=
  if (f.desc.kind == 6 || f.desc.kind == 7) && !f.count2 then (st.hi - st.lo) * f.desc.b else n

/-- A part of a firing ended a step outside its type (R112, R125, R223). -/
def Firing.markRange (f : Firing) (seg : Nat) (on : Bool) : Firing :=
  if on then { f with range := true, rangeBad := true, rangeSegs := addOnce f.rangeSegs seg } else f

/-! ### Reading an input -/

/-- An element off a leaf-port link: absent at or beyond the member's valid count, and in a poisoned flit (R240, R405). -/
def Firing.leafCell (f : Firing) (a : Arith) (l k : Nat) (bs : List (Byte × Bool)) : Cell :=
  let bad := anyBad bs
  if bad || (f.pad && decide (f.countOf l ≤ k)) then { poison := bad } else entryCell a (f.rankOf l) (rawOf a.inF bs)

/-- What a flit adds to an input: its cells, and the pieces of an element that it leaves unfinished. `k0` is the index of the first
element it may hold, `m` how many the stripe still has. -/
def Firing.cellsOf (f : Firing) (a : Arith) (q i k0 m : Nat) (x : InStream) (c : Carry) : List Cell × InStream :=
  let bad := c.flit.poison
  match a.upForm (levelOf q - 1) with
  | .bytes b =>
    let bs := x.bytes ++ c.flit.payload.map (fun y => (y, bad))
    let k := min m (bs.length / b)
    ((numbered k0 (piecesOf b (bs.take (k * b)))).map (fun e => f.leafCell a (childLeaf q i) e.1 e.2), { x with bytes := bs.drop (k * b) })
  | .sherds per =>
    if bad then ([{ poison := true }], { x with frag := [] })
    else
      let fr := sherdFlitAdd x.frag (c.flit.type == 0x03) c.sherds c.flit.payload
      match exactOfFrag per fr with
      | some v => ([{ val := v }], { x with frag := [] })
      | none => ([], { x with frag := fr })
  | form =>
    let per := a.perFlit form
    let hide (y : Cell) : Cell := if bad then { poison := true } else y
    if per = 0 then
      let fr := x.frag ++ c.flit.payload
      let p := x.fragPoison || bad
      match form with
      | .record tys =>
        if fr.length < a.recordSize tys then ([], { x with frag := fr, fragPoison := p })
        else ([if p then { poison := true } else { val := readRecord a tys fr }], { x with frag := [], fragPoison := false })
      | _ => ([], x)
    else ((List.range (min m per)).map (fun j => hide (readLane a form c.flit.payload j)), x)

/-- A flit of a reducing firing taken into an input. At a cluster node the cells of a SCAN are its members' own. -/
def Firing.readFlit (f : Firing) (st : Stripe) (q i : Nat) (x : InStream) (c : Carry) : InStream :=
  let n := st.hi - st.lo
  let (cs, y) := f.cellsOf (f.partArith st.seg) q i (st.lo + x.got) (n - x.got) x c
  let cs := cs.take (n - x.got)
  let ps : List (List (Nat × Cell)) :=
    if f.desc.kind != 5 then []
    else if 33 ≤ q then cs.map (fun e => if e.val.isSome || e.poison then [(childLeaf q i, e)] else [])
    else c.parts
  let got := x.got + cs.length
  { y with cells := x.cells ++ cs, parts := x.parts ++ ps, got := if n ≤ got then 0 else got,
           bytes := if n ≤ got then [] else y.bytes, frag := if n ≤ got then [] else y.frag }

/-- A flit of a byte stream taken into an input. -/
def Firing.readBytes (f : Firing) (st : Stripe) (q i : Nat) (x : InStream) (c : Carry) : InStream :=
  let n := f.inputBytes st q i
  let part := max 1 (f.runLen st n)
  let take := min (min 64 (n - x.got)) (part - x.got % part)
  { x with bytes := x.bytes ++ (c.flit.payload.take take).map (fun y => (y, c.flit.poison)), got := if n ≤ x.got + take then 0 else x.got + take }

/-! ### Combining -/

/-- An input of a slot. -/
def Slot.inp (s : Slot) (i : Nat) : InStream := tget {} s.ins i
/-- Changes an input of a slot. -/
def Slot.modIn (s : Slot) (i : Nat) (g : InStream → InStream) : Slot := { s with ins := tmod {} s.ins i g }

/-- One element combined at a node: its stripe, the cell and a SCAN's member values. -/
structure OutCell where
  ix : Nat
  cell : Cell
  parts : List (Nat × Cell)

/-- The element that a node forms of the front cells of its inputs (R66). -/
def Firing.nodeCell (f : Firing) (st : Stripe) (q : Nat) (s : Slot) : Cell :=
  let front (i : Nat) : Cell := if s.mask.contains i then (s.inp i).cells.headD {} else {}
  if f.desc.kind == 9 then front (s.mask.headD 0) else nodeValue (f.partArith st.seg) (levelOf q) front

/-- The slot past one element of a stripe of `n`. -/
def Slot.pop (s : Slot) (n : Nat) : Slot :=
  let t := { s with ins := s.mask.foldl (fun t i => tmod {} t i (fun x => { x with cells := x.cells.tail, parts := x.parts.tail })) s.ins }
  if s.emitted + 1 < n then { t with emitted := s.emitted + 1 } else { t with emitted := 0, ord := s.ord + 1 }

/-- Combines as many elements as every input has delivered. -/
def Firing.combineAll (f : Firing) (q p : Nat) : Nat → Slot → Slot × List OutCell
  | 0, s => (s, [])
  | fuel + 1, s =>
    match (f.planeOrder p)[s.ord]? with
    | none => (s, [])
    | some ix => match f.stripe? ix with
      | none => (s, [])
      | some st =>
        if s.mask.isEmpty || s.mask.any (fun i => (s.inp i).cells.isEmpty) then (s, [])
        else
          let o : OutCell := { ix := ix, cell := f.nodeCell st q s, parts := (s.mask.map (fun i => (s.inp i).parts.headD [])).flatten }
          let (t, os) := f.combineAll q p fuel (s.pop (st.hi - st.lo))
          (t, o :: os)

/-! ### Repacking (R127) -/

/-- A flit of a stripe going up. -/
def Firing.upFlit (f : Firing) (p : Nat) (st : Stripe) (x : Packed) (ps : List (List (Nat × Cell))) (last : Bool) : Carry :=
  { flit := { type := x.type, poison := x.poison, last := last, segEnd := last && f.endsSeg p st, stripe := BitVec.ofNat 10 st.ix,
              setter := BitVec.ofNat 10 (f.setter.getD 0), payload := x.payload },
    sherds := x.sherds, parts := ps, ix := st.ix }

/-- Flits of packed payloads: the member values of a SCAN go with the last of them. -/
def Firing.upFlits (f : Firing) (p : Nat) (st : Stripe) (xs : List Packed) (ps : List (List (Nat × Cell))) (last : Bool) : List Carry :=
  (numbered 1 xs).map (fun (i, x) => f.upFlit p st x (if i == xs.length then ps else []) (last && i == xs.length))

/-- Combined elements as a node packs them; a poisoned exact element is one flit. -/
def nodeFlits (a : Arith) (form : LinkForm) (cs : List Cell) : List Packed :=
  match form with
  | .sherds _ => (cs.map exactFlits).flatten
  | _ => packRun a form cs

/-- One combined element joins those that wait; a full flit, or a stripe's end, sends them. `n` elements of the stripe are then
done. -/
def Firing.emit (f : Firing) (q p : Nat) (acc : Slot × List Carry × Nat) (o : OutCell) : Slot × List Carry × Nat :=
  let (s, cs, done) := acc
  match f.stripe? o.ix with
  | none => acc
  | some st =>
    let a := f.partArith st.seg
    let form := a.upForm (levelOf q)
    let out := s.out ++ [o.cell]
    let ps := s.outParts ++ [o.parts]
    let ends := decide (st.hi - st.lo ≤ done + 1)
    let per := a.perFlit form
    if ends || per = 0 || per ≤ out.length then
      ({ s with out := [], outParts := [] },
       cs ++ f.upFlits p st (nodeFlits a form out) (if f.desc.kind == 5 then ps else []) ends, if ends then 0 else done + 1)
    else ({ s with out := out, outParts := ps }, cs, done + 1)

/-! ### Byte streams (R219, R242) -/

/-- Concatenates the stripes that every input has delivered whole: the slot, and each stripe's bytes. -/
def Firing.joinAll (f : Firing) (q p : Nat) : Nat → Slot → Slot × List (Stripe × List (Byte × Bool))
  | 0, s => (s, [])
  | fuel + 1, s =>
    match (f.planeOrder p)[s.ord]? with
    | none => (s, [])
    | some ix => match f.stripe? ix with
      | none => (s, [])
      | some st =>
        let want (i : Nat) : Nat := f.inputBytes st q i
        if s.mask.any (fun i => decide ((s.inp i).bytes.length < want i)) then (s, [])
        else
          let bs := (s.mask.map (fun i => (s.inp i).bytes.take (want i))).flatten
          let t := { s with ord := s.ord + 1,
                            ins := s.mask.foldl (fun t i => tmod {} t i (fun x => { x with bytes := x.bytes.drop (want i) })) s.ins }
          let (u, r) := f.joinAll q p fuel t
          (u, (st, bs) :: r)

/-! ### A flit at a node on its way up -/

/-- The slot of a setter at a node. -/
def Node.slot? (n : Node) (x : Nat) : Option Slot := n.slots.find? (fun s => s.setter == x)

/-- Writes a slot back, with flits to go up. -/
def Node.withSlot (n : Node) (s : Slot) (cs : List Carry) : Node :=
  { n with slots := modFirst (fun y => y.setter == s.setter) (fun _ => s) n.slots, outUp := n.outUp ++ cs }

/-- Phase 1 at a node: the sum of the counts below, once every input has told its own. -/
def Slot.countSum (s : Slot) : Option Nat :=
  s.mask.foldl (fun acc i => match acc, (s.inp i).count with
    | some n, some k => some (n + k)
    | _, _ => none) (some 0)

/-- Cells to be combined before a node has to stop. -/
def Slot.fuel (s : Slot) : Nat := (s.ins.map (fun e => e.2.cells.length)).foldl (· + ·) 0

/-- A flit at a cluster node or die node. -/
def State.upAtNode (s : State) (q p i : Nat) (f : Firing) (sl : Slot) (c : Carry) : State :=
  let ix := nodeIx q false p
  let sl := if c.flit.last then sl.modIn i (fun x => { x with stripes := x.stripes + 1 }) else sl
  if c.ix = phaseOneIx then
    let t := sl.modIn i (fun x => { x with count := some (numAt c.flit.payload 0 4), stripes := 0 })
    match t.countSum with
    | some n => s.modNode ix (fun nd => nd.withSlot t [countCarry c.flit.setter n])
    | none => s.modNode ix (fun nd => nd.withSlot t [])
  else if f.passes || (c.flit.type == 0x04 && !f.isBytes) then s.modNode ix (fun nd => nd.withSlot sl [c])
  else match f.stripe? c.ix with
  | none => s
  | some st =>
    if f.isBytes then
      let (t, os) := f.joinAll q p (f.stripes.length + 1) (sl.modIn i (fun x => f.readBytes st q i x c))
      s.modNode ix (fun nd => nd.withSlot t ((os.map (fun e => f.upFlits p e.1 ((packRuns 0x04 (f.runLen e.1 e.2.length) e.2).map (·.2)) [] true)).flatten))
    else
      let sl := sl.modIn i (fun x => f.readFlit st q i x c)
      let (t, os) := f.combineAll q p (sl.fuel + 1) sl
      let (u, cs, _) := os.foldl (f.emit q p) (t, [], sl.emitted)
      let bad := f.desc.kind != 5 && os.any (fun o => o.cell.range)
      (s.modNode ix (fun nd => nd.withSlot u cs)).modFiring f.uid (fun x => x.markRange st.seg bad)

end Sys2Proof.Machine
end

