-- ==== Sys2Proof/Machine/Finish.lean ====
section
/-! DEFINITION. What the kiln makes of a stripe that is complete (R32, R69, R76 to R80, R162, R178, R225 to R230, R396, R408), the
result flits it sends down (R198, R201, R216, R217, R235, R406), and the grant that starts it all (R306). -/

namespace Sys2Proof.Machine
open Sys2Proof

/-! ### The preload (R76, R77, R227) -/

/-- The preload elements of a stripe as they have arrived; none while some are missing. -/
def Firing.preloadCells (f : Firing) (st : Stripe) : Option (List Cell) :=
  let a := f.partArith st.seg
  let n := st.hi - st.lo
  if !f.desc.preEn then some (List.replicate n {})
  else
    let bs := tget [] f.held st.ix
    if f.desc.preForm then
      let cs := (streamCells a.sherds n bs).1
      if cs.any (·.poison) && !anyBad bs then none else some cs
    else
      let w := elemSize (preFmt a) f.desc.tan
      if bs.length < n * w then none
      else some ((elemsOf w (bs.take (n * w))).map (fun e => if anyBad e then { poison := true } else preloadCell a (rawOf (preFmt a) e)))

/-- Whether a scaled DOT's preload has brought a NaN or an infinity: the firing then completes with RANGE and no replay follows
(R139). -/
def Firing.preloadRange (f : Firing) : Bool :=
  f.desc.preEn && scaledPart f.desc && f.stripes.any (fun st => (f.preloadCells st).any (fun cs => cs.any (·.range)))

/-- The preload step: operand b of one kiln-level step. -/
def withPreload (a : Arith) (cs ps : List Cell) : List Cell := (List.zip cs ps).map (fun e => combine a 3 e.1 e.2)

/-! ### Kiln accumulators (R80, R178, R229) -/

/-- One element's entry merged; then whether a step left its type. -/
def KAcc.feed (k : KAcc) (a : Arith) (d : Desc) (lo i : Nat) (c : Cell) : KAcc × Bool :=
  let st := k.elems.getD i []
  let (s, bad) := if d.mode || d.kPlace then sequenceAdd a c.val st else positionAdd a lo c.val st
  ({ k with elems := k.elems.set i s }, bad || c.range)

/-- A stripe's entries merged. -/
def KAcc.feedAll (k : KAcc) (a : Arith) (d : Desc) (lo : Nat) : Nat → List Cell → KAcc × Bool
  | _, [] => (k, false)
  | i, c :: cs =>
    let (k1, b1) := k.feed a d lo i c
    let (k2, b2) := KAcc.feedAll k1 a d lo (i + 1) cs
    (k2, b1 || b2)

/-- The accumulated value of an element. -/
def KAcc.final (k : KAcc) (a : Arith) (d : Desc) (i : Nat) : Cell :=
  let (v, bad) := if d.mode || k.place == some true then ((k.elems.getD i []).head?.map (·.2), false) else positionFinal a (k.elems.getD i [])
  let sat := a.op == 3 && !a.isExact && (match v with
    | some e => decide (e.cnt = countMax)
    | none => false)
  { val := v, range := bad || sat }

/-! ### Results -/

/-- A result element: its bytes and whether its flit is poisoned. -/
abbrev ResultElem := List Byte × Bool

/-- Results of a run of elements whose first has index `k0` in the full vector; then whether one gives RANGE, and whether one is
not defined. -/
def resultElems (a : Arith) (d : Desc) (k0 : Nat) (cs : List Cell) : List ResultElem × Bool × Bool :=
  if streamOut d then (cs.map (fun c => (streamElem c.val, c.poison)), false, cs.any (·.range))
  else if d.form && opKind d.kind then (cs.map (fun c => (partialBytes a c.val, c.poison)), false, cs.any (·.range))
  else
    let rs := (numbered k0 cs).map (fun e => (outElem a e.1 e.2.val, e.2.poison))
    (rs.map (fun e => (outBytes a.outF e.1.1, e.2)), rs.any (fun e => e.1.2.1), cs.any (·.range) || rs.any (fun e => e.1.2.2))

/-- The rank that goes with an element (R132, R197). -/
def rankBytes (c : Cell) : List Byte :=
  leBytes 2 (match c.val with
    | some e => e.rank
    | none => 0xFFFF)

/-- A flit going down. -/
def Firing.downFlit (f : Firing) (type : BitVec 8) (st : Stripe) (x : Packed) (off : Nat) (dst : Option (List Nat)) : Carry :=
  { flit := { type := type, poison := x.poison, stripe := BitVec.ofNat 10 st.ix, setter := BitVec.ofNat 10 (f.setter.getD 0),
              payload := if x.poison then payload64 [] else x.payload },
    sherds := x.sherds, dst := dst, ix := st.ix, off := off }

/-- Contiguous bytes as flits: a flit with a poisoned byte is poisoned whole. -/
def Firing.downBytes (f : Firing) (type : BitVec 8) (st : Stripe) (bs : List (Byte × Bool)) (dst : Option (List Nat)) : List Carry :=
  (numbered 0 (packBytes type bs)).map (fun (i, x) => f.downFlit type st x (64 * i) dst)

/-- The bytes as the flits carry them: those of a poisoned flit are zero. -/
def zeroPoisoned (bs : List (Byte × Bool)) : List Byte :=
  (piecesOf 64 bs).flatMap (fun g => if g.any (·.2) then g.map (fun _ => 0) else g.map (·.1))

/-- Result bytes with their poison, element by element. -/
def spread (es : List ResultElem) : List (Byte × Bool) := es.flatMap (fun e => e.1.map (fun b => (b, e.2)))

/-- The last flit of a stripe carries last, and seg_end at a segment's end on the plane. -/
def Firing.closeStripe (f : Firing) (p : Nat) (st : Stripe) (cs : List Carry) : List Carry :=
  (numbered 1 cs).map (fun (i, c) =>
    if i == cs.length then { c with flit := { c.flit with last := true, segEnd := f.endsSeg p st } } else c)

/-- The kiln queues flits for the die nodes that lead to receivers. -/
def State.sendFlits (s : State) (f : Firing) (p : Nat) (cs : List Carry) : State :=
  s.modNode (nodeIx 0 false p) (fun n => { n with outDown := n.outDown ++ cs.flatMap (fun c =>
    (inputsTo 0 (c.dst.getD f.receivers)).map (fun i => (i, c))) })

/-- What a complete stripe gives: its flits, its result bytes as receivers hold them, the bytes beside them, the leaves' own
bytes of a SCAN, and its statuses. -/
structure StripeOut where
  flits  : List Carry := []
  result : List Byte := []
  aux    : List Byte := []
  scan   : List (Nat × List Byte) := []
  range  : Bool := false
  bad    : Bool := false
  poison : Bool := false
  ovf    : Bool := false

/-- Result flits in the LOC layout: values, and ranks or records beside them (R132, R201). -/
def Firing.locOut (f : Firing) (type : BitVec 8) (st : Stripe) (w : Nat) (xs : List (List Byte × List Byte × Bool)) : StripeOut :=
  let ps := locFlits type w xs
  let shown := (piecesOf (locPer w) xs).map (fun g => (g, g.any (·.2.2)))
  let val (i : List Byte × List Byte × Bool → List Byte) : List Byte :=
    shown.flatMap (fun e => e.1.flatMap (fun x => if e.2 then (i x).map (fun _ => 0) else i x))
  { flits := (numbered 0 ps).map (fun (i, x) => f.downFlit type st x (locPer w * i) none),
    result := val (·.1), aux := val (·.2.1), poison := xs.any (·.2.2) }

/-- Winner records after the result flits of a stripe (R198): 32 to a flit, poisoned with their elements. -/
def Firing.winnerFlits (f : Firing) (st : Stripe) (xs : List ResultElem) : List Carry :=
  (numbered 0 (piecesOf 32 xs)).map (fun (i, g) =>
    f.downFlit 0x05 st { type := 0x05, payload := payload64 (g.map (·.1)).flatten, poison := g.any (·.2) } (32 * i) none)

/-- Sherd flits of a stream's elements; a poisoned element is one flit with no payload. -/
def Firing.sherdOut (f : Firing) (st : Stripe) (dst : Option (List Nat)) (cs : List Cell) : List Carry :=
  (numbered 0 cs).flatMap (fun (i, c) => (exactFlits c).map (fun x => f.downFlit x.type st x i dst))

/-- Results of a reducing stripe from its final elements. -/
def Firing.reduceOut (f : Firing) (st : Stripe) (cs : List Cell) : StripeOut :=
  let d := f.part st.seg
  let a := f.partArith st.seg
  let k0 := partBase f.desc f.arm.segs f.pad st.seg + st.lo
  let (es, rg, bad) := resultElems a d k0 cs
  let ranks := cs.map (fun c => (rankBytes c, c.poison))
  let base : StripeOut := { range := rg, bad := bad, poison := cs.any (·.poison), ovf := cs.any (·.ovf) }
  let w := if d.winner then f.winnerFlits st ranks else []
  if isLocOp d.op then
    let o := f.locOut 0x01 st (outSize d) ((List.zip es ranks).map (fun e => (e.1.1, e.2.1, e.1.2)))
    { o with flits := o.flits ++ w, range := rg, bad := bad, ovf := base.ovf }
  else if streamOut d then
    { base with flits := f.sherdOut st none cs, result := (es.flatMap (fun e => if e.2 then List.replicate 64 0 else e.1)) }
  else
    { base with flits := f.downBytes 0x01 st (spread es) none ++ w, result := zeroPoisoned (spread es),
                aux := if d.winner then ((piecesOf 32 ranks).flatMap (fun g => if g.any (·.2) then g.flatMap (fun e => e.1.map (fun _ => 0))
                  else g.flatMap (·.1))) else [] }

/-- Results of a SCAN stripe: each member's prefixes (R70, R217). -/
def Firing.scanOut (f : Firing) (p : Nat) (st : Stripe) (ps : List (List (Nat × Cell))) (pre : List Cell) : StripeOut :=
  let d := f.part st.seg
  let a := f.partArith st.seg
  let k0 := partBase f.desc f.arm.segs f.pad st.seg + st.lo
  let lowest := f.leaves.headD 0
  let one (l : Nat) : StripeOut :=
    if d.excl && d.firstFill && !d.preEn && l == lowest then {}
    else
      let cs := withPreload a (ps.map (scanPrefix a d.excl l)) pre
      let (es, rg, bad) := resultElems a d k0 cs
      { flits := f.closeStripe p st (f.downBytes 0x01 st (spread es) (some [l])), scan := [(l, zeroPoisoned (spread es))], range := rg, bad := bad,
        poison := cs.any (·.poison), ovf := cs.any (·.ovf) }
  f.leaves.foldl (fun acc l =>
    let o := one l
    { flits := acc.flits ++ o.flits, scan := acc.scan ++ o.scan, range := acc.range || o.range, bad := acc.bad || o.bad,
      poison := acc.poison || o.poison, ovf := acc.ovf || o.ovf }) {}

/-- Elements that a ROUTE_BACK drops: their records name a rank that is no member (R200). -/
def Firing.dropped (f : Firing) (recs : List Nat) : Nat := (recs.filter (fun r => r != 0xFFFF && !f.ranks.contains r)).length

/-- Results of a copied stripe (R199, R218, R219, R242). -/
def Firing.bytesOut (f : Firing) (st : Stripe) (bs : List (Byte × Bool)) : StripeOut :=
  if f.desc.kind == 0xA then
    let w := f.desc.b
    let n := st.hi - st.lo
    let per := locPer w
    let flits := piecesOf 64 bs
    let at1 (k : Nat) : List Byte × List Byte × Bool :=
      let g := flits.getD (k / per) []
      let raw := g.map (·.1)
      (bytesAt raw (w * (k % per)) w, bytesAt raw (w * per + 2 * (k % per)) 2, anyBad g)
    f.locOut 0x04 st w ((List.range n).map at1)
  else
    let part := f.runLen st bs.length
    { flits := (packRuns 0x04 part bs).map (fun (i, x) => f.downFlit 0x04 st x i none),
      result := (piecesOf (max 1 part) bs).flatMap zeroPoisoned, poison := anyBad bs }

/-! ### A stripe at the kiln -/

/-- What a stripe's data is, once it is there. -/
inductive StripeData where
  | cells (cs : List Cell) (ps : List (List (Nat × Cell)))
  | bytes (bs : List (Byte × Bool))
  | none

/-- A stripe's data: none while it is not complete. A firing that no member feeds has none to wait for. -/
def State.stripeData (s : State) (f : Firing) (st : Stripe) : Option StripeData :=
  let n := st.hi - st.lo
  if f.isGlaze then
    if (upFrom st.lo n).all (s.glazeDone f) then some (.cells ((upFrom st.lo n).map (s.glazeCell f)) []) else none
  else if f.contributors.isEmpty then some .none
  else if f.isBytes then
    let bs := tget [] f.held st.ix
    if (f.contributors.map (f.memberBytes st)).foldl (· + ·) 0 ≤ bs.length then some (.bytes bs) else none
  else
    let cs := tget [] f.values st.ix
    if n ≤ cs.length then some (.cells cs (tget [] f.scanIn st.ix)) else none

/-- An accumulator after a stripe's entries. The first entry fixes its placement; POSITION entries move its end on. -/
def State.kaccFeed (s : State) (f : Firing) (st : Stripe) (cs : List Cell) : State × Bool :=
  let d := f.desc
  let k := s.kacc d.kacc
  let (k2, bad) := k.feedAll (f.partArith 0) d f.span.1 st.lo cs
  (s.modKacc d.kacc (fun _ => { k2 with
    place := some (k.place.getD d.kPlace), spanEnd := if d.mode || d.kPlace then k.spanEnd else f.span.1 + 2 ^ f.span.2 }), bad)

/-- The free bytes of elements that MAPPED_OUT took from a GLAZE (R552). -/
def Firing.glazeHoles (f : Firing) (st : Stripe) (tick : Nat) (o : StripeOut) : StripeOut :=
  let w := outSize f.desc
  let holes := (upFrom st.lo (st.hi - st.lo)).filter f.depFailed.contains
  if holes.isEmpty then o
  else
    let bs := (numbered 0 o.result).map (fun (i, b) => if holes.contains (st.lo + i / w) then (Config.openByte (tick + i) i, false) else (b, false))
    let poisonAt (c : Carry) : Bool := c.flit.poison
    let fs := (numbered 0 (packBytes 0x01 bs)).map (fun (i, x) =>
      f.downFlit 0x01 st { x with poison := (o.flits[i]?).any poisonAt } (64 * i) none)
    { o with result := bs.map (·.1), flits := fs }

/-- The flits of a stripe and what is kept of it. Nothing is forwarded of an attempt that has overflowed (R142). -/
def State.deliver (s : State) (f : Firing) (p : Nat) (st : Stripe) (o : StripeOut) : State :=
  let segs (b : Bool) (xs : List Nat) : List Nat := if b then addOnce xs st.seg else xs
  let ovf := f.ovf || o.ovf
  let t := s.modFiring f.uid (fun x => { x with
    result := tset [] x.result st.ix o.result, aux := tset [] x.aux st.ix o.aux, scan := tset [] x.scan st.ix o.scan,
    range := x.range || o.range || o.bad, rangeBad := x.rangeBad || o.bad, rangeSegs := segs (o.range || o.bad) x.rangeSegs,
    poisoned := x.poisoned || o.poison, ovf := ovf, ovfSegs := segs o.ovf x.ovfSegs })
  if ovf || !delivers f.desc then t
  else t.sendFlits f p (if f.desc.kind == 5 then o.flits else f.closeStripe p st o.flits)

/-- The kiln finishes a complete stripe of a plane. Effects beyond the tree happen once (R396). -/
def State.finishStripe (s : State) (f : Firing) (p : Nat) (st : Stripe) (dat : StripeData) (pre : List Cell) : State :=
  let d := f.part st.seg
  let a := f.partArith st.seg
  let once := !f.appliedStripes.contains st.ix
  let s := s.modFiring f.uid (fun x => { x with doneIx := tmod 0 x.doneIx p (· + 1), appliedStripes := addOnce x.appliedStripes st.ix })
  match dat with
  | .bytes bs =>
    let o := f.bytesOut st bs
    let n := if d.kind == 0xA && once then
        f.dropped ((numbered 0 (piecesOf 2 o.aux)).filterMap (fun (k, x) =>
          if (piecesOf 64 bs).getD (k / locPer d.b) [] |> anyBad then none else some (ofLe x)))
      else 0
    (s.deliver f p st o).modFiring f.uid (fun x => { x with drop := x.drop + n })
  | .none =>
    if d.kFinal then
      let k := s.kacc d.kacc
      s.deliver f p st (f.reduceOut st (withPreload a ((upFrom st.lo (st.hi - st.lo)).map (k.final a d)) pre))
    else s
  | .cells cs ps =>
    let spill := cs.any (·.ovf)
    if f.isGlaze then s.deliver f p st (f.glazeHoles st s.tick (f.reduceOut st cs))
    else if f.isAdd then
      let s := s.modFiring f.uid (fun x => { x with
        ovf := x.ovf || spill, rangeBad := x.rangeBad || cs.any (·.range), range := x.range || cs.any (·.range) })
      if once && !scaledPart d then s.depAdd f st.lo cs else s
    else if d.kind == 5 then s.deliver f p st { f.scanOut p st ps pre with ovf := spill || (f.scanOut p st ps pre).ovf }
    else if d.kFeed then
      if cs.any (·.poison) then
        (s.modFiring f.uid (fun x => { x with depPoison := true })).decideEnd f.uid stFault (f.poisonRank.getD 0xFFFF) clDepositPoison.toNat
      else
        let (t, bad) := if once then s.kaccFeed f st cs else (s, false)
        let t := t.modFiring f.uid (fun x => x.markRange st.seg bad)
        if d.kFinal then
          let k := t.kacc d.kacc
          t.deliver f p st (f.reduceOut st (withPreload a ((upFrom st.lo (st.hi - st.lo)).map (k.final a d)) pre))
        else t
    else s.deliver f p st (f.reduceOut st (withPreload a cs pre))

/-- Whether a firing's flow waits for memory to accept an add (R553). -/
def State.flowWaits (s : State) (f : Firing) : Bool := f.isAdd && s.dep.queue.any (fun r => r.uid == f.uid)

/-- The next stripe of a plane, if it is complete. -/
def State.advanceOne (s : State) (uid p : Nat) : Option State :=
  match s.firing? uid with
  | none => none
  | some f =>
    if f.st != .granted || s.flowWaits f then none
    else match (f.planeOrder p)[tget 0 f.doneIx p]? with
    | none => none
    | some ix => match f.stripe? ix with
      | none => none
      | some st => match s.stripeData f st, f.preloadCells st with
        | some dat, some pre => some (s.finishStripe f p st dat pre)
        | _, _ => none

/-- Finishes the complete stripes of a plane in order. -/
def State.advancePlane (uid p : Nat) : Nat → State → State
  | 0, s => s
  | fuel + 1, s => match s.advanceOne uid p with
    | none => s
    | some t => State.advancePlane uid p fuel t

/-- Whether every stripe of a firing's current attempt has been finished. -/
def Firing.allDone (f : Firing) : Bool :=
  (!f.count2 || f.phase1Done) && f.usesNow.all (fun p => decide ((f.planeOrder p).length ≤ tget 0 f.doneIx p))

/-- The adds of a scaled DEPOSIT follow when the whole attempt has drained without an overflow (R144). -/
def State.scaledAdds (s : State) (uid : Nat) : State :=
  match s.firing? uid with
  | none => s
  | some f =>
    if f.st == .granted && f.isAdd && scaledPart f.desc && f.allDone && !f.ovf && f.phase1Done == false then
      f.stripes.foldl (fun a st => match a.firing? uid with
        | some g => a.depAdd g st.lo (tget [] g.values st.ix)
        | none => a) (s.modFiring uid (fun x => { x with phase1Done := true }))
    else s

/-- The count vector follows the results (R243): COUNT flits on the plane of phase 1, once every stripe is done. -/
def State.sendCounts (s : State) (uid : Nat) : State :=
  match s.firing? uid with
  | none => s
  | some f =>
    let ix := f.stripes.length
    if f.st == .granted && f.desc.countRec && f.allDone && (tget [] f.aux ix).isEmpty then
      (s.modFiring uid (fun x => { x with aux := tset [] x.aux ix f.countVector })).sendFlits f f.phasePlane
        ((numbered 0 (piecesOf 64 f.countVector)).map (fun (i, bs) =>
          { flit := { type := 0x06, setter := BitVec.ofNat 10 (f.setter.getD 0), payload := payload64 bs }, ix := ix, off := 64 * i }))
    else s

/-- The kiln goes on with a firing as far as its data allows. -/
def State.kilnAdvance (s : State) (uid : Nat) : State :=
  match s.firing? uid with
  | none => s
  | some f => ((f.usesNow.foldl (fun a p => State.advancePlane uid p (f.stripes.length + 1) a) s).scaledAdds uid).sendCounts uid

/-! ### A flit at the kiln -/

/-- Phase 1 of a COUNT firing ends at the kiln: each member learns its offset, and every member the total (R242). -/
def State.phaseOneEnd (s : State) (f : Firing) (p total : Nat) : State :=
  let t := s.modFiring f.uid (fun x => { x with phase1Done := true })
  (t.sendFlits f p (f.leaves.map (fun l =>
    { flit := { type := 0x06, last := true, setter := BitVec.ofNat 10 (f.setter.getD 0),
                payload := payload64 (leBytes 4 total ++ leBytes 4 (f.countOff l)) }, dst := some [l], ix := phaseOneIx }))).kilnAdvance f.uid

/-- A flit at the kiln of a plane. One whose overflow word is not zero stops the forwarding of results at once (R142 step 1). -/
def State.upAtKiln (s : State) (p i : Nat) (f : Firing) (sl : Slot) (c : Carry) : State :=
  let ix := nodeIx 0 false p
  if c.ix = phaseOneIx then
    let t := sl.modIn i (fun x => { x with count := some (numAt c.flit.payload 0 4) })
    let s := s.modNode ix (fun nd => nd.withSlot t [])
    match t.countSum with
    | some n => if f.phase1Done then s else s.phaseOneEnd f p n
    | none => s
  else match f.stripe? c.ix with
  | none => s
  | some st =>
    if c.flit.type == 0x04 && !f.isBytes then
      (s.modFiring f.uid (fun x => { x with held := tmod [] x.held c.ix (fun bs => bs ++ c.flit.payload.map (fun b => (b, c.flit.poison))) })).kilnAdvance
        f.uid
    else if f.isBytes then
      let (t, os) := f.joinAll 0 p (f.stripes.length + 1) (sl.modIn i (fun x => f.readBytes st 0 i x c))
      ((s.modNode ix (fun nd => nd.withSlot t [])).modFiring f.uid (fun x => { x with
        held := os.foldl (fun h e => tset [] h e.1.ix e.2) x.held })).kilnAdvance f.uid
    else
      let was := (sl.inp i).cells.length
      let sl := sl.modIn i (fun x => f.readFlit st 0 i x c)
      let (t, os) := f.combineAll 0 p (sl.fuel + 1) sl
      let bad := f.desc.kind != 5 && os.any (fun o => o.cell.range)
      let spill := ((sl.inp i).cells.drop was).any (·.ovf) || os.any (fun o => o.cell.ovf)
      let s := (s.modNode ix (fun nd => nd.withSlot t [])).modFiring f.uid (fun x => { x.markRange st.seg bad with
        ovf := x.ovf || spill, ovfSegs := if spill then addOnce x.ovfSegs st.seg else x.ovfSegs,
        values := os.foldl (fun h o => tmod [] h o.ix (fun cs => cs ++ [o.cell])) x.values,
        scanIn := if f.desc.kind == 5 then os.foldl (fun h o => tmod [] h o.ix (fun xs => xs ++ [o.parts])) x.scanIn else x.scanIn })
      s.kilnAdvance f.uid

/-! ### GRANT -/

/-- What a grant sets off when no member's data has to come first: deposits, and stripes that wait for none. -/
def State.startGranted (s : State) (uid : Nat) : State :=
  match s.firing? uid with
  | none => s
  | some f =>
    if f.isInit then s.depZero f
    else if f.isGlaze then f.stripes.foldl (fun a st => a.depGlaze f st.lo (st.hi - st.lo)) s
    else if f.moves && (f.contributors.isEmpty || (f.stripes.isEmpty && !f.count2)) then s.kilnAdvance uid
    else s

/-- Offers flits on several links. -/
def State.driveAll (s : State) (keys : List Nat) : State := keys.foldl State.drive s

/-- The kiln offers flits on its downward links. -/
def State.driveKiln (s : State) : State :=
  s.driveAll ((List.range 4).flatMap (fun p => (List.range s.n).map (fun d => linkKey (dieQ d) .down p)))

/-- GRANT: the kiln offers what is free, and grants the first firing of its queue that may be granted; one that fails its last
checks ends instead (R304, R306, R546). -/
def execGrant (s : State) : Host.Outcome State Fault Refusal :=
  if s.kiln.paceHold || s.kiln.admitStopped then .next s
  else
    let t := s.offer
    match t.pickGrant with
    | none => .next t
    | some f => match t.kaccCheck f, t.depCheck f with
      | some (st, c), _ => .next (t.kaccRefuse f st c).offer
      | none, some (st, c) => .next (t.decideEnd f.uid st 0xFFFF c).offer
      | none, none => .next (((t.grantOne f).startGranted f.uid).sendEnds (t.kiln.firings.length + 1) f.group).offer.noteOld.driveKiln

end Sys2Proof.Machine
end

