-- ==== Sys2Proof/Machine/Datapath.lean ====
section
/-! DEFINITION. Flits at nodes (R31 to R36, R41 to R45, R51, R405), the bridge links and their retry (R46, R47), stage cones (R317,
R399), and what a leaf port makes of result flits (R196, R199, R212 to R219, R241 to R243, R407). -/

namespace Sys2Proof.Machine
open Sys2Proof

/-! ### Links -/

/-- A link goes out of service: what it holds, and what its driver still had for it, is lost (R389, R390). -/
def State.cutLink (s : State) (key reason : Nat) : State := (s.failLink key reason).quietLink key

/-- Links below a node in a plane. -/
def linksBelow (q p : Nat) : List Nat :=
  (List.range (radix q)).map (fun i => if 33 ≤ q then leafLinkKey (childLeaf q i) .down p else linkKey (childQ q i) .down p)

/-- The flit a receiver takes off an on-die link: its bytes are what the wires give. -/
def Link.arrived (k : Link) (c : Carry) (err : BitVec 568) : Option Carry :=
  let bs := k.read false err
  if flitOk bs then some { c with flit := flitOf bs } else none

/-- The flit waiting at an input of a node: taken off an on-die link, or out of the bridge's receive buffer. none when there is
none; a flit whose CRC fails takes its link out of service (R45, R41). -/
def State.takeFlit (s : State) (key : Nat) (err : BitVec 568) : Option (Option Carry × State) :=
  let k := s.link key
  if isBridge key then
    match k.rxq with
    | [] => none
    | c :: cs => some (some c, s.setLink key { k with rxq := cs })
  else if k.failed then none
  else match k.offer with
  | none => none
  | some c => match k.arrived c err with
    | some x => some (some x, s.setLink key (k.took false s.time))
    | none => some (none, (s.setLink key { k with crcErr := satInc k.crcErr }).cutLink key 2)

/-! ### Flits at a node -/

/-- The firing whose result flits a node still copies down: granted, or ended with its data run through to the end (R309). -/
def State.downFiring (s : State) (x : Nat) : Option Firing :=
  s.kiln.firings.find? (fun f => f.setter == some x && (f.st == .granted || (f.st == .ended && f.endMsg.any (fun e =>
    e.status == stOk || e.status == stRange || e.status == stOverflow))))

/-- A stray flit is discarded and counted (R32). -/
def State.stray (s : State) (ix : Nat) : State := s.modNode ix (fun n => { n with stat := { n.stat with stray := satInc n.stat.stray } })

/-- A flit from below at a node. -/
def State.upAt (s : State) (q p i : Nat) (c : Carry) : State :=
  let ix := nodeIx q false p
  match s.granted? c.flit.setter.toNat, (s.node ix).slot? c.flit.setter.toNat with
  | some f, some sl => if q = 0 then s.upAtKiln p i f sl c else s.upAtNode q p i f sl c
  | _, _ => s.stray ix

/-- Whether a firing is active at a node of a plane for its result flits: a granted one while it holds its slot there, which a
redeal releases (R395); one whose data has run through to the end on the planes it used last. -/
def State.activeDown (s : State) (f : Firing) (q p : Nat) : Bool :=
  if f.st == .granted then ((s.node (nodeIx q false p)).slot? (f.setter.getD 1024)).isSome else f.usesNow.contains p

/-- A flit from above at a node: copied to every input that leads to a receiver of it, or discarded as stray (R32). -/
def State.downAt (s : State) (q p : Nat) (c : Carry) : State :=
  let ix := nodeIx q false p
  match s.downFiring c.flit.setter.toNat with
  | some f =>
    if s.activeDown f q p then
      s.modNode ix (fun n => { n with outDown := n.outDown ++ (inputsTo q (c.dst.getD f.receivers)).map (fun i => (i, c)) })
    else s.stray ix
  | none => s.stray ix

/-- Flits ready at a node. -/
def Node.ready (n : Node) : Nat := n.outUp.length + n.outDown.length

/-- A node whose pair is out keeps nothing. -/
def State.emptyNode (s : State) (ix : Nat) : State := s.modNode ix (fun n => { n with slots := [], outUp := [], outDown := [] })

/-- The links at a datapath node position, in both directions. -/
def linksAt (ix : Nat) : List Nat :=
  let q := qOf ix
  let p := planeOf ix
  (if q = 0 then [] else [linkKey q .up p, linkKey q .down p])
    ++ (linksBelow q p).flatMap (fun k => [k, keyReverse k])

/-- A datapath pair goes out of service: it keeps nothing, and its neighbours stop using the links to it (R390). -/
def State.losePair (s : State) (ix reason : Nat) : State :=
  (linksAt ix).foldl State.quietLink ((s.modStat ix (fun n => n.pairLost reason)).emptyNode ix)

/-- A twin is taken out: the node goes on with the other (R386). -/
def State.takeover (s : State) (ix : Nat) (t : Twin) : State :=
  (s.modStat ix (fun n => (n.residue t).twinOut t 5)).nodeEvent ix 5 (twinCode t) 0

/-- The twins that a firing has at a node: those in service, but for one that has returned since its grant while its sibling serves
(R388). -/
def Node.twinsFor (n : Node) (setter : Nat) : Bool × Bool :=
  let w := match n.slot? setter with
    | some sl => sl.without
    | none => []
  (!n.stat.aOut && !(w.contains .a && !n.stat.bOut), !n.stat.bOut && !(w.contains .b && !n.stat.aOut))

/-- The hand-off of a node's twins (Table 1.3, R35): `before` is the state without the outputs of the flit that has arrived,
`after` the state with them. -/
def State.handoff (before after : State) (ix setter : Nat) (h : Handoff) : State :=
  let (hasA, hasB) := (before.node ix).twinsFor setter
  let residue (n : NodeStat) : NodeStat := let a := if h.firedA && hasA then n.residue .a else n
    if h.firedB && hasB then a.residue .b else a
  if (after.node ix).ready ≤ (before.node ix).ready then after
  else if !hasA || !hasB then
    if (if hasA then h.firedA else h.firedB) then (before.modStat ix residue).losePair ix 7 else after
  else if h.firedA && h.firedB then (before.modStat ix residue).losePair ix 7
  else if h.firedA then after.takeover ix .a
  else if h.firedB then after.takeover ix .b
  else if h.differ then
    let t := (before.modStat ix (fun n => { n with miscompare := satInc n.miscompare })).losePair ix 6
    match before.granted? setter with
    | some f => t.modKiln (fun k => { k with miscomp := addOnce k.miscomp (ix, f.uid) })
    | none => t
  else after

/-- Whether a node index names a datapath node that is built. -/
def State.dataIx (s : State) (ix : Nat) : Bool := ix / 4 % 2 == 0 && s.nodeBuilt (qOf ix)

/-- NODE_FLIT_ARRIVE: `err` are the bits of the flit that the link changed, `h` how the twins fare at the hand-off. -/
def execNodeFlitArrive (node : Nat) (dir : Dir) (input : Nat) (err : BitVec 568) (h : Handoff) (s : State) :
    Host.Outcome State Fault Refusal :=
  let q := qOf node
  let p := planeOf node
  if !s.dataIx node || (s.node node).stat.pairOut || (q == 0 && dir == .down) || decide (radix q ≤ input) then .next s
  else
    let key := inLink q p dir input
    match s.takeFlit key err with
    | none => .next s
    | some (none, t) => .next t
    | some (some c, t) =>
      let u := match dir with
        | .up => t.upAt q p input c
        | .down => t.downAt q p c
      let v := t.handoff u node c.flit.setter.toNat h
      let w := match dir with
        | .up => if q = 0 then v.driveKiln else v.drive (linkKey q .up p)
        | .down => v.driveAll (linksBelow q p)
      .next (if isBridge key then w else w.drive key)

/-! ### The bridge (R46, R47) -/

/-- A flit that the receiver of a bridge link takes off its wires, whether its CRC holds, and the link after it. -/
def Link.bridgeTake (k : Link) (now : Quad) (c : Carry) (err : BitVec 568) : Carry × Bool × Link :=
  let bs := k.read true err
  ({ c with flit := flitOf bs }, flitOk bs, k.took true now)

/-- A flit that the receiver of a bridge link keeps: past the bridge it is no replay (Table 1.6). -/
def Link.kept (k : Link) (c : Carry) : Link :=
  { k with rxq := k.rxq ++ [{ c with flit := { c.flit with replay := false } }], recvCount := k.recvCount + 1 }

/-- A flit other than a LINK_NAK at the receiver of a bridge link (R47 steps 1 to 3): while it waits it discards every flit but
the one resent at the named count. -/
def Link.bridgeRx (k : Link) (c : Carry) (good sentReplay : Bool) : Link :=
  if !good then
    let k := { k with crcErr := satInc k.crcErr }
    match k.waiting with
    | none => { k with waiting := some k.recvCount, nak := some k.recvCount, noReplay := 0, repeated := false }
    | some n => if sentReplay then { k with nak := some n, noReplay := 0 } else { k with noReplay := k.noReplay + 1 }
  else match k.waiting with
  | none => k.kept c
  | some n =>
    if !c.flit.replay then { k with noReplay := k.noReplay + 1 }
    else if c.count != n then k
    else { k with waiting := none, noReplay := 0, repeated := false }.kept c

/-- BRIDGE_FLIT_RECEIVE: a flit other than a LINK_NAK. -/
def execBridgeFlitReceive (key : Nat) (err : BitVec 568) (s : State) : Host.Outcome State Fault Refusal :=
  let k := s.link key
  match k.offer with
  | none => .next s
  | some c =>
    if !isBridge key || k.failed || c.flit.type == 0xF0 then .next s
    else
      let (x, good, k) := k.bridgeTake s.time c err
      .next ((s.setLink key (k.bridgeRx x good c.flit.replay)).driveAll [key, keyReverse key])

/-- The sender's answer to a LINK_NAK: it resends from the named flit, or none when that flit has left the buffer. -/
def Link.resendFrom (k : Link) (n : BitVec 16) : Option Link :=
  let first := k.sentCount - BitVec.ofNat 16 k.retry.length
  let i := (n - first).toNat
  if i < k.retry.length then some { k with resend := (k.retry.drop i).map (fun c => { c with flit := { c.flit with replay := true } }) } else none

/-- LINK_NAK_RECEIVE: the LINK_NAK on a link is for the sender of the other direction. -/
def execLinkNakReceive (key : Nat) (err : BitVec 568) (s : State) : Host.Outcome State Fault Refusal :=
  let k := s.link key
  match k.offer with
  | none => .next s
  | some c =>
    if !isBridge key || k.failed || c.flit.type != 0xF0 then .next s
    else
      let (x, good, k) := k.bridgeTake s.time c err
      if !good then .next ((s.setLink key { k with crcErr := satInc k.crcErr }).drive key)
      else
        let r := keyReverse key
        let t := s.setLink key k
        match (t.link r).resendFrom (BitVec.ofNat 16 (numAt x.flit.payload 0 2)) with
        | some y => .next ((t.setLink r y).driveAll [key, r])
        | none => .next ((t.cutLink r 3).drive key)

/-- LINK_NAK_REPEAT: 32 flits without replay have come while the receiver waits. -/
def execLinkNakRepeat (key : Nat) (s : State) : Host.Outcome State Fault Refusal :=
  let k := s.link key
  match k.waiting with
  | none => .next s
  | some n =>
    if !isBridge key || k.failed || k.repeated || decide (k.noReplay < 32) then .next s
    else .next ((s.setLink key { k with nak := some n, repeated := true, noReplay := 0, nakRepeat := satInc k.nakRepeat }).drive
      (keyReverse key))

/-- BRIDGE_RETRY_EXHAUSTED: 32 more have come after the repeat. -/
def execBridgeRetryExhausted (key : Nat) (s : State) : Host.Outcome State Fault Refusal :=
  let k := s.link key
  if !isBridge key || k.failed || k.waiting.isNone || !k.repeated || decide (k.noReplay < 32) then .next s
  else .next (s.cutLink key 3)

/-! ### Twins and stage cones (R386, R399, R400) -/

/-- A twin's fault at a node position: the other takes over, or the pair is lost. -/
def State.twinFault (s : State) (ix : Nat) (t : Twin) : State :=
  let n := s.stat ix
  let ctl := ix / 4 % 2 == 1
  let out := match t with
    | .a => n.aOut
    | .b => n.bOut
  if n.pairOut || out then s
  else if n.aOut || n.bOut then
    if ctl then s.modStat ix (fun n => n.pairLost 9) else s.losePair ix 7
  else (s.modStat ix (fun n => n.twinOut t (if ctl then 8 else 5))).nodeEvent ix (if ctl then 8 else 5) (twinCode t) 0

/-- The kiln's own control-path pair lost: no more admission (R400). -/
def State.noteKilnCtl (s : State) : State :=
  if (s.ctlNode (nodeIx 0 true 0)).stat.pairOut then s.modKiln (fun k => { k with admitStopped := true }) else s

/-- Whether a node index names a control-path node. -/
def isCtl (ix : Nat) : Bool := ix / 4 % 2 == 1

/-- The twins of a control-path node differ and neither residue check fires: the pair is lost, for nothing tells which is wrong
(R400, Table 12.6; assumption log 95). -/
def State.ctlDiffers (s : State) (ix : Nat) : State :=
  s.modStat ix (fun n => { n with miscompare := satInc n.miscompare }.pairLost 9)

/-- TWIN_RESIDUE_FIRE: a residue check or SECDED of a twin, counted and resolved; on the control path also a copy of its link that
fails its CRC-24 (R399), or a compare that differs. -/
def execTwinResidueFire (node : Nat) (f : TwinFire) (s : State) : Host.Outcome State Fault Refusal :=
  if !s.nodeBuilt (qOf node) || (s.stat node).pairOut then .next s
  else match f.cause with
  | .residue => .next ((s.modStat node (fun n => n.residue f.twin)).twinFault node f.twin).noteKilnCtl
  | .linkCrc => if isCtl node then .next (s.twinFault node f.twin).noteKilnCtl else .next s
  | .compare => if isCtl node then .next (s.ctlDiffers node).noteKilnCtl else .next s

/-- One copy of a leaf port's own control link fails, upward: the other copy serves, with an event of kind 0x08 (Table 12.2). -/
def State.leafCopyLost (s : State) (leaf : Nat) (copy : Twin) : State :=
  let p := s.leaf leaf
  let was := match copy with
    | .a => p.ctlA
    | .b => p.ctlB
  if was then s
  else
    (s.setLeaf leaf (match copy with
      | .a => { p with ctlA := true }
      | .b => { p with ctlB := true })).fault
      { kind := 8, rank := s.cfg.rankOf leaf, wh := leaf, twin := twinCode copy, ctrl := true } (s.leafSags leaf)

/-- STAGE_CONE_EXPIRY: a datapath link that waits for a handshake fails; a copy of a control-path link is the fault of the twin that
drives it, on a leaf port's control link of its cluster node's twin; upward that link has two copies of the leaf port's own (R399). -/
def execStageConeExpiry (h : Handshake) (s : State) : Host.Outcome State Fault Refusal :=
  match h with
  | .link key => if (s.link key).failed || (s.link key).offer.isNone then .next s else .next (s.cutLink key 4)
  | .ctrl node t => if !s.nodeBuilt (qOf node) || node / 4 % 2 == 0 then .next s else .next (s.twinFault node t).noteKilnCtl
  | .leafCtrl leaf t .down => if !s.leafExists leaf then .next s else .next (s.twinFault (leafCtl leaf) t)
  | .leafCtrl leaf t .up => if !s.leafExists leaf then .next s else .next (s.leafCopyLost leaf t)

/-! ### Result flits at a leaf port -/

/-- Where bytes of a result flit go: an address for each, in the order of the flit. -/
abbrev Placed := List (Nat × Byte)

/-- Bytes laid from an address. -/
def bytesFrom (a : Nat) (bs : List Byte) : Placed := (numbered 0 bs).map (fun e => (a + e.1, e.2))

/-- The address of an element of the result, none for one that the member does not receive (R215). -/
def elemAddr (d : Desc) (pad : Bool) (w : Who) (base size k : Nat) : Option Nat :=
  let (lo, hi) := sliceRange d pad w
  if lo ≤ k && k < hi then some (base + (k - lo) * size) else none

/-- Bytes of a run of result bytes that starts `pos` bytes into the part's result vector. -/
def runBytes (d : Desc) (pad : Bool) (w : Who) (base size pos : Nat) (bs : List Byte) : Placed :=
  (numbered pos bs).filterMap (fun (i, b) => (elemAddr d pad w base size (i / size)).map (fun a => (a + i % size, b)))

/-- Elements in the LOC layout: value and 16-bit companion of element k of the stripe (Table 4.2). -/
def locAt (per w : Nat) (bs : List Byte) (j : Nat) : List Byte × List Byte := (bytesAt bs (w * j) w, bytesAt bs (w * per + 2 * j) 2)

/-- Where the bytes of a result flit other than a sherd go. -/
def Taken.place (t : Taken) (st : Stripe) (c : Carry) : Placed :=
  let d := t.part st.seg
  let pad := t.pad
  let n := st.hi - st.lo
  let pay := c.flit.payload
  let w := outSize d
  if c.flit.type == 0x05 then
    if isLocOp d.op then [] else (List.range (min 32 (n - c.off))).flatMap (fun j => match elemAddr d pad t.who d.winAddr 2 (st.lo + c.off + j) with
      | some a => bytesFrom a (bytesAt pay (2 * j) 2)
      | none => [])
  else if d.kind == 0xA then
    (List.range (min (locPer w) (n - c.off))).flatMap (fun j =>
      let (v, r) := locAt (locPer w) w pay j
      let a := d.dst + (st.lo + c.off + j) * w
      if c.flit.poison || ofLe r == t.rank then bytesFrom a v
      else if d.rbFill then [] else bytesFrom a (List.replicate w 0))
  else if isLocOp d.op && opKind d.kind then
    (List.range (min (locPer w) (n - c.off))).flatMap (fun j =>
      let (v, r) := locAt (locPer w) w pay j
      let k := st.lo + c.off + j
      match elemAddr d pad t.who d.dst w k, elemAddr d pad t.who d.winAddr 2 k with
      | some a, some b => bytesFrom a v ++ bytesFrom b r
      | _, _ => [])
  else if d.kind == 6 || d.kind == 7 then
    if countRules t.desc t.ragged then bytesFrom (d.dst + st.lo + c.off) (pay.take (n - c.off))
    else
      let part := n * d.b
      (numbered c.off (pay.take (part - c.off % part))).map (fun (i, b) =>
        (d.dst + i / part * (nElems d pad * d.b) + st.lo * d.b + i % part, b))
  else runBytes d pad t.who d.dst w (st.lo * w + c.off) (pay.take (n * w - c.off))

/-- The chunk of a result area that an address lies in (R270). -/
def Taken.chunkAt (t : Taken) (c a : Nat) : Option Nat :=
  ((t.areas c).find? (fun e => !e.2.input && decide (e.2.addr ≤ a) && decide (a < e.2.addr + e.2.len))).map (fun e => e.1 + (a - e.2.addr) / c)

/-- The bytes of a poisoned flit stay unwritten; their chunks are named (R407). -/
def Taken.poisonedAt (t : Taken) (c : Nat) (ws : Placed) : Taken :=
  { t with poisAt := (ws.filterMap (fun w => t.chunkAt c w.1)).foldl addOnce t.poisAt }

/-- Result bytes on their way to scratchpad; later bytes for an address replace earlier ones. -/
def Taken.queueWrites (t : Taken) (ws : Placed) : Taken :=
  { t with writes := t.writes.filter (fun w => !ws.any (fun x => x.1 == w.1)) ++ ws }

/-- A sherd flit joins the stream of its stripe: a new element, more of the last one, or the start of a stripe resent. -/
def sherdJoin (per : Nat) (es : List (List Byte × Bool)) (c : Carry) : List (List Byte × Bool) :=
  let fresh : List Byte × Bool :=
    if c.flit.poison then ([], true) else (sherdFlitAdd [] false c.sherds c.flit.payload, false)
  match es[c.off]? with
  | none => es ++ [fresh]
  | some (bs, bad) =>
    if c.off + 1 = es.length && !bad && (exactOfFrag per bs).isNone then
      es.take c.off ++ [(sherdFlitAdd bs (c.flit.type == 0x03) c.sherds c.flit.payload, c.flit.poison)]
    else es.take c.off ++ [fresh]

/-- The elements of a sherd stream written up to the capacity of the area (R169); a poisoned one leaves 64 bytes as they are. -/
def layStream (cap a : Nat) : List (List Byte × Bool) → List (Placed × Bool) × Nat
  | [] => ([], 0)
  | e :: es =>
    let n := if e.2 then 64 else e.1.length
    if cap < n then ([], es.length + 1)
    else
      let (r, d) := layStream (cap - n) (a + n) es
      ((bytesFrom a (if e.2 then List.replicate 64 0 else e.1), e.2) :: r, d)

/-- Once every stripe of a sherd stream has come, the stream is written. -/
def Taken.streamDone (t : Taken) (c : Nat) : Taken :=
  let d := t.desc
  let ss := t.stripes
  if !ss.all (fun st => t.streamsIn.contains st.ix) then t
  else
    let all := (ss.map (fun st => tget [] t.streams st.ix)).flatten
    let (lo, hi) := sliceRange d t.pad t.who
    let (ps, drop) := layStream d.dstCap d.dst ((all.drop lo).take (hi - lo))
    let t := { t with partDrop := drop }
    ps.foldl (fun x e => if e.2 then x.poisonedAt c e.1 else x.queueWrites e.1) t

/-- A COUNT flit at a member: its offset and the total (R242), or the count vector (R243). -/
def Taken.takeCount (t : Taken) (c : Carry) : Taken :=
  if c.ix = phaseOneIx then { t with counted := true, counts := [(numAt c.flit.payload 0 4, numAt c.flit.payload 4 4)] }
  else t.queueWrites (bytesFrom (t.desc.countAddr + c.off) (c.flit.payload.take (4 * t.m - c.off)))

/-- A result flit taken by a member. -/
def Taken.takeResult (t : Taken) (chunk : Nat) (c : Carry) : Taken :=
  if c.flit.type == 0x06 then t.takeCount c
  else match t.stripes.find? (fun s => s.ix == c.ix) with
  | none => t
  | some st =>
    let d := t.part st.seg
    if streamOut d then
      let a := t.arith d
      let u := { t with streams := tmod [] t.streams c.ix (fun es => sherdJoin (if d.kind == 8 then 1 else a.sherds) es c)
                        streamsIn := if c.flit.last then addOnce t.streamsIn c.ix else t.streamsIn }
      if c.flit.last then u.streamDone chunk else u
    else if c.flit.poison then t.poisonedAt chunk (t.place st c)
    else t.queueWrites (t.place st c)

/-- Whether a member still takes result flits: it runs, and has not ended early. -/
def Taken.listens (t : Taken) : Bool :=
  t.phase == .running && t.ended.all (fun e => e.status == stOk || e.status == stRange || e.status == stOverflow)

/-- RESULT_FLIT_RECEIVE: a flit on the downward link of a leaf port in a plane. -/
def execResultFlitReceive (leaf plane : Nat) (err : BitVec 568) (s : State) : Host.Outcome State Fault Refusal :=
  let key := leafLinkKey leaf .down plane
  if decide (4 ≤ plane) || !s.leafExists leaf then .next s
  else match s.takeFlit key err with
  | none => .next s
  | some (none, t) => .next t
  | some (some c, t) =>
    let p := t.leaf leaf
    let q := { p with poisonFlits := if c.flit.poison then satInc p.poisonFlits else p.poisonFlits }
    match p.taken.find? (fun x => x.listens && x.setter == c.flit.setter) with
    | none => .next ((t.setLeaf leaf q).drive key)
    | some x => .next ((t.setLeaf leaf (if p.failed then q else q.modTaken x.cnt (fun y => y.takeResult p.chunk c))).drive key)

end Sys2Proof.Machine
end

