-- ==== Sys2Proof/Machine/Faults.lean ====
section
/-! DEFINITION. Losses registered at the kiln (R387, R389 to R394), the overflow replay (R142 to R144) and the loss of leaves (R400 to
R404). -/

namespace Sys2Proof.Machine
open Sys2Proof

/-! ### Redeals (R391 to R394) -/

/-- The plane that carries a firing on the latency path, or phase 1 of a COUNT firing. -/
def Firing.onlyPlane (f : Firing) : Option Nat :=
  if f.latency || (f.count2 && !f.phase1Done) then some (pickPlane f.planes f.fn.toNat) else none

/-- A firing after a redeal over H': what the kiln has of stripes that have moved is dropped, they come again whole. -/
def Firing.redealt (f : Firing) (h : List Nat) : Firing :=
  let deals := f.deals ++ [h]
  let plane (ds : List (List Nat)) (s : Nat) : Option Nat := stripePlane f.latency f.fn.toNat ds s
  let moved := (f.stripes.map (·.ix)).filter (fun s => plane f.deals s != plane deals s)
  let keep {α : Type} (t : Table α) : Table α := t.filter (fun e => !moved.contains e.1)
  { f with planes := h, deals := deals, held := keep f.held, values := keep f.values, scanIn := keep f.scanIn, waitPlane := none }

/-- The slots of a setter at the kiln on planes leave, with its flits that wait there. -/
def State.dropKilnSlots (s : State) (x : Nat) (planes : List Nat) : State :=
  planes.foldl (fun a p => a.modNode (nodeIx 0 false p) (fun n =>
    { n with slots := n.slots.filter (fun y => y.setter != x),
             outDown := n.outDown.filter (fun e => e.2.flit.setter.toNat != x) })) s

/-- The kiln sends a redeal GRANT over H'. -/
def State.redeal (s : State) (f : Firing) (h : List Nat) : State :=
  let g := f.redealt h
  let t := (s.modFiring f.uid (fun _ => g)).dropKilnSlots (f.setter.getD 0) ((List.range 4).filter (fun p => !g.usesNow.contains p))
  (t.modKiln (fun k => { k with redeals := satInc k.redeals })).sendGrant g

/-- A latency-path redeal moves to its new plane once that plane has what it needs (R394). -/
def State.moveLatency (s : State) (held : Needs) (f : Firing) (h : List Nat) : State :=
  let p := pickPlane h f.fn.toNat
  if s.fits (held.add (s.heldNeeds f.uid)) (f.needs [p]) then (s.openSlots f [p]).redeal { f with doneIx := tset 0 f.doneIx p 0 } h
  else s.modFiring f.uid (fun x => { x with planes := h, waitPlane := some p })

/-- What registered losses do to one firing. -/
def State.lossOn (s : State) (uid : Nat) : State :=
  match s.firing? uid with
  | none => s
  | some f =>
    if f.st != .granted || f.cause.isSome || !f.usesPlane then s
    else
      let up := f.planes.filter (s.planeUp f.pathLeaves)
      if up.length = f.planes.length then s
      else if (match f.onlyPlane with
        | some p => up.contains p
        | none => false) then s
      else if up.isEmpty then s.decideEnd uid stFault 0xFFFF clNoPlane.toNat
      else if f.ovf then s.modFiring uid (fun x => { x with planes := up, waitPlane := none })
      else if f.latency then s.moveLatency s.redealNeeds f up
      else s.redeal f up

/-- Firings granted that a part out of service touches: those whose path holds it on a plane of their H. -/
def State.touched (s : State) (plane : Nat) (hit : List Nat → Bool) : Nat :=
  (s.kiln.firings.filter (fun f => f.st == .granted && f.planes.contains plane && hit f.pathLeaves)).length

/-- Leaves below a link. -/
def underLink (key : Nat) (l : Nat) : Bool := if isLeafKey key then l == keyLeaf key else below (keyQ key) l

/-- Registers a failed link. One taken out on request has no fault event (R575). -/
def State.noteLink (s : State) (key : Nat) : State :=
  let t := s.modLink key (fun x => { x with reported := true })
  if (s.link key).reason = 0 then t
  else t.linkEvent key (s.link key).reason.toNat (s.touched (key % 4) (fun ls => ls.any (underLink key)))

/-- Registers a lost pair. One taken out on request has no fault event (R573); one lost to a miscompare names its firing (R387). -/
def State.notePair (s : State) (ix : Nat) : State :=
  let t := s.modStat ix (fun n => { n with reported := true })
  if ix / 4 % 2 = 1 then
    t.nodeEvent ix 9 3 (s.kiln.firings.filter (fun f => f.st != .ended && f.leaves.any (below (qOf ix)))).length
  else if (s.stat ix).outReason = 0 then t
  else
    let n := s.touched (planeOf ix) (fun ls => ls.any (below (qOf ix)))
    match (s.kiln.miscomp.find? (fun e => e.1 == ix)).bind (fun e => s.firing? e.2) with
    | some f => t.fault { kind := (s.stat ix).outReason.toNat, fn := f.fn.toNat, group := f.group, saggar := f.saggar,
                          wh := firstLeaf (qOf ix), level := levelOf (qOf ix), plane := planeOf ix, twin := 3, count := n,
                          status := stMiscompare.toNat } [f.saggar]
    | none => t.nodeEvent ix (s.stat ix).outReason.toNat 3 n

/-- A firing whose flit miscompared ends with MISCOMPARE (R387). -/
def State.endMiscompared (s : State) : State :=
  (s.kiln.miscomp.foldl (fun a e => a.decideEnd e.2 stMiscompare 0xFFFF 0) s).modKiln (fun k => { k with miscomp := [] })

/-- LOSS_REGISTER: every loss not yet registered, then its effect on each granted firing. -/
def execLossRegister (s : State) : Host.Outcome State Fault Refusal :=
  let links := (s.links.filter (fun e => e.2.failed && !e.2.reported)).map (·.1)
  let nodes := (s.nodes.filter (fun e => e.2.stat.pairOut && !e.2.stat.reported)).map (·.1)
  let ctls := (s.ctls.filter (fun e => e.2.stat.pairOut && !e.2.stat.reported)).map (·.1)
  let t := links.foldl State.noteLink s
  let t := (nodes ++ ctls).foldl State.notePair t
  let t := t.endMiscompared
  let t := (t.kiln.firings.map (·.uid)).foldl State.lossOn t
  .next t.offer.driveKiln

/-- REDEAL_RESOURCE_FREE: the first waiting redeal whose plane has what it needs. -/
def execRedealResourceFree (s : State) : Host.Outcome State Fault Refusal :=
  match s.kiln.firings.find? (fun f => f.st == .granted && f.waitPlane.any (fun p => s.fits (s.heldNeeds f.uid) (f.needs [p]))) with
  | none => .next s
  | some f => .next (s.moveLatency {} { f with waitPlane := none } f.planes)

/-! ### The overflow replay (R142, R144, R391) -/

/-- A firing as a replay GRANT leaves it. -/
def Firing.forReplay (f : Firing) : Firing :=
  { f with attempt := f.attempt + 1, deals := [f.planes], doneIx := [], appliedStripes := [], held := [], values := [], scanIn := [],
           result := [], aux := [], scan := [], ovf := false, ovfSegs := [], range := false, rangeBad := false, rangeSegs := [] }

/-- Fresh slots for a replay. -/
def State.freshSlots (s : State) (f : Firing) : State := (s.dropSlots f (List.range 4) true).openSlots f f.usesNow

/-- Whether the slots that a replay takes on planes it did not use are free. -/
def State.replayFits (s : State) (f : Firing) : Bool :=
  match f.setter with
  | none => false
  | some x =>
    let t := s.dropSlots f (List.range 4) true
    f.usesNow.all (fun p => ((s.node (nodeIx 0 false p)).slot? x).isSome)
      || t.fits (s.redealNeeds.add (s.heldNeeds f.uid)) { f.needs f.usesNow with glaze := [] }

/-- OVERFLOW_REPLAY: the attempt has drained. -/
def execOverflowReplay (setter : Nat) (s : State) : Host.Outcome State Fault Refusal :=
  match s.granted? setter with
  | none => .next s
  | some f =>
    if !f.ovf || !f.allDone || f.cause.isSome || f.preloadRange then .next s
    else if decide (3 ≤ f.attempt) || decide (scaleAt f.desc (f.attempt + 1) < -15) then
      .next (((s.decideEnd f.uid stOverflow 0xFFFF 0).sendEnds (s.kiln.firings.length + 1) f.group).offer.driveKiln)
    else if !s.replayFits f then .next s
    else
      let g := f.forReplay
      .next (((s.freshSlots f).modFiring f.uid (fun _ => g)).sendGrant g)

/-! ### Leaves (R400 to R404) -/

/-- Whether a leaf port has to fail: no plane of its link is in service, its control link is lost, or a control-path pair above it
is (R400, R401). -/
def State.leafMustFail (s : State) (l : Nat) : Bool :=
  let p := s.leaf l
  (List.range 4).all (fun k => (s.link (leafLinkKey l .up k)).failed || (s.link (leafLinkKey l .down k)).failed)
    || (p.ctlA && p.ctlB)
    || [0, dieQ (l / 256), leafQ l].any (fun q => (s.ctlNode (nodeIx q true 0)).stat.pairOut)

/-- LEAF_PORT_FAILURE_SIGNAL. -/
def execLeafPortFailureSignal (leaf : Nat) (s : State) : Host.Outcome State Fault Refusal :=
  if !s.leafExists leaf || (s.leaf leaf).failed || !s.leafMustFail leaf then .next s
  else .next (s.modLeaf leaf (fun p => p.fail.endAll s.time))

/-- Positions at a node that waited only for a leaf just failed go on to the kiln (R403). -/
def State.forwardPast (s before : State) (q : Nat) : State :=
  (s.ctlNode (nodeIx q true 0)).pos.foldl (fun a p => match a.groupRec q p.group with
    | none => a
    | some r =>
      if r.inputs.all (fun i => before.inputDone q p.group i p.armed) then a else a.forward q p.group p.ord r) s

/-- The lowest failed rank of a firing. -/
def State.lowestFailed (s : State) (f : Firing) : Nat :=
  match f.members.find? (fun e => s.kiln.failedLeaves.contains e.1) with
  | some e => e.2
  | none => 0xFFFF

/-- The kiln registers a leaf failure (R58, R403, R419). -/
def State.registerLeaf (s : State) (l : Nat) : State :=
  let t := (s.modLeaf l (fun p => { p with failReported := true, failCounted := true })).modKiln
    (fun k => { k with failedLeaves := insertRise l k.failedLeaves })
  let t := (t.leafEvent l (s.leaf l).unwritten).disableLeaf l
  let t := ((t.kiln.firings.filter (fun f => f.st != .ended && f.leaves.contains l)).map (·.uid)).foldl (fun a uid =>
    match a.firing? uid with
    | some f => a.decideEnd uid stFault (a.lowestFailed f) clLeafFailed.toNat
    | none => a) t
  ((t.forwardPast s (leafQ l)).forwardPast s (dieQ (l / 256))).closePositions

/-- LEAF_FAILURE_REGISTER. -/
def execLeafFailureRegister (leaf : Nat) (s : State) : Host.Outcome State Fault Refusal :=
  if !(s.leaf leaf).failed || (s.leaf leaf).failReported then .next s else .next (s.registerLeaf leaf).offer.driveKiln

end Sys2Proof.Machine
end

