-- ==== Sys2Proof/Machine/Endings.lean ====
section
/-! DEFINITION. How firings end: at the kiln when their data has run through (R309), by cones (R314 to R316), barriers (R220, R348),
and what leaf ports make of end messages and records (R301, R310, R311). -/

namespace Sys2Proof.Machine
open Sys2Proof

/-! ### The kiln (R309, R311) -/

/-- Whether the kiln has sent the last result flit of a firing on every plane. -/
def State.kilnSent (s : State) (f : Firing) : Bool :=
  match f.setter with
  | none => true
  | some x => (List.range 4).all (fun p => (s.node (nodeIx 0 false p)).outDown.all (fun e => e.2.flit.setter.toNat != x))

/-- Whether a granted firing's data has run through to its end, on planes that are in service: a loss not yet registered redeals
it first (R390, R391). An overflow ends in a replay (R142) unless the preload forbids one (R139). -/
def State.ranThrough (s : State) (f : Firing) : Bool :=
  f.st == .granted && f.cause.isNone && (!f.ovf || f.preloadRange) && f.waitPlane.isNone && f.depLeft == 0
    && (!f.usesPlane || (f.allDone && s.kilnSent f && f.usesNow.all (s.planeUp f.pathLeaves)))

/-- Status, rank and code of such a firing (R106, R408, R551, R552). -/
def Firing.doneWith (f : Firing) : BitVec 8 × Nat × Nat :=
  if f.depPoison then (stFault, f.poisonRank.getD 0xFFFF, clDepositPoison.toNat)
  else if f.range then (stRange, 0xFFFF, 0)
  else (stOk, 0xFFFF, 0)

/-- A DEPOSIT_INIT on an exact region sets the bits of the blocks it has zeroed (R415, R551). -/
def State.setInitBits (s : State) (f : Firing) : State :=
  if f.isInit && rKind f.reg == 3 && regionKept f.region (s.regionEntry f.desc.depRegion) then
    s.modCfg (fun c => { c with depInit := f.initBlocks.foldl (fun bs b => addOnce bs (f.desc.depRegion, b)) c.depInit })
  else s

/-- What follows an end: later ends of the group, what has come free, and flits to send. -/
def State.afterEnd (s : State) (g : Nat) : State := (s.sendEnds (s.kiln.firings.length + 1) g).offer.driveKiln

/-- FIRING_END: the end of a granted firing whose data has run through. -/
def execFiringEnd (group seq : Nat) (s : State) : Host.Outcome State Fault Refusal :=
  match s.kiln.firings.find? (fun f => f.group == group && f.seq.toNat == seq && f.st == .granted) with
  | none => .next s
  | some f =>
    if !s.ranThrough f || f.desc.kind == 4 then .next s
    else
      let (st, r, c) := f.doneWith
      .next (((s.setInitBits f).decideEnd f.uid st r c).afterEnd group)

/-- SETTER_REST_END: 10 µs after the end message the setter returns to the pool. -/
def execSetterRestEnd (setter : Nat) (s : State) : Host.Outcome State Fault Refusal :=
  match s.kiln.firings.find? (fun f => f.st == .ended && f.setter == some setter && f.restEnd.any (fun t => hasCome t s.time)) with
  | none => .next s
  | some f =>
    .next ((((s.modFiring f.uid (fun x => { x with restEnd := none, setter := none })).modKiln
      (fun k => { k with resting := k.resting.filter (· != setter) })).closePositions).offer)

/-! ### Cones (R314, R315) -/

/-- Whether a leaf has armed a position, as its cluster node has counted (R294). -/
def State.leafArmed (s : State) (f : Firing) (l : Nat) : Bool :=
  f.armedBy.contains l
    || decide (f.ord < (s.groupRun f.group).base + tget 0 (s.ctlNode (leafCtl l)).counts (64 * f.group + inputOf (leafQ l) l))

/-- The lowest member that has not armed. -/
def State.missingRank (s : State) (f : Firing) : Nat :=
  match f.members.find? (fun e => !s.leafArmed f e.1) with
  | some e => e.2
  | none => 0xFFFF

/-- Whether a contributing member's last flits have all reached its cluster node. -/
def State.memberIn (s : State) (f : Firing) (l : Nat) : Bool :=
  let slot (p : Nat) : InStream := match (s.node (nodeIx (leafQ l) false p)).slot? (f.setter.getD 1024) with
    | some sl => sl.inp (inputOf (leafQ l) l)
    | none => {}
  if f.count2 && !f.phase1Done then (slot f.phasePlane).count.isSome
  else f.usesNow.all (fun p =>
    let mine := (f.planeOrder p).filter (fun ix => (f.stripe? ix).any (fun st => !f.count2 || f.memberBytes st l != 0))
    decide (mine.length ≤ (slot p).stripes))

/-- The lowest contributing member whose data has not all come in. -/
def State.stalledRank (s : State) (f : Firing) : Nat :=
  match f.members.find? (fun e => contributes f.desc e.2 && !s.memberIn f e.1) with
  | some e => e.2
  | none => 0xFFFF

/-- Whether the ARMs that wait at the kiln complete the arming of a firing (R315). -/
def State.armsWaiting (s : State) (f : Firing) : Bool :=
  let ins := (s.kiln.inq.filter (fun e => e.2.group == f.group && e.2.ord == f.ord
    && !(e.2.first || e.2.reset || e.2.foreign || e.2.late || e.2.abort))).map (·.1)
  match s.groupRec 0 f.group with
  | some r => !ins.isEmpty && r.inputs.all (fun i => ins.contains i || s.inputDone 0 f.group i f.armedIn)
  | none => false

/-- FIRING_CONE_EXPIRY, in service mode. No cone runs out while the reference is absent (R337). At the very value of block time at
which the cone expires an arming that completes wins: its ARM at the kiln comes first (R315). -/
def execFiringConeExpiry (group seq : Nat) (s : State) : Host.Outcome State Fault Refusal :=
  match s.kiln.firings.find? (fun f => f.group == group && f.seq.toNat == seq && f.st != .ended && f.cause.isNone) with
  | none => .next s
  | some f =>
    if !f.service || s.refLost || !hasCome f.coneEnd s.time then .next s
    else match f.st with
    | .arming =>
      if s.time == f.coneEnd && s.armsWaiting f then .next s
      else
        let r := s.missingRank f
        let t := s.modLeaf (f.leafOf r) (fun p => if r = 0xFFFF then p else { p with missing := satInc p.missing })
        .next ((t.decideEnd f.uid stTimeout r 0).afterEnd group)
    | .armed => .next ((s.decideEnd f.uid stStall 0xFFFF 0).afterEnd group)
    | .granted => .next ((s.decideEnd f.uid stStall (s.stalledRank f) 0).afterEnd group)
    | .ended => .next s

/-! ### Barriers (R220, R348) -/

/-- BARRIER_ARRIVE: every member of the group's next position has arrived at the kiln, which sends the release. A barrier needs
condition 5 of R306 only. -/
def execBarrierArrive (group : Nat) (s : State) : Host.Outcome State Fault Refusal :=
  match s.kiln.firings.find? (fun f => f.group == group && f.st == .armed && f.cause.isNone && f.desc.kind == 4
      && f.ord == (s.groupRun group).nextOrd) with
  | none => .next s
  | some f =>
    if s.kiln.paceHold || s.kiln.admitStopped then .next s
    else
      let fn := nextFn s.kiln.lastFn
      let dig := s.digestOf f
      let t := ((s.modKiln (fun k => { k with lastFn := fn })).modFiring f.uid (fun x => { x with
        st := .granted, fn := fn, ts := s.time, bound := dig.map (fun e => (e.1, e.2.1)) })).modGroup group
          (fun r => { r with nextOrd := f.ord + 1 })
      .next ((t.decideEnd f.uid stOk 0xFFFF 0).afterEnd group).noteOld

/-- The record of a descriptor that is due, when the queue has room (R269, R310). -/
def LeafPort.recordIfDue (p : LeafPort) (t : Taken) : LeafPort :=
  match p.record t with
  | none => p
  | some r => if !p.recordDue t then p else if p.e ≤ p.unconsumed then { p with cqFull := true } else p.writeRecord t r

/-- BARRIER_RELEASE: the oldest message at the leaf port is a release; after its trim the leaf port writes the barrier's
record. `ok` tells whether the record could be written. -/
def execBarrierRelease (leaf : Nat) (ok : Bool) (s : State) : Host.Outcome State Fault Refusal :=
  let p := s.leaf leaf
  match p.inbox with
  | .release e _ _ :: ms =>
    let q := { p with inbox := ms }
    match q.taken.find? (fun t => t.phase == .waiting && t.ended.isNone && t.desc.group == e.group.toNat) with
    | none => .next (s.setLeaf leaf q)
    | some t =>
      if p.failed then .next s
      else
        let x := { t with phase := .running, fn := e.fn, seq := e.seq, ts := e.ts, ended := some e, stopped := true }
        let q := q.modTaken t.cnt (fun _ => x)
        .next (s.setLeaf leaf (if !ok && q.recordDue x && decide (q.unconsumed < q.e) then q.recordFails x s.time
          else q.recordIfDue x))
  | _ => .next s

/-! ### End messages at leaf ports (R301) -/

/-- The firing that an end message names. -/
def LeafPort.endsFor (p : LeafPort) (e : EndMsg) : Option Taken :=
  if e.noGrant then p.taken.find? (fun t => t.phase == .waiting && t.ended.isNone && t.desc.group == e.group.toNat)
  else p.taken.find? (fun t => t.phase == .running && t.ended.isNone && t.fn == e.fn && t.setter == e.setter)

/-- Result areas that an end leaves without defined contents (Table 9.7, R237). -/
def Taken.lostAreas (t : Taken) (c : Nat) (e : EndMsg) : List Range :=
  ((t.areas c).map (·.2)).filter (fun r => !r.input && r.code != 0x49
    && (e.undef || (t.desc.segCount != 0 && t.phase == .running && e.segs.getD r.seg stOk != stOk)))

/-- An end taken by a leaf port: the firing stops sending; areas not defined hold open values. -/
def LeafPort.takeEnd (p : LeafPort) (t : Taken) (e : EndMsg) (tick : Nat) : LeafPort :=
  let rs := t.lostAreas p.chunk e
  let gone (w : Nat × Byte) : Bool := rs.any (fun r => decide (r.addr ≤ w.1) && decide (w.1 < r.addr + r.len))
  let q := p.modTaken t.cnt (fun x => { x with ended := some e, stopped := true, writes := x.writes.filter (fun w => !gone w) })
  rs.foldl (fun a r => a.store r.addr (openBytes tick r.len)) q

/-- END_RECEIVE: the oldest message at the leaf port is an end. -/
def execEndReceive (leaf : Nat) (s : State) : Host.Outcome State Fault Refusal :=
  let p := s.leaf leaf
  match p.inbox with
  | .done e _ :: ms =>
    if p.failed then .next s
    else
      let q := { p with inbox := ms }
      match q.endsFor e with
      | none => .next (s.setLeaf leaf q)
      | some t => .next (s.setLeaf leaf (q.takeEnd t e s.tick)).tock
  | _ => .next s

/-! ### Completion records (R310) -/

/-- Whether a flit is one of a setter's that leads to a leaf. -/
def Carry.isFor (c : Carry) (x : BitVec 10) (l : Nat) : Bool := c.flit.setter == x && (c.dst.all (fun d => d.contains l))

/-- Flits that a downward link still holds for its receiver. -/
def Link.inside (k : Link) (bridge : Bool) : List Carry :=
  if bridge then k.rxq ++ k.retry.drop (k.retry.length - (k.sentCount - k.recvCount).toNat) else k.offer.toList

/-- Whether a result flit of a setter is still on its way to a leaf. -/
def State.onTheWay (s : State) (l : Nat) (x : BitVec 10) : Bool :=
  let d := l / 256
  (List.range 4).any (fun p =>
    let queue (q i : Nat) : List Carry := ((s.node (nodeIx q false p)).outDown.filter (fun e => e.1 == i)).map (·.2)
    let on (key : Nat) : List Carry := (s.link key).inside (isBridge key)
    (queue 0 d ++ on (linkKey (dieQ d) .down p) ++ queue (dieQ d) (l / 16 % 16) ++ on (linkKey (leafQ l) .down p)
      ++ queue (leafQ l) (l % 16) ++ on (leafLinkKey l .down p)).any (fun c => c.isFor x l))

/-- Whether a member has taken every result flit sent to it. -/
def State.allTaken (s : State) (l : Nat) (t : Taken) : Bool :=
  t.phase != .running || !t.listens || !(receives t.desc t.rank) || !s.onTheWay l t.setter

/-- The chunks of the segment status entries that could not be written before a record, with their addresses and lengths (R269,
R283). -/
def Taken.failedStatus (t : Taken) (c : Nat) (bad : List Nat) : List (Nat × Nat × Nat) :=
  if t.phase == .pass || t.desc.segCount == 0 || !t.statusPlaced then []
  else bad.filterMap (fun ix => match t.areaOf c ix with
    | some (first, r) => if r.isStatus then some (ix, chunkSpan c ix first r) else none
    | none => none)

/-- Writes a record whose segment status entries failed in some chunks: those are undefined, and the record carries FAULT naming them
(R283). -/
def State.writeFaulted (s : State) (leaf : Nat) (t : Taken) (bad : List (Nat × Nat × Nat)) : State :=
  let p := bad.foldl (fun q e => q.chunkFault t clWriteAddr e.2.1 e.1) (s.leaf leaf)
  match p.taken.find? (fun x => x.cnt == t.cnt) with
  | none => s
  | some u => match p.record u with
    | none => s
    | some r =>
      ((s.setLeaf leaf (bad.foldl (fun q e => q.store e.2.1 (openBytes s.tick e.2.2)) (p.writeRecord u r))).tock).writeFaultEvent leaf t

/-- COMPLETION_RECORD_WRITE. A record that could not be written stops the leaf port. -/
def execCompletionRecordWrite (leaf slot : Nat) (w : RecordWrite) (s : State) : Host.Outcome State Fault Refusal :=
  let p := s.leaf leaf
  match p.inSlot slot with
  | none => .next s
  | some t => match p.record t with
    | none => .next s
    | some r =>
      if !p.recordDue t || !s.allTaken leaf t then .next s
      else if p.e ≤ p.unconsumed then .next (s.setLeaf leaf { p with cqFull := true })
      else if !w.ok then .next (s.setLeaf leaf (p.recordFails t s.time))
      else if (t.failedStatus p.chunk w.segBad).isEmpty then .next (s.setLeaf leaf (p.writeRecord t r))
      else .next (s.writeFaulted leaf t (t.failedStatus p.chunk w.segBad))

/-- LP_RESET_DONE: everything taken has ended, and what ended firings still receive and write is done (R269, R291, R310). -/
def execLpResetDone (leaf : Nat) (s : State) : Host.Outcome State Fault Refusal :=
  let p := s.leaf leaf
  if p.resetBusy && p.allEnded && p.taken.all (fun t => t.writes.isEmpty && s.allTaken leaf t) then
    .next (s.setLeaf leaf (p.taken.foldl LeafPort.flushOne p).afterReset)
  else .next s

/-! ### Deposit requests and responses (R542, R552, R553) -/

/-- DEPOSIT_REQUEST_ACCEPT: memory takes the request that the port holds; `waited` is how long the firing waited for it, in units
of 0.8 ns. A firing whose flow waited goes on. -/
def execDepositRequestAccept (waited : Nat) (s : State) : Host.Outcome State Fault Refusal :=
  match s.dep.queue, s.dep.freeId with
  | r :: rs, some i =>
    let t := { s with dep := { s.dep with
      queue := rs, flying := s.dep.flying ++ [{ r with id := i }], since := if rs.isEmpty then none else some s.time } }
    .next ((((t.bump 0x08).bumpBy 0x09 waited).modFiring r.uid (fun f => { f with depWait := f.depWait + waited })).kilnAdvance r.uid)
  | _, _ => .next s

/-- The elements that a MAPPED_OUT answer adds to dep_mapped_out: each element of a firing counts once. -/
def State.mappedCount (s : State) (r : DepReq) : Nat :=
  match s.firing? r.uid with
  | some f => if f.st == .granted then ((f.onLine r).filter (fun k => !f.depMapped.contains k)).length else r.elems.length
  | none => r.elems.length

/-- DEPOSIT_RESPONSE. -/
def execDepositResponse (id : Nat) (code : DepCode) (data : BitVec 512) (s : State) : Host.Outcome State Fault Refusal :=
  match s.dep.flying.find? (fun r => r.id == id) with
  | none => .next s
  | some r =>
    let t := { s with dep := { s.dep with flying := s.dep.flying.filter (fun x => x.id != id) } }
    let t := match code with
      | .ok => t
      | .mappedOut => t.bumpBy 0x0A (s.mappedCount r)
      | .dataError => t.bump 0x0B
    match t.firing? r.uid with
    | none => .next t
    | some f =>
      if f.st != .granted then .next t
      else .next ((t.depAnswer f r code data).kilnAdvance f.uid).driveKiln

end Sys2Proof.Machine
end

