-- ==== Sys2Proof/Machine/ConfigMem.lean ====
section
/-! DEFINITION. Uncorrectable words: the configuration tables and their scrub (R411 to R413), and every other memory (R414, R401,
Table 12.4). -/

namespace Sys2Proof.Machine
open Sys2Proof

/-- The other copy. -/
def Copy.other : Copy → Copy
  | .a => .b
  | .b => .a

/-- The table bank of a word. -/
def CfgWord.bank (w : CfgWord) : CfgWord := { w with index := 0 }

/-- Counts an uncorrectable word of a copy (Table 12.6). -/
def Config.countUncorr (c : Config) : Copy → Config
  | .a => { c with uncorrA := satInc c.uncorrA }
  | .b => { c with uncorrB := satInc c.uncorrB }

/-- Counts a corrected error of a copy. -/
def Config.countCorr (c : Config) : Copy → Config
  | .a => { c with corrA := satInc c.corrA }
  | .b => { c with corrB := satInc c.corrB }

/-- The fault event of a configuration word (kinds 0x0D and 0x0E): its saggar and index. -/
def State.wordEvent (s : State) (w : CfgWord) (kind : Nat) : State :=
  s.fault { kind := kind, saggar := w.set.getD 0, count := w.index } w.set.toList

/-- An uncorrectable word of one copy (R411, R413): taken from the other copy and rewritten; lost when the other cannot give it.
A word of copy A that fails again leaves its bank on copy B alone. -/
def State.wordBad (s : State) (w : CfgWord) (copy : Copy) (otherBad rewriteBad : Bool) : State :=
  let t := s.modCfg (fun c => c.countUncorr copy)
  let alone := s.cfg.oneCopy.contains w.bank
  if s.cfg.lost.contains w || (alone && copy == .a) then t
  else if alone || otherBad || s.cfg.badWords.contains (w, copy.other) then
    let t := (t.modCfg (fun c => { c with lost := addOnce c.lost w, badWords := c.badWords.filter (fun e => e.1 != w) })).wordEvent w 0x0E
    if w.set.isSome && !w.shadow && w.table == 1 then t.modGroup w.index (fun g => { g with broken := true, reason := 3 }) else t
  else
    let t := t.modCfg (fun c => { c with
      badWords := if rewriteBad then addOnce c.badWords (w, copy) else c.badWords.filter (fun e => e != (w, copy))
      oneCopy := if rewriteBad && copy == .a then addOnce c.oneCopy w.bank else c.oneCopy })
    t.wordEvent w 0x0D

/-- CONFIG_WORD_UNCORRECTABLE: found on a read or a scrub. -/
def execConfigWordUncorrectable (w : CfgWord) (copy : Copy) (otherBad rewriteBad : Bool) (s : State) : Host.Outcome State Fault Refusal :=
  if s.awake then .next (s.wordBad w copy otherBad rewriteBad) else .next s

/-- One finding of a scrub (R412). -/
def State.scrubOne (s : State) (f : ScrubFind) : State :=
  if f.uncorrectable then s.wordBad f.word f.copy f.otherBad f.rewriteBad else s.modCfg (fun c => c.countCorr f.copy)

/-- SCRUB_PERIODIC: what one pass over both copies found. -/
def execScrubPeriodic (finds : List ScrubFind) (s : State) : Host.Outcome State Fault Refusal :=
  if s.awake then .next (finds.foldl State.scrubOne s) else .next s

/-! ### The other memories (Table 12.4) -/

/-- A word of a bridge link's retry buffer: it and what was sent before it can no longer be resent. -/
def Link.dropRetry (k : Link) (count : BitVec 16) : Link :=
  let i := (count - (k.sentCount - BitVec.ofNat 16 k.retry.length)).toNat
  if i < k.retry.length then { k with retry := k.retry.drop (i + 1) } else k

/-- The firing that holds a kiln accumulator. -/
def State.kaccHolder (s : State) (k : Nat) : Option Firing :=
  match (s.kacc k).holder with
  | some x => (s.granted? x).bind (fun f => if f.desc.namesKacc && f.desc.kacc == k then some f else none)
  | none => none

/-- A firing ends with FAULT, class STATE_LOST. -/
def State.stateLost (s : State) (f : Firing) : State := (s.decideEnd f.uid stFault 0xFFFF clStateLost.toNat).afterEnd f.group

/-- A kiln accumulator damaged. -/
def State.kaccDamaged (s : State) (k : Nat) : State :=
  match s.kaccHolder k with
  | some f =>
    (s.fault { kind := 0x0F, fn := f.fn.toNat, group := f.group, saggar := f.saggar, status := stFault.toNat } [f.saggar]).stateLost f
  | none => (s.modKacc k (fun a => { a with damaged := true })).fault { kind := 0x0F, saggar := ((s.kacc k).ownerNow).getD 0 }
      ((s.kacc k).ownerNow).toList

/-- A staged chunk damaged: it reads as failed (R282). -/
def LeafPort.chunkDamaged (p : LeafPort) (slot : Nat) (area : Area) (chunk : Nat) : LeafPort :=
  match p.inSlot slot with
  | none => p
  | some t =>
    if t.chunks.any (fun c => c.ix == chunk && c.area == area && c.data.isSome) then
      let addr := match t.areaOf p.chunk chunk with
        | some (first, r) => (chunkSpan p.chunk chunk first r).1
        | none => 0
      (p.chunkFault t clReadData addr chunk).modTaken t.cnt (fun x => { x with
        chunks := x.chunks.map (fun c => if c.ix == chunk then { c with data := none } else c) })
    else p

/-- Where a memory's SECDED errors are counted (R381, R417; assumption log 95): at its node or its leaf port. A retry buffer belongs to
the node that drives its link, the kiln's records and accumulators to the kiln's control-path node. -/
inductive CountedAt where
  | node (ix : Nat)
  | leaf (l : Nat)
deriving DecidableEq, Repr

/-- The place of a memory. -/
def MemUnit.countedAt : MemUnit → CountedAt
  | .twin node _ => .node node
  | .retry key _ => .node (((driver key).map (·.1)).getD 0)
  | .setter _ | .kacc _ | .digest _ => .node (nodeIx 0 true 0)
  | .bisque l _ | .leafStaging l _ _ _ | .leafState l => .leaf l

/-- Whether the block has a memory. -/
def State.hasMem (s : State) (m : MemUnit) : Bool :=
  match m.countedAt with
  | .node ix => s.nodeBuilt (qOf ix)
  | .leaf l => s.leafExists l

/-- A single-bit error that SECDED corrects is counted and changes nothing else (R381). -/
def State.countCorrected (s : State) (m : MemUnit) : State :=
  match m.countedAt with
  | .node ix => s.modStat ix (fun n => { n with sramCorr := satInc n.sramCorr })
  | .leaf l => s.modLeaf l (fun p => { p with sramCorr := satInc p.sramCorr })

/-- Counts an uncorrectable error (Table 12.6). -/
def State.countUncorrected (s : State) (m : MemUnit) : State :=
  match m.countedAt with
  | .node ix => s.modStat ix (fun n => { n with sramUncorr := satInc n.sramUncorr })
  | .leaf l => s.modLeaf l (fun p => { p with sramUncorr := satInc p.sramUncorr })

/-- The firing whose record a setter is: one granted on it, or one that holds it while it waits (R307). -/
def State.setterHolder (s : State) (x : Nat) : Option Firing :=
  s.kiln.firings.find? (fun f => (f.st == .granted || f.st == .armed) && f.setter == some x)

/-- What an uncorrectable word does (Table 12.4). -/
def State.memoryBad (s : State) (m : MemUnit) : Host.Outcome State Fault Refusal :=
  match m with
  | .twin node t =>
    if !s.nodeBuilt (qOf node) || (s.stat node).pairOut then .next s
    else .next (((s.modStat node (fun n => n.residue t)).twinFault node t).noteKilnCtl)
  | .retry key count => if isBridge key then .next (s.modLink key (fun k => k.dropRetry count)) else .next s
  | .setter x => match s.setterHolder x with
    | some f =>
      .next ((s.fault { kind := 0x12, fn := f.fn.toNat, group := f.group, saggar := f.saggar, status := stFault.toNat } [f.saggar]).stateLost f)
    | none => .next s
  | .kacc k => if k < 256 then .next (s.kaccDamaged k) else .next s
  | .bisque leaf i =>
    if !s.leafExists leaf || decide (4 ≤ i) then .next s
    else .next ((s.modLeaf leaf (fun p => { p with
        bisque := tmod {} p.bisque i (fun b => { b with st := .neverWritten, val := {}, damaged := true }) })).fault
      { kind := 0x10, rank := s.cfg.rankOf leaf, wh := leaf } (s.leafSags leaf))
  | .digest i => match s.kiln.digests.find? (fun e => e.1 == i) with
    | some (_, a) =>
      if a.isOpen then
        .next ((s.modKiln (fun k => { k with digests := tmod {} k.digests i (fun a => { a with sum := 0, fails := 0xFFFF, sat := true }) })).fault
          { kind := 0x11, saggar := a.saggar.toNat } [a.saggar.toNat])
      else .next s
    | none => .next s
  | .leafStaging leaf slot area chunk =>
    if !s.leafExists leaf then .next s
    else .next (s.modLeaf leaf (fun p => p.chunkDamaged slot area chunk))
  | .leafState leaf =>
    if !s.leafExists leaf || (s.leaf leaf).failed then .next s
    else .next (s.modLeaf leaf (fun p => p.fail.endAll s.time))

/-- MEMORY_UNCORRECTABLE: a word of a memory that SECDED could not correct, or a single-bit error that it corrected. -/
def execMemoryUncorrectable (e : MemError) (s : State) : Host.Outcome State Fault Refusal :=
  if !s.awake || !s.hasMem e.mem then .next s
  else if e.corrected then .next (s.countCorrected e.mem)
  else (s.countUncorrected e.mem).memoryBad e.mem

end Sys2Proof.Machine
end

