-- ==== Sys2Proof/Machine/Pyro.lean ====
section
/-! DEFINITION. Pyrometer passes, trims and quiet holds of the die slices (R351 to R359, R579), and the switch of the pacing mode
(R335, R506). -/

namespace Sys2Proof.Machine
open Sys2Proof

/-- A die slice that is built and answers (R565). -/
def State.dieLive (s : State) (d : Nat) : Bool := s.awake && decide (d < s.n) && !(s.die d).dead

/-- Whether a time in ns has gone by in block time since a moment (R326, R327). -/
def State.passed (s : State) (since : Quad) (ns : Nat) : Bool := hasCome (since + BitVec.ofNat 64 ns) s.time

/-- The same of a time that the sender of the command measures while the reference is absent. -/
def State.timedOut (s : State) (since : Quad) (ns : Nat) : Bool := s.refLost || s.passed since ns

/-- The leaves of a die slice. -/
def dieLeaves (d : Nat) : List Nat := upFrom (256 * d) 256

/-- Whether a leaf is enabled in the active map. -/
def State.leafEnabled (s : State) (l : Nat) : Bool := !mapDisabled s.n s.cfg.active.disabled l

/-- The die slice that a datapath link stands in. -/
def keyDie (k : Nat) : Nat := if isLeafKey k then keyLeaf k / 256 else if keyQ k < 33 then keyQ k - 1 else (keyQ k - 33) / 16

/-- Whether no flit has crossed a link for a time in ns. -/
def State.linkIdle (s : State) (x : Link) (ns : Nat) : Bool := x.offer.isNone && s.passed x.lastFlit ns

/-- Whether every plane segment of a die slice has been idle for 400 ns and no wake is in progress (R352). -/
def State.dieIdle (s : State) (d : Nat) : Bool :=
  s.links.all (fun e => keyDie e.1 != d || s.linkIdle e.2 400)
    && (s.die d).wakeQ.isEmpty && (s.die d).segs.all (fun e => e.2 != .waking)

/-! ### Passes (R352 to R354) -/

/-- PYRO_PASS_START: a pass is due and the die slice is idle. While it runs no segment is due to park (R501). -/
def execPyroPassStart (die : Nat) (s : State) : Host.Outcome State Fault Refusal :=
  if s.dieLive die && (s.die die).sched && !(s.die die).measuring && s.dieIdle die then
    .next (s.modDie die (fun x => { x with sched := false, measuring := true, started := s.time, parkQ := [] }))
  else .next s

/-- D: the largest latest delay over the enabled leaves, 2.5 ns added, rounded up to a quarter (R353). -/
def State.targetNow (s : State) : Rat :=
  match s.leaves.filterMap (fun e => if s.leafEnabled e.1 then e.2.delay else none) with
  | [] => s.releaseTarget
  | d :: ds => (((ds.foldl max d + 5 / 2) * 4).ceil : Rat) / 4

/-- The base trim of a leaf before the clamp (R354). -/
def baseTrim (target d : Rat) : Nat := ((target - d) * 4 + 1 / 2).floor.toNat

/-- The leaf's base trim for a release target, and its clamp. -/
def LeafPort.rebase (p : LeafPort) (enabled : Bool) (target : Rat) : LeafPort :=
  if !enabled then { p with base := 0, clamped := false }
  else match p.delay with
    | none => p
    | some d => { p with base := min 63 (baseTrim target d), clamped := decide (63 < baseTrim target d) }

/-- The applied trim (R355). -/
def LeafPort.applied (p : LeafPort) (corr : Nat) : Nat := p.base - corr

/-- The trim copy of an epoch. -/
def LeafPort.trimOf (p : LeafPort) (epoch : Bool) : Nat := if epoch then p.trim1 else p.trim0

/-- Writes the trim copy of an epoch (R356). -/
def LeafPort.setTrim (p : LeafPort) (epoch : Bool) (v : Nat) : LeafPort :=
  if epoch then { p with trim1 := v } else { p with trim0 := v }

/-- A die slice writes new applied trims into the inactive copies of its leaf ports (R355, R356). -/
def State.writeTrims (s : State) (d : Nat) : State :=
  let x := s.die d
  let t := (dieLeaves d).foldl (fun a l => a.modLeaf l (fun p => p.setTrim (!x.epoch) (p.applied x.loadCorr))) s
  t.modDie d (fun y => { y with newTrims := (dieLeaves d).any (fun l => (t.leaf l).trim0 != (t.leaf l).trim1) })

/-- A die slice recomputes its base trims; a clamp sets trim_range, which raises an event (R354, Table 13.15). `pass` tells that the
slice's own pass has completed. -/
def State.rebaseDie (s : State) (target : Rat) (pass : Bool) (d : Nat) : State :=
  let t := (dieLeaves d).foldl (fun a l => a.modLeaf l (fun p => p.rebase (s.leafEnabled l) target)) s
  let clamp := (dieLeaves d).any (fun l => (t.leaf l).clamped)
  let t := t.modDie d (fun x => { x with trimRange := clamp || (x.trimRange && !pass) })
  let t := if clamp && !(s.die d).trimRange then t.timingEvent 4 d else t
  t.writeTrims d

/-- A swap of the disabled-leaf map: the die slices whose leaves it enables or disables form their base trims again (R354). -/
def State.rebaseChanged (s : State) (old : BitVec 8192) : State :=
  let part (m : BitVec 8192) (d : Nat) : Nat := slice m.toNat (256 * d) 256
  (List.range s.n).foldl (fun a d =>
    if part old d = part s.cfg.active.disabled d then a else a.rebaseDie s.releaseTarget false d) s

/-- The delay of a link that eight echoes give: half their mean round trip, less the turnaround (R352 step 3). -/
def echoDelay (trips : List Rat) : Rat := trips.foldl (· + ·) 0 / 8 / 2 - Config.echoTurnaround

/-- The delay of a link that a pass has measured; none with fewer or more than eight echoes. -/
def measured (echoes : List (EchoLink × List Rat)) (k : EchoLink) : Option Rat :=
  (echoes.find? (fun e => e.1 == k)).bind (fun e => if e.2.length = 8 then some (echoDelay e.2) else none)

/-- The one-way delay of a leaf: the delays of the links along its path (R352 step 4). -/
def leafDelay (echoes : List (EchoLink × List Rat)) (l : Nat) : Option Rat :=
  match measured echoes .bridge, measured echoes (.cluster (l / 16 % 16)), measured echoes (.leaf l) with
  | some a, some b, some c => some (a + b + c)
  | _, _, _ => none

/-- The leaves that a pass of a die slice measures: disabled ones are not (R352). -/
def State.measuredLeaves (s : State) (d : Nat) : List Nat := (dieLeaves d).filter s.leafEnabled

/-- The delays that a pass has measured. -/
def State.takeDelays (s : State) (d : Nat) (echoes : List (EchoLink × List Rat)) : State :=
  (s.measuredLeaves d).foldl (fun a l => a.modLeaf l (fun p => { p with delay := leafDelay echoes l })) s

/-- A completed pass makes the slice's trims fresh (R357, R359). -/
def Die.passDone (x : Die) (now : Quad) : Die :=
  { x with measuring := false, measTime := now, tempMeas := x.tempNow, passes := satInc x.passes, trimStale := false,
           passed := true, passedPace := true }

/-- The start-up goes on when every die slice has had its first pass (R561 step 7). -/
def State.afterFirstPass (s : State) : State :=
  if s.ctl.phase == .firstPass && s.passesDone then s.modCtlr (fun c => { c with phase := .firstCommit }) else s

/-- PYRO_PASS_COMPLETE: within 400 ns of its start, when every link on the path of an enabled leaf has its eight echoes. `echoes` are the
round trips in ns that the pyrometers have taken. -/
def execPyroPassComplete (die : Nat) (echoes : List (EchoLink × List Rat)) (s : State) : Host.Outcome State Fault Refusal :=
  let x := s.die die
  if !s.dieLive die || !x.measuring || s.passed x.started 401 || !(s.measuredLeaves die).all (fun l => (leafDelay echoes l).isSome) then
    .next s
  else
    let t := (s.modDie die (fun y => y.passDone s.time)).takeDelays die echoes
    let target := t.targetNow
    let others := (List.range s.n).filter (fun d => d != die && target != s.releaseTarget)
    let t := others.foldl (fun a d => a.rebaseDie target false d) { t with releaseTarget := target }
    .next (t.rebaseDie target true die).afterFirstPass

/-- PYRO_PASS_ABANDON: the pass counts as missed. -/
def execPyroPassAbandon (die : Nat) (s : State) : Host.Outcome State Fault Refusal :=
  if (s.die die).measuring then .next (s.modDie die (fun x => { x with measuring := false, missed := satInc x.missed }))
  else .next s

/-! ### Load correction, epochs, freshness (R351, R355 to R357) -/

/-- LOAD_CORRECTION. -/
def execLoadCorrection (die : Nat) (s : State) : Host.Outcome State Fault Refusal :=
  if s.dieLive die then
    .next ((s.modDie die (fun x => { x with loadCorr := (x.activity * 10 + 1 / 2).floor.toNat })).writeTrims die)
  else .next s

/-- TRIM_EPOCH_FLIP: new trims stand in the inactive copies, and the last flip is 10 µs old. -/
def execTrimEpochFlip (die : Nat) (s : State) : Host.Outcome State Fault Refusal :=
  let x := s.die die
  if s.dieLive die && x.newTrims && x.lastFlip.all (fun t => s.passed t 10000) then
    .next (s.modDie die (fun x => { x with epoch := !x.epoch, newTrims := false, lastFlip := some s.time }))
  else .next s

/-- Sets trim_stale; the event goes to the subscribers (R357, Table 13.15). -/
def State.setStale (s : State) (d : Nat) : State :=
  if (s.die d).trimStale then s else (s.modDie d (fun x => { x with trimStale := true })).timingEvent 3 d

/-- Whether a die slice's trims are fresh (R357). -/
def Die.fresh (x : Die) (now : Quad) : Bool :=
  x.passed && x.passedPace && !hasCome (x.measTime + 10000001) now
    && decide ((x.tempNow.toInt - x.tempMeas.toInt).natAbs ≤ 20)

/-- TRIM_STALE_SET. -/
def execTrimStaleSet (die : Nat) (s : State) : Host.Outcome State Fault Refusal :=
  if s.dieLive die && !(s.die die).fresh s.time then .next (s.setStale die) else .next s

/-- TEMP_SAMPLE: the sensor's reading, in steps of 0.25 °C. -/
def execTempSample (die : Nat) (temp : BitVec 11) (s : State) : Host.Outcome State Fault Refusal :=
  if s.dieLive die then .next (s.modDie die (fun x => { x with tempNow := temp })) else .next s

/-! ### Quiet holds and calibration (R358, R579) -/

/-- The calibration that runs on a die slice. -/
def State.calibrating (s : State) (d : Nat) : Option Activity :=
  s.ctl.acts.find? (fun a => a.code == 1 && !a.queued && a.dies == [d])

/-- Whether a calibration's pass has completed. -/
def Die.calDone (x : Die) (a : Activity) : Bool := x.passed && hasCome a.start x.measTime

/-- Whether a calibration asks for the hold now. -/
def State.calWants (s : State) (d : Nat) : Bool :=
  let x := s.die d
  !x.calWait && decide (x.calTries < 3) && (s.calibrating d).any (fun a => !x.calDone a)

/-- QUIET_HOLD_START: the last pass is 8 ms old, or a calibration asks; one die slice is held at a time. -/
def execQuietHoldStart (die : Nat) (s : State) : Host.Outcome State Fault Refusal :=
  let x := s.die die
  let old := s.trimQuiet && x.passed && s.passed x.measTime 8000000
  if s.dieLive die && s.kiln.quiet.isNone && (old || s.calWants die) then
    .next ((s.modKiln (fun k => { k with quiet := some die })).modDie die (fun x => { x with
      quietHold := true, holds := satInc x.holds, holdStart := s.time, sched := !x.measuring }))
  else .next s

/-- What a hold that ends without a pass leaves: a calibration's try is missed and waits for the next scheduled time. -/
def Die.tryMissed (x : Die) (calibrating : Bool) : Die :=
  if !calibrating then x
  else { x with calTries := x.calTries + 1, calWait := true, sched := false, missed := if x.sched then satInc x.missed else x.missed }

/-- QUIET_HOLD_END: the pass has completed, or 4 µs have gone; grants held back go on. -/
def execQuietHoldEnd (die : Nat) (s : State) : Host.Outcome State Fault Refusal :=
  let x := s.die die
  let passed := !x.measuring && !x.sched && x.passed && hasCome x.holdStart x.measTime
  if !x.quietHold || !(passed || s.passed x.holdStart 4000) then .next s
  else
    let t := (s.modKiln (fun k => { k with quiet := none })).modDie die (fun x =>
      let y := { x with quietHold := false }
      if passed then y else y.tryMissed (s.calWants die))
    .next t.offer

/-! ### The pacing mode (R335, R506) -/

/-- Whether a die slice's governor has moved r_cap to 1.25 GT/s, or away from it. -/
def Die.moved (x : Die) (paced : Bool) : Bool := if paced then x.rCap == 5 / 4 else x.settled

/-- PACE_SWITCH: every firing granted before has ended and every governor has moved. -/
def execPaceSwitch (s : State) : Host.Outcome State Fault Refusal :=
  let live := (List.range s.n).filter s.dieLive
  if !s.awake || !s.kiln.paceHold || s.kiln.firings.any (fun f => f.st == .granted)
      || !live.all (fun d => (s.die d).moved s.paceWanted) then .next s
  else
    let t := { s with paceMode := s.paceWanted }.modKiln (fun k => { k with paceHold := false })
    .next (live.foldl (fun a d => (a.setStale d).modDie d (fun x => { x with passedPace := false, sched := true })) t).offer

end Sys2Proof.Machine
end

