-- ==== Sys2Proof/Machine/Energy.lean ====
section
/-! DEFINITION. The energy governor (R503 to R508) and the wake sequencer (R498 to R501) of a die slice. -/

namespace Sys2Proof.Machine
open Sys2Proof

/-! ### Segments (Table 15.2) -/

/-- The plane of a segment. -/
def segPlane (i : Nat) : Nat := if i < 512 then i / 128 else i / 32 - 16

/-- The datapath links of a segment of a die slice: those of two leaf ports, or the die node's. -/
def segLinks (d i : Nat) : List Nat :=
  let p := segPlane i
  let both (k : Dir → Nat) : List Nat := [k .up, k .down]
  if i < 512 then
    let l := 256 * d + 16 * (4 * (i / 32 % 4) + i % 32 / 8) + 2 * (i % 8)
    both (fun x => leafLinkKey l x p) ++ both (fun x => leafLinkKey (l + 1) x p)
  else both (fun x => linkKey (dieQ d) x p) ++ (List.range 16).flatMap (fun c => both (fun x => linkKey (clusterQ d c) x p))

/-- Segments in a state. -/
def Die.countSegs (x : Die) (st : SegState) : Nat := (x.segs.filter (fun e => e.2 == st)).length

/-- Changes the state of a segment. -/
def Die.setSeg (x : Die) (i : Nat) (st : SegState) : Die := { x with segs := tset .parked x.segs i st }

/-! ### The governor -/

/-- The activity estimate: handshakes of the last 10 µs over what the links in AWAKE segments could have carried (R508). A spine
segment holds one thirty-second of its die node's 34 links, a cluster segment four links. -/
def Die.estimate (x : Die) (handshakes : Nat) : Rat :=
  let aw := x.segs.filter (fun e => e.2 == .awake)
  let links : Rat := (aw.map (fun e => if e.1 < 512 then (4 : Rat) else 34 / 32)).foldl (· + ·) 0
  let cap := links * x.rCap * 10000
  if cap = 0 then 0 else min 1 ((handshakes : Rat) / cap)

/-- The handshakes that a die slice's datapath links have completed so far. -/
def State.dieShakes (s : State) (d : Nat) : Nat := ((s.links.filter (fun e => keyDie e.1 == d)).map (fun e => e.2.shakes)).foldl (· + ·) 0

/-- ACTIVITY_ESTIMATE: every 10 µs, from the handshakes completed since the estimate before: those of flits, which the links count, and
`tests`, those of test and pyrometer patterns, which no other row carries. -/
def execActivityEstimate (die tests : Nat) (s : State) : Host.Outcome State Fault Refusal :=
  if s.dieLive die then
    .next (s.modDie die (fun x => { x with activity := x.estimate (s.dieShakes die - x.shakes + tests), shakes := s.dieShakes die }))
  else .next s

/-- What the budget leaves for the rate (R503). -/
def Die.rBudget (x : Die) (budget : Rat) : Rat :=
  if x.live = 0 then 12 / 5 else (budget - 1 / 5) / ((x.live : Rat) * pSeg x.vdd)

/-- The rate ceiling after a step of at most 0.125 GT/s toward a target, kept from adding to a ramp in the same direction. -/
def Die.stepTo (x : Die) (target : Rat) : Die :=
  let y := { x with lowering := false }
  if target < x.rCap && x.countSegs .parking == 0 then { y with rCap := max target (x.rCap - 1 / 8), lowering := true }
  else if x.rCap < target && x.countSegs .waking == 0 then { y with rCap := min target (x.rCap + 1 / 8) }
  else y

/-- One slot of the governor while no pacing fixes r_cap. -/
def Die.freeSlot (x : Die) (budget : Rat) : Die :=
  let rb := x.rBudget budget
  let target := max (1 / 4) (min rb (min x.rLink (12 / 5)))
  let lim := decide (rb < min x.rLink (12 / 5))
  let y := { x with budgetLimited := lim, overBudget := decide (rb < 1 / 4),
                    limitedSlots := if lim then satInc x.limitedSlots else x.limitedSlots }.stepTo target
  { y with settled := y.rCap == target }

/-- One slot of the governor in paced mode: r_cap moves to 1.25 GT/s and stays (R505, R506). -/
def Die.pacedSlot (x : Die) (budget : Rat) : Die :=
  { x with budgetLimited := false, settled := false,
           overBudget := decide (budget < 1 / 5 + (x.live : Rat) * pSeg x.vdd * (5 / 4)) }.stepTo (5 / 4)

/-- Whether a slot starts now that has not been served; without the reference slots are timed locally (R498). -/
def State.atSlot (s : State) (served : Option Quad) : Bool := s.refLost || (s.time.toNat % 200 == 0 && served != some s.time)

/-- Whether the governor is lowering r_cap in the slot that starts now (R498). -/
def State.loweringNow (s : State) (x : Die) : Bool := x.lowering && (s.refLost || x.govSlot == some s.time)

/-- The mode that the governor moves to (R506). -/
def State.governedPaced (s : State) : Bool := if s.kiln.paceHold then s.paceWanted else s.paceMode

/-! ### Parks (R501, R504, R575) -/

/-- Whether a firing keeps a segment awake: on the path of a granted one, or requested by an ARMED one. -/
def Firing.keeps (f : Firing) (d i : Nat) : Bool :=
  match f.st with
  | .granted => f.planes.contains (segPlane i) && (pathSegs f.pathLeaves (segPlane i) d).contains i
  | .armed => f.asked.contains (d, i)
  | _ => false

/-- Whether a segment is due to park. A plane taken out on request waits for no idle time (R575). -/
def State.parkable (s : State) (d i : Nat) : Bool :=
  let x := s.die d
  x.seg i == .awake && !x.measuring && s.kiln.firings.all (fun f => !f.keeps d i)
    && (x.overBudget || x.offline.contains (segPlane i) || (segLinks d i).all (fun k => s.linkIdle (s.link k) 20000))

/-- What is no longer due leaves a die slice's park lists (R501). -/
def State.pruneParks (s : State) (d : Nat) : State := s.modDie d (fun x => { x with parkQ := x.parkQ.filter (s.parkable d) })

/-- GOVERNOR_SLOT: `v` the lowest island supply in V, `rLink` the slowest free-running link rate in GT/s. -/
def execGovernorSlot (die : Nat) (v rLink : Rat) (s : State) : Host.Outcome State Fault Refusal :=
  if !s.dieLive die || !s.atSlot (s.die die).govSlot then .next s
  else
    let b : Rat := (s.cfg.active.budgetOf die).toNat
    .next ((s.pruneParks die).modDie die (fun x =>
      let y := { x with vdd := v, rLink := rLink, govSlot := some s.time }
      if s.governedPaced then y.pacedSlot b else y.freeSlot b))

/-- PARK_DUE: the segment joins its island's park list. -/
def execParkDue (die seg : Nat) (s : State) : Host.Outcome State Fault Refusal :=
  if !s.dieLive die || (s.die die).parkQ.contains seg || !s.parkable die seg then .next s
  else .next (s.modDie die (fun x => { x with parkQ := x.parkQ ++ [seg] }))

/-! ### The wake sequencer (R498 to R500) -/

/-- Starts wake ramps; a park ramp reverses. -/
def Die.startWakes (x : Die) (is : List Nat) : Die :=
  is.foldl (fun y i => { y.setSeg i .waking with wakeQ := y.wakeQ.filter (· != i) }) x

/-- Starts park ramps. -/
def Die.startParks (x : Die) (is : List Nat) : Die :=
  is.foldl (fun y i => { y.setSeg i .parking with parkQ := y.parkQ.filter (· != i) }) x

/-- One island in one slot: up to two wakes; else, with no wake ramp running and r_cap not falling, up to two parks. -/
def Die.island (lowering : Bool) (x : Die) (k : Nat) : Die :=
  let wakes := (x.wakeQ.filter (fun i => i / 32 == k)).take 2
  if !wakes.isEmpty then x.startWakes wakes
  else if lowering || x.segs.any (fun e => e.1 / 32 == k && e.2 == .waking) then x
  else x.startParks ((x.parkQ.filter (fun i => i / 32 == k)).take 2)

/-- WAKE_SLOT: what is no longer due leaves the park lists, then every island acts; deferred wake requests are made again
(R505). -/
def execWakeSlot (die : Nat) (s : State) : Host.Outcome State Fault Refusal :=
  if !s.dieLive die || !s.atSlot (s.die die).wakeSlot then .next s
  else
    let t := (s.pruneParks die).modDie die (fun x =>
      (List.range 20).foldl (Die.island (s.loweringNow x)) { x with wakeSlot := some s.time })
    .next t.offer

/-- WAKE_RAMP_END. -/
def execWakeRampEnd (die seg : Nat) (s : State) : Host.Outcome State Fault Refusal :=
  if (s.die die).seg seg == .waking then
    .next (s.modDie die (fun x => { x.setSeg seg .awake with wakes := satInc x.wakes })).offer
  else .next s

/-- PARK_RAMP_END. -/
def execParkRampEnd (die seg : Nat) (s : State) : Host.Outcome State Fault Refusal :=
  if (s.die die).seg seg == .parking then
    .next (s.modDie die (fun x => { x.setSeg seg .parked with parks := satInc x.parks })).offer
  else .next s

/-! ### The governor record (Table 15.3) -/

/-- The governor record of a die slot. -/
def State.governorRecord (s : State) (d : Nat) : BitVec 256 :=
  if !decide (d < s.n) then 0
  else
    let x := s.die d
    let milli (r : Rat) : Nat := (r * 1000).floor.toNat
    let power : Rat := if x.govSlot.isNone then 0 else 1 / 5 + (x.live : Rat) * pSeg x.vdd * x.rCap
    BitVec.ofNat 256 (at' x.wakes.toNat 224 + at' x.parks.toNat 192 + at' x.limitedSlots.toNat 160
      + at' ((power * 100).floor.toNat % 2 ^ 16) 144 + at' (s.cfg.active.budgetOf d).toNat 128 + at' (milli x.rCap % 2 ^ 16) 112
      + at' (milli x.rLink % 2 ^ 16) 96 + at' (milli x.vdd % 2 ^ 16) 80 + at' (x.activity * 65535).floor.toNat 64
      + at' (x.countSegs .awake) 54 + at' (x.countSegs .waking + x.wakeQ.length) 44 + at' (x.countSegs .parking) 34
      + at' (b2n (s.governedPaced && x.rCap == 5 / 4)) 4 + at' (b2n x.overBudget) 3 + at' (b2n x.budgetLimited) 2 + at' (b2n s.refLost) 1 + 1)

end Sys2Proof.Machine
end

