-- ==== Sys2Proof/Machine/Mailbox.lean ====
section
/-! DEFINITION. The mailbox ports: windows and doorbells (R421 to R429), messages and their checks (R430 to R436, R442), sessions
(R437 to R440), and plain register writes (R15, R249, R423). A command's row takes the request that its code names from a PENDING
port and answers it. -/

namespace Sys2Proof.Machine
open Sys2Proof

/-! ### Error codes (Table 13.9) -/

abbrev erOk : Nat := 0
abbrev erBusy : Nat := 1
abbrev erNoSession : Nat := 2
abbrev erVersion : Nat := 3
abbrev erUnknown : Nat := 4
abbrev erLength : Nat := 5
abbrev erReserved : Nat := 6
abbrev erDenied : Nat := 7
abbrev erNotFound : Nat := 8
abbrev erTagStale : Nat := 9
abbrev erConflict : Nat := 0xA
abbrev erLimit : Nat := 0xB
abbrev erInvalid : Nat := 0xC
abbrev erAlreadyEnded : Nat := 0xD
abbrev erSnapshotStale : Nat := 0xE
abbrev erMcRestarted : Nat := 0xF
abbrev erSignature : Nat := 0x10
abbrev erNotVerified : Nat := 0x11

/-! ### Requests (Table 13.7) -/

/-- A request as a port's request area holds it. -/
structure Req where
  port   : Nat
  code   : Nat
  tag    : BitVec 16
  len    : Nat
  saggar : Nat
  glob   : Bool
  checkGen : Bool
  cap    : Quad
  gen    : BitVec 32
  version : Byte × Byte
  head   : List Byte
  data   : List Byte
deriving DecidableEq, Repr

/-- The request in a port's area. -/
def Port.request (x : Port) (p : Nat) : Req :=
  let h := tgetRun 0 x.req 0 32
  let n := numAt h 8 2
  { port := p, code := numAt h 2 2, tag := BitVec.ofNat 16 (numAt h 4 2), len := n, saggar := numAt h 6 2,
    glob := bitOf (numAt h 10 1) 3, checkGen := bitOf (numAt h 10 1) 2, cap := BitVec.ofNat 64 (numAt h 16 8),
    gen := BitVec.ofNat 32 (numAt h 24 4), version := (h.getD 0 0, h.getD 1 0), head := h,
    data := tgetRun 0 x.req 32 (min n 4064) }

/-- A field of a request's payload. -/
def Req.num (q : Req) (off n : Nat) : Nat := numAt q.data off n

/-- The permissions of R442; `ownerGlobal` is Owner, and Priv with global set. -/
inductive Perm where
  | any | owner | ownerOrPriv | ownerGlobal | priv | debug
deriving DecidableEq, Repr

/-- What Table 13.12 says of a command: the payload's length, or its least length where entries follow, the bytes in use, the
permission, and the least minor version (R440). -/
structure CmdSpec where
  len    : Nat
  more   : Bool := false
  used   : List (Nat × Nat) := []
  perm   : Perm
  minor  : Nat := 0
deriving DecidableEq, Repr

/-- Table 13.12; none for a reserved code. A layout's length is one past its last listed byte. -/
def cmdSpec (code : Nat) : Option CmdSpec :=
  match code with
  | 0x0001 => some { len := 16, used := [(0, 4)], perm := .any }
  | 0x0002 => some { len := 0, perm := .any }
  | 0x0101 => some { len := 1, used := [(0, 0)], perm := .priv }
  | 0x0102 => some { len := 0, perm := .ownerOrPriv }
  | 0x0103 => some { len := 2, used := [(0, 1)], perm := .any }
  | 0x0111 => some { len := 16, more := true, used := [(0, 0), (4, 9)], perm := .ownerGlobal }
  | 0x0112 => some { len := 10, used := [(0, 1), (4, 9)], perm := .ownerOrPriv }
  | 0x0113 => some { len := 0, perm := .ownerGlobal }
  | 0x0114 => some { len := 0, perm := .ownerGlobal }
  | 0x0201 => some { len := 12, used := [(0, 2), (4, 11)], perm := .any }
  | 0x0202 => some { len := 0, perm := .ownerGlobal }
  | 0x0203 => some { len := 1, used := [(0, 0)], perm := .any }
  | 0x0301 => some { len := 24, used := [(0, 0), (8, 13), (16, 23)], perm := .ownerOrPriv }
  | 0x0302 => some { len := 24, used := [(0, 0), (8, 13), (16, 23)], perm := .ownerOrPriv }
  | 0x0401 => some { len := 13, used := [(0, 1), (4, 12)], perm := .any }
  | 0x0501 => some { len := 16, used := [(0, 1), (8, 15)], perm := .owner, minor := 1 }
  | 0x0502 => some { len := 3, used := [(0, 2)], perm := .owner, minor := 1 }
  | 0x0503 => some { len := 2, used := [(0, 1)], perm := .owner, minor := 1 }
  | 0x0504 => some { len := 0, perm := .any, minor := 1 }
  | 0x0601 => some { len := 4, used := [(0, 3)], perm := .priv }
  | 0x0602 => some { len := 0, perm := .priv }
  | 0x0603 => some { len := 5, used := [(0, 4)], perm := .priv }
  | 0x0604 => some { len := 5, used := [(0, 4)], perm := .priv }
  | 0x0605 => some { len := 5, used := [(0, 4)], perm := .priv }
  | 0x0606 => some { len := 8, used := [(0, 0), (4, 7)], perm := .priv }
  | 0x0607 => some { len := 8, used := [(0, 0), (4, 7)], perm := .priv }
  | 0x0608 => some { len := 2, used := [(0, 1)], perm := .priv }
  | 0x0609 => some { len := 2, used := [(0, 1)], perm := .priv }
  | 0x060A => some { len := 0, perm := .any }
  | 0x0701 => some { len := 16, more := true, used := [(0, 5)], perm := .priv }
  | 0x0702 => some { len := 0, perm := .priv }
  | 0x0703 => some { len := 4, used := [(0, 3)], perm := .priv }
  | 0x0704 => some { len := 0, perm := .any }
  | 0x0801 => some { len := 1, used := [(0, 0)], perm := .any }
  | 0x0802 => some { len := 4, used := [(0, 3)], perm := .any }
  | 0x0803 => some { len := 1, used := [(0, 0)], perm := .any }
  | 0x0804 => some { len := 2, used := [(0, 1)], perm := .any }
  | 0x0805 => some { len := 6, used := [(0, 0), (2, 5)], perm := .debug }
  | 0x0806 => some { len := 16, more := true, used := [(0, 0), (4, 9)], perm := .debug, minor := 2 }
  | 0x0807 => some { len := 0, perm := .priv }
  | _ => none

/-- The commands that safe mode accepts (R466). -/
def safeCommand (code : Nat) : Bool := [0x0001, 0x0704, 0x0701, 0x0702, 0x0703, 0x0807].contains code

/-! ### Configuration tables in messages (Table 14.1) -/

/-- Bytes of an entry of a table; none for a reserved table code. -/
def entrySize (table : Nat) : Option Nat :=
  match table with
  | 0x01 => some 32
  | 0x02 => some 1024
  | 0x10 => some 16
  | 0x11 => some 1
  | 0x12 => some 16
  | 0x13 => some 8
  | 0x14 => some 2
  | 0x15 => some 32
  | _ => none

/-- The reserved bits of an entry (Tables 14.2, 14.3, 14.5 and the deposit region's). -/
def entryReserved (table : Nat) : Nat :=
  match table with
  | 0x01 => (2 ^ 49 - 1) * 2 ^ 40 + (2 ^ 18 - 1)
  | 0x10 => (2 ^ 80 - 1) * 2 ^ 48 + (2 ^ 20 - 1) * 2 ^ 3
  | 0x12 => 2 ^ 50 - 1
  | 0x15 => 2 ^ 144 - 1
  | _ => 0

/-- Whether a request carries table entries, of a table that exists. -/
def Req.entryBytes (q : Req) : Option Nat :=
  if q.code == 0x0111 || q.code == 0x0806 then entrySize (q.num 0 1) else none

/-- The entries of a SHADOW_WRITE or DEBUG_TABLE_POKE. -/
def Req.entries (q : Req) : List Nat :=
  match q.entryBytes with
  | none => []
  | some n => (List.range (q.num 8 2)).map (fun i => numAt q.data (16 + n * i) n)

/-! ### The checks of R431 -/

/-- The payload length that a request's layout asks for. -/
def Req.wants (q : Req) (c : CmdSpec) : Option Nat :=
  if !c.more then some c.len
  else if q.code == 0x0701 then some (16 + q.num 4 2)
  else match q.entryBytes with
    | some n => some (16 + n * q.num 8 2)
    | none => none

/-- Check 4: the length expected, when it is not the request's. -/
def Req.badLength (q : Req) (c : CmdSpec) : Option Nat :=
  if 4064 < q.len then some 4064
  else if c.more && q.len < c.len then some c.len
  else match q.wants c with
    | some n => if q.len = n then none else some (min n 4064)
    | none => none

/-- The reserved bits of byte `i` of a request's header: those of Table 13.7 and the fields that only responses carry. -/
def headReserved (i : Nat) : Nat :=
  if i = 10 then 0xF3 else if i = 11 || (12 ≤ i && i < 16) || 28 ≤ i then 0xFF else 0

/-- The reserved bits of byte `i` of a request's payload. -/
def Req.dataReserved (q : Req) (c : CmdSpec) (i : Nat) : Nat :=
  if c.used.any (fun r => decide (r.1 ≤ i) && decide (i ≤ r.2)) then 0
  else if c.more && 16 ≤ i then
    match q.entryBytes with
    | some n => entryReserved (q.num 0 1) / 2 ^ (8 * ((i - 16) % n)) % 256
    | none => 0
  else 0xFF

/-- Check 5: the offset of the first byte with a reserved bit at 1. -/
def Req.badReserved (q : Req) (c : CmdSpec) : Option Nat :=
  match (List.range 32).find? (fun i => (q.head.getD i 0).toNat &&& headReserved i != 0) with
  | some i => some i
  | none => ((List.range q.data.length).find? (fun i => (q.data.getD i 0).toNat &&& q.dataReserved c i != 0)).map (· + 32)

/-- Check 7 (R442): the detail of DENIED, when the permission fails. -/
def State.denied (s : State) (q : Req) (perm : Perm) : Option Nat :=
  let k := s.cfg.sag q.saggar
  let owns := !q.glob && k.inUse && s.cfg.owner q.saggar == q.port
  let isPriv := s.privileged q.port
  let owner : Option Nat := if !owns then some 2 else if q.cap != k.handle then some 1 else none
  let priv : Option Nat := if !isPriv || !q.glob then some 3 else if q.cap != s.ctl.blockHandle then some 1 else none
  match perm with
  | .any => none
  | .owner => owner
  | .ownerGlobal => if q.glob then priv else owner
  | .priv => priv
  | .debug => if priv.isSome then priv else if s.straps.debug then none else some 4
  | .ownerOrPriv =>
    if owner.isNone || (isPriv && q.cap == s.ctl.blockHandle) then none else if owns || isPriv then some 1 else some 2

/-- What the checks make of a request: it passes, it is answered from the stored response, or it fails with an error and
detail; `tagged` tells that it passed the tag check. -/
inductive Verdict where
  | pass
  | again
  | fail (err detail : Nat) (tagged : Bool)
deriving DecidableEq, Repr

/-- The tag check (R434): none when it passes. -/
def Port.tagCheck (x : Port) (q : Req) : Option Verdict :=
  if q.code == 1 then none
  else match x.lastTag with
    | none => if x.lastEffect == some q.tag then some (.fail erMcRestarted 1 false) else none
    | some l =>
      if q.tag = l then some .again
      else if before l.toNat q.tag.toNat (2 ^ 16) (2 ^ 14) == some true then none
      else some (.fail erTagStale 0 false)

/-- Checks 4 to 7, and after them a saggar field out of range or named with global set (R431). -/
def State.laterChecks (s : State) (q : Req) (c : CmdSpec) : Verdict :=
  match q.badLength c with
  | some n => .fail erLength n false
  | none => match q.badReserved c with
    | some n => .fail erReserved n false
    | none => match (s.port q.port).tagCheck q with
      | some v => v
      | none => match s.denied q c.perm with
        | some d => .fail erDenied d true
        | none =>
          if 4096 ≤ q.saggar || (q.glob && q.saggar != 0) then .fail erInvalid 6 true
          else if q.checkGen && !([0x0111, 0x0113, 0x0114].contains q.code) then .fail erInvalid 10 true else .pass

/-- Checks 1 to 7 of R431. -/
def State.verdict (s : State) (q : Req) : Verdict :=
  let x := s.port q.port
  if q.code == 1 then
    match cmdSpec 1 with
    | some c => s.laterChecks q c
    | none => .pass
  else match x.session with
  | none => .fail erNoSession 0 false
  | some v =>
    if v != q.version then .fail erVersion 0 false
    else match cmdSpec q.code with
    | none => .fail erUnknown 0 false
    | some c => if v.2.toNat < c.minor then .fail erUnknown 0 false else s.laterChecks q c

/-! ### Responses (R425, R430) -/

/-- The bytes of a response: the session's version, command and tag of the request, resp, more, error, detail, payload. -/
def responseBytes (v : Byte × Byte) (code : Nat) (tag : BitVec 16) (err detail : Nat) (more : Bool) (data : List Byte) :
    List Byte :=
  [v.1, v.2] ++ leBytes 2 code ++ leBytes 2 tag.toNat ++ leBytes 2 0 ++ leBytes 2 data.length ++ leBytes 2 (1 + at' (b2n more) 1)
    ++ leBytes 2 err ++ leBytes 2 detail ++ leBytes 16 0 ++ data

/-- A response stands in the response area: state DONE, done set (R425). -/
def Port.show (x : Port) (tag : BitVec 16) (bytes : List Byte) : Port :=
  { x with resp := tsetRun 0 x.resp 0 bytes, st := .done, curTag := tag, intStatus := setBit x.intStatus mbDone }

/-- A request that passed the tag check is L, with its response (R434). -/
def Port.keep (x : Port) (tag : BitVec 16) (bytes : List Byte) : Port := { x with lastTag := some tag, stored := bytes }

/-- MBX_LAST_EFFECT takes a tag (R436). -/
def Port.effect (x : Port) (tag : BitVec 16) : Port := { x with lastEffect := some tag }

/-- The end of a command that was answered later: the response is shown if the port still waits for it, and is stored if its tag
is still L (R429, R434). -/
def Port.finish (x : Port) (tag : BitVec 16) (bytes : List Byte) : Port :=
  let y := if x.lastTag == some tag then { x with stored := bytes } else x
  if y.st == .working && y.curTag == tag then y.show tag bytes else y

/-- The version that a response carries: that of the port's session, 0.0 with none (Table 13.5). -/
def Port.version (x : Port) : Byte × Byte := x.session.getD (0, 0)

/-- Hardware's BUSY answer while the controller does not serve (R427): nothing but the response changes. -/
def State.answerBusy (s : State) (p : Nat) : State :=
  s.modPort p (fun x =>
    let q := x.request p
    x.show q.tag (responseBytes x.version q.code q.tag erBusy (busyReason s.ctl) false []))

/-- What a command's own part gives: the state, error and detail, payload, whether entries remain, whether an effect took place
(R436), and whether the answer comes later. -/
structure Reply where
  st     : State
  err    : Nat := 0
  detail : Nat := 0
  data   : List Byte := []
  more   : Bool := false
  effect : Bool := false
  later  : Bool := false

/-- A refusal: nothing has changed. -/
def Reply.refuse (s : State) (err detail : Nat) : Reply := { st := s, err := err, detail := detail }

/-- A reply with payload. -/
def Reply.ok (s : State) (data : List Byte) (effect : Bool) : Reply := { st := s, data := data, effect := effect }

/-! ### Sessions (R437) -/

/-- The end of a port's session releases its snapshot. -/
def State.endSession (s : State) (p : Nat) : State :=
  (s.modPort p (fun x => { x with session := none })).modCtlr (fun c => { c with snaps := c.snaps.filter (fun y => y.port != p) })

/-! ### Taking a request (R426) -/

/-- Whether the controller, or the boot ROM in safe mode, serves a command of a port (R427, R466). -/
def State.servesCommand (s : State) (p code : Nat) : Bool :=
  s.ctl.phase == .serving || (s.ctl.phase == .safe && s.privileged p && safeCommand code)

/-- Whether a port's request can be taken: PENDING, and not a repeat of one whose response is not yet formed. -/
def Port.waits (x : Port) (p : Nat) : Bool :=
  x.st == .pending && !(x.lastTag == some (x.request p).tag && x.stored.isEmpty)

/-- The port to serve next: the first that waits, after the one served last. -/
def State.nextPort (s : State) : Option Nat :=
  ((List.range 18).map (fun i => (s.ctl.lastPort + 1 + i) % 18)).find? (fun p => (s.port p).waits p)

/-- The request that the controller takes now: that of the port to serve next. A commit under way holds the controller. -/
def State.takesNow (s : State) : Option Req :=
  match s.nextPort with
  | none => none
  | some p =>
    let q := (s.port p).request p
    if s.cfg.swaps.isEmpty && s.servesCommand p q.code then some q else none

/-- The request that the controller takes now, when it is a port's and carries a code. -/
def State.taken? (s : State) (p code : Nat) : Option Req := s.takesNow.filter (fun q => q.port == p && q.code == code)

/-- The reply of a command put into the port. -/
def Reply.put (r : Reply) (q : Req) (v : Byte × Byte) : State :=
  let v' := if q.code == 1 then (r.st.port q.port).version else v
  let bytes := responseBytes v' q.code q.tag r.err r.detail r.more r.data
  r.st.modPort q.port (fun x =>
    let y := if r.effect && r.err == 0 then x.effect q.tag else x
    if r.later then { y.keep q.tag [] with st := .working, curTag := q.tag } else (y.keep q.tag bytes).show q.tag bytes)

/-- A failed check answered; a HELLO that fails ends the session (R437). -/
def State.replyFail (s : State) (q : Req) (v : Byte × Byte) (err detail : Nat) (tagged : Bool) : State :=
  let t := if q.code == 1 then s.endSession q.port else s
  let v' := if q.code == 1 then (0, 0) else v
  let bytes := responseBytes v' q.code q.tag err detail false []
  t.modPort q.port (fun x => (if tagged then x.keep q.tag bytes else x).show q.tag bytes)

/-- A request taken: checked, and carried out by `run` or answered. -/
def State.carryOut (s : State) (q : Req) (run : State → Req → Reply) : State :=
  let v := (s.port q.port).version
  let t := s.modCtlr (fun c => { c with lastPort := q.port })
  match t.verdict q with
  | .again => t.modPort q.port (fun x => x.show q.tag x.stored)
  | .fail err detail tagged => t.replyFail q v err detail tagged
  | .pass => (run t q).put q v

/-- The requests with a reserved code that stand first in the order of R426 are taken and answered: no row carries them out. At most
18 ports wait. -/
def State.takeReserved (s : State) : Nat → State
  | 0 => s
  | k + 1 => match s.takesNow.filter (fun q => (cmdSpec q.code).isNone) with
    | none => s
    | some q => (s.carryOut q (fun t _ => .refuse t erUnknown 0)).takeReserved k

/-- The controller is free to take the next request. -/
def State.nextRequest (s : State) : State := s.takeReserved 18

/-- A command's row: the controller takes the port's request, checks it, carries it out and answers. Where it cannot be taken now
nothing changes. -/
def State.command (s : State) (p code : Nat) (run : State → Req → Reply) : State :=
  match s.taken? p code with
  | none => s
  | some q => (s.carryOut q run).nextRequest

/-! ### The port window (Table 13.1) -/

/-- A ring (R425, R427, R562). -/
def State.ring (s : State) (p : Nat) : State :=
  let x := s.port p
  let q := x.request p
  if x.st == .pending || x.st == .working then s.modPort p (fun x => { x with intStatus := setBit x.intStatus mbRingErr })
  else if !s.servesCommand p q.code then s.answerBusy p
  else (s.modPort p (fun x => { x with st := .pending })).nextRequest

/-- A port reset (R429). -/
def State.portReset (s : State) (p : Nat) : State :=
  ((s.endSession p).modPort p (fun x => { x with req := [], resp := [], st := .idle, curTag := 0, intStatus := 0 })).nextRequest

/-- A write of MBX_DOORBELL: the reset acts before the ring. -/
def State.mbxDoorbell (s : State) (p : Nat) (v : Word) : State :=
  let t := if bitOf v.toNat 1 then s.portReset p else s
  if bitOf v.toNat 0 then t.ring p else t

/-- A 32-bit store to a port's window at an aligned offset (R423). -/
def State.windowWrite (s : State) (p off : Nat) (v : Word) : State :=
  let x := s.port p
  if off % 4 != 0 then s
  else if off < 0x1000 then
    if x.st == .pending || x.st == .working then s
    else s.modPort p (fun y => { y with req := tsetRun 0 y.req off (leBytes 4 v.toNat) })
  else match off with
  | 0x2000 => s.mbxDoorbell p v
  | 0x2008 => s.modPort p (fun y => { y with intStatus := w1c y.intStatus v })
  | 0x200C => s.modPort p (fun y => { y with intEnable := v &&& 0x1F })
  | _ => s

/-- A 32-bit load from a port's window. -/
def State.windowRead (s : State) (p off : Nat) : Word :=
  let x := s.port p
  if off % 4 != 0 then 0
  else if off < 0x1000 then BitVec.ofNat 32 (ofLe (tgetRun 0 x.req off 4))
  else if off < 0x2000 then BitVec.ofNat 32 (ofLe (tgetRun 0 x.resp (off - 0x1000) 4))
  else match off with
  | 0x2004 => mbxStatus s.ctl x
  | 0x2008 => x.intStatus
  | 0x200C => x.intEnable
  | 0x2010 => mbxPortInfo s p x
  | 0x2014 => mbxLastEffect x
  | _ => 0

/-- What a load of some bytes from a port's window returns: of any width but 32 bits, zero (R423). -/
def State.windowLoad (s : State) (p off bytes : Nat) : Word := if bytes = 4 then s.windowRead p off else 0

/-- What a load of some bytes from a register block returns (R249, R423). -/
def State.registerLoad (s : State) (blk : RegBlock) (off bytes : Nat) : Word :=
  match blk with
  | .leaf l => if bytes = 4 && off % 4 == 0 && s.leafExists l then lpRead (s.leaf l) l off else 0
  | .port p => if p < 16 then s.windowLoad p off bytes else 0

/-- MBX_RING: a doorbell write with ring and no port reset. -/
def execMbxRing (port : Nat) (v : Word) (s : State) : Host.Outcome State Fault Refusal :=
  if s.awake && decide (port < 18) && bitOf v.toNat 0 && !bitOf v.toNat 1 then .next (s.mbxDoorbell port v) else .next s

/-- MBX_PORT_RESET: a doorbell write with port_reset. -/
def execMbxPortReset (port : Nat) (v : Word) (s : State) : Host.Outcome State Fault Refusal :=
  if s.awake && decide (port < 18) && bitOf v.toNat 1 then .next (s.mbxDoorbell port v) else .next s

/-- MBX_INT_STATUS_CLEAR (R15, R16). -/
def execMbxIntStatusClear (port : Nat) (v : Word) (s : State) : Host.Outcome State Fault Refusal :=
  if s.awake && decide (port < 18) then .next (s.windowWrite port 0x2008 v) else .next s

/-- REGISTER_WRITE: a store to a leaf port's register block or to a mailbox window. `wide` marks an access that is not an aligned
32-bit one. Ports 16 and 17 have no window of their own; their transports write by rows of their own. -/
def execRegisterWrite (blk : RegBlock) (off : Nat) (wide : Bool) (v : Word) (s : State) : Host.Outcome State Fault Refusal :=
  if !s.awake then .next s
  else match blk with
  | .leaf l => if s.leafExists l then .next (s.lpWrite l off (!wide) v) else .next s
  | .port p => if p < 16 && !wide then .next (s.windowWrite p off v) else .next s

/-! ### HELLO and GOODBYE -/

/-- The highest supported version that a HELLO admits (R438). -/
def helloVersion (q : Req) : Option (Byte × Byte) :=
  let ge (a b : Nat × Nat) : Bool := decide (b.1 < a.1) || (a.1 == b.1 && decide (b.2 ≤ a.2))
  let lo := (q.num 0 1, q.num 1 1)
  let hi := (q.num 2 1, q.num 3 1)
  ([2, 1, 0].find? (fun m => ge (1, m) lo && ge hi (1, m))).map (fun m => (1, BitVec.ofNat 8 m))

/-- Table 13.11. -/
def State.helloData (s : State) (p : Nat) (v : Byte × Byte) : List Byte :=
  let flags := b2n (s.privileged p) + at' (b2n s.straps.debug) 1 + at' (b2n s.ctl.quietFallback) 2
  [v.1, v.2, s.ctl.runMajor, s.ctl.runMinor] ++ leBytes 2 s.ctl.runPatch.toNat ++ leBytes 1 p ++ leBytes 1 flags
    ++ leBytes 4 s.blkVersion.toNat ++ leBytes 8 (if s.privileged p then s.ctl.blockHandle.toNat else 0) ++ leBytes 2 (256 * s.n)
    ++ leBytes 1 4 ++ leBytes 1 68 ++ leBytes 4 65536 ++ leBytes 2 4096 ++ leBytes 2 1024 ++ leBytes 2 256 ++ leBytes 2 4096
    ++ leBytes 28 0

/-- HELLO's own part (R437 to R439). -/
def runHello (s : State) (q : Req) : Reply :=
  let t := s.endSession q.port
  if 2 < q.num 4 1 then .refuse t erInvalid 36
  else match helloVersion q with
  | none => { st := t, err := erVersion, data := [1, 0, 1, 2] }
  | some v =>
    .ok (t.modPort q.port (fun x => { x with session := some v })) (t.helloData q.port v) false

/-- HELLO. -/
def execHello (port : Nat) (s : State) : Host.Outcome State Fault Refusal := .next (s.command port 0x0001 runHello)

/-- GOODBYE's own part. -/
def runGoodbye (s : State) (q : Req) : Reply :=
  .ok ((s.endSession q.port).modPort q.port (fun x => { x with mask := 0 })) [] true

/-- GOODBYE. -/
def execGoodbye (port : Nat) (s : State) : Host.Outcome State Fault Refusal := .next (s.command port 0x0002 runGoodbye)

end Sys2Proof.Machine
end

