-- ==== Sys2Proof/Machine/Activities.lean ====
section
/-! DEFINITION. Maintenance activities: the conflict matrix and the queue (R568 to R570), what an activity does when it starts and
when it ends (R571 to R580). -/

namespace Sys2Proof.Machine
open Sys2Proof

/-! ### The conflict matrix (Tables 17.2 and 17.3) -/

/-- The classes of activities. -/
inductive ActClass where
  | c | s | t | n | f | g
deriving DecidableEq, Repr

/-- The class of an activity code (Table 17.2). -/
def actClass (code : Nat) : ActClass :=
  match code with
  | 0x01 => .c
  | 0x02 => .s
  | 0x03 => .t
  | 0x0A => .f
  | 0x0B => .g
  | _ => .n

/-- What an existing activity makes of a new one. -/
inductive Conflict where
  | start | queue | refuse
deriving DecidableEq, Repr

/-- Whether two activities share a die-slice domain or the kiln domain. -/
def Activity.meets (a b : Activity) : Bool := (a.kiln && b.kiln) || a.dies.any b.dies.contains

/-- Table 17.3: a new activity against an existing one. -/
def Activity.against (new old : Activity) : Conflict :=
  let d : Conflict := if new.meets old then .queue else .start
  match actClass new.code, actClass old.code with
  | .c, .c | .c, .t | .c, .n | .t, .c | .t, .t | .t, .n | .n, .c | .n, .t | .n, .n => d
  | .n, .g | .g, .n | .g, .g => .queue
  | .s, .s | .f, .n | .f, .f | .f, .g => .refuse
  | _, _ => .start

/-- The same code and the same target (R569 step 1). -/
def Activity.duplicates (a b : Activity) : Bool :=
  a.code == b.code && a.target == b.target && a.twin == b.twin && a.dies == b.dies && a.code != 0x0B

/-- R569: whether a new activity starts, queues or is refused. -/
def Controller.judge (c : Controller) (a : Activity) : Conflict :=
  let rs := c.acts.map a.against
  if c.acts.any a.duplicates || rs.contains .refuse then .refuse
  else if rs.contains .queue then (if 16 ≤ (c.acts.filter (·.queued)).length then .refuse else .queue)
  else .start

/-! ### What an activity does when it starts -/

/-- Whether a twin is out. -/
def NodeStat.isOut (n : NodeStat) (t : Twin) : Bool :=
  match t with
  | .a => n.aOut
  | .b => n.bOut

/-- The twins that a selector names: 1 A, 2 B, 3 both. -/
def twinsOf (sel : Nat) : List Twin := if sel = 1 then [.a] else if sel = 2 then [.b] else [.a, .b]

/-- The sibling of a twin. -/
def Twin.sibling : Twin → Twin
  | .a => .b
  | .b => .a

/-- A twin taken out on request, its sibling in service (R572): as a takeover, with no fault. -/
def State.twinAway (s : State) (ix sel : Nat) : State :=
  match twinsOf sel with
  | [t] =>
    let n := s.stat ix
    if n.isOut t || n.isOut t.sibling then s else s.modStat ix (fun n => n.twinOut t 0)
  | _ => s

/-- Marks a self-test as running or over. -/
def State.testing (s : State) (ix : Nat) (on : Bool) : State := s.modStat ix (fun n => { n with selfTest := on })

/-- A pair taken out on request (R573). -/
def State.pairAway (s : State) (ix : Nat) : State := if (s.stat ix).pairOut then s else s.losePair ix 0

/-- A datapath link taken out on request. -/
def State.linkAway (s : State) (key : Nat) : State := if (s.link key).failed then s else s.cutLink key 0

/-- The nodes of a plane in a die slice. -/
def planeNodes (d p : Nat) : List Nat := (dieQ d :: (List.range 16).map (clusterQ d)).map (fun q => nodeIx q false p)

/-- The links of a plane in a die slice, both directions. -/
def planeLinks (d p : Nat) : List Nat :=
  (dieQ d :: (List.range 16).map (clusterQ d)).flatMap (fun q => [linkKey q .up p, linkKey q .down p])
    ++ (dieLeaves d).flatMap (fun l => [leafLinkKey l .up p, leafLinkKey l .down p])

/-- A plane of a die slice goes out on request; from then on its segments wait for no idle time before they park (R575). -/
def State.diePlaneAway (s : State) (p d : Nat) : State :=
  ((planeLinks d p).foldl State.linkAway ((planeNodes d p).foldl State.pairAway s)).modDie d
    (fun x => if x.offline.contains p then x else { x with offline := x.offline ++ [p] })

/-- PLANE_OFFLINE's effect (R575). -/
def State.planeAway (s : State) (a : Activity) : State :=
  let t := a.dies.foldl (State.diePlaneAway · a.target) s
  if a.kiln then t.pairAway (nodeIx 0 false a.target) else t

/-- The node positions that a plane online tests. -/
def Activity.testNodes (a : Activity) : List Nat :=
  a.dies.flatMap (fun d => planeNodes d a.target) ++ (if a.kiln then [nodeIx 0 false a.target] else [])

/-- What an activity does when it starts. A global commit goes to the kiln (R481). -/
def State.begin (s : State) (a : Activity) : State :=
  match a.code with
  | 0x01 => a.dies.foldl (fun b d => b.modDie d (fun x => { x with calTries := 0, calWait := false })) s
  | 0x03 => (s.twinAway a.target a.twin).testing a.target true
  | 0x04 => if a.twin = 3 then s.pairAway a.target else s.twinAway a.target a.twin
  | 0x05 => s.testing a.target true
  | 0x06 => s.planeAway a
  | 0x07 => a.testNodes.foldl (fun b ix => b.testing ix true) s
  | 0x08 => s.modLeaf a.target (fun p => if p.failed then p else p.fail.endAll s.time)
  | 0x0B => s.modCfg (fun c => { c with swaps := c.swaps ++ [(none, a.port, a.tag)] })
  | _ => s

/-- The links of a leaf, both directions. -/
def leafLinks (l : Nat) : List Nat := (List.range 4).flatMap (fun p => [leafLinkKey l .up p, leafLinkKey l .down p])

/-- The twins of these nodes and the links of these that are out of service. -/
def State.partsOut (s : State) (nodes links : List Nat) : List Part :=
  nodes.flatMap (fun ix => ((twinsOf 3).filter (s.stat ix).isOut).map (Part.twin ix)) ++ (links.filter (fun k => (s.link k).failed)).map Part.link

/-- The parts of an online's target that are out of service (R571, R574). -/
def State.outParts (s : State) (a : Activity) : List Part :=
  match a.code with
  | 0x05 => s.partsOut [a.target] []
  | 0x07 => s.partsOut a.testNodes (a.dies.flatMap (planeLinks · a.target))
  | 0x09 => s.partsOut [] (leafLinks a.target)
  | _ => []

/-- An activity as it stands when it starts: its start time, and which parts of its target were out then. -/
def State.started (s : State) (a : Activity) : Activity := { a with queued := false, start := s.time, out := s.outParts a }

/-- An activity starts. -/
def State.startAct (s : State) (a : Activity) : State :=
  let b := s.started a
  (s.modCtlr (fun c => { c with acts := c.acts.map (fun x => if x.id = a.id then b else x) })).begin b

/-- An activity is added, started or queued; none when it is refused (R569). The flag tells that it is queued. -/
def State.admitAct (s : State) (a : Activity) : Option (State × Bool) :=
  let b := { a with id := s.ctl.nextAct }
  let add (q : Bool) : State := s.modCtlr (fun c => { c with acts := c.acts ++ [{ b with queued := q }], nextAct := c.nextAct + 1 })
  match s.ctl.judge b with
  | .refuse => none
  | .queue => some (add true, true)
  | .start => some ((add false).startAct b, false)

/-- R570: from the head of the queue, every entry starts that neither a running activity nor an earlier waiting one holds back. -/
def startable (running : List Activity) : List Activity → List Activity → List Activity
  | _, [] => []
  | waiting, a :: rest =>
    if (running ++ waiting).all (fun b => a.against b == .start) then a :: startable (running ++ [a]) waiting rest
    else startable running (waiting ++ [a]) rest

/-- The controller examines the queue. -/
def State.examineQueue (s : State) : State :=
  (startable (s.ctl.acts.filter (fun a => !a.queued)) [] (s.ctl.acts.filter (·.queued))).foldl State.startAct s

/-- An activity is over: its MAINT event is written, and the queue is examined (R570, R571). -/
def State.endAct (s : State) (a : Activity) (outcome : Nat) : State :=
  ((s.modCtlr (fun c => { c with acts := c.acts.filter (fun x => x.id != a.id) })).maintEvent a outcome).examineQueue

/-! ### Ends -/

/-- A twin returns to service (R388). -/
def NodeStat.returns (n : NodeStat) (t : Twin) : NodeStat :=
  match t with
  | .a => { n with aOut := false, pairOut := false, reported := false }
  | .b => { n with bOut := false, pairOut := false, reported := false }

/-- Whether a twin is among the parts that failed. -/
def twinFailed (failed : List Part) (ix : Nat) (t : Twin) : Bool := failed.contains (.twin ix t) || failed.contains (.pair ix)

/-- The parts that an online's target has lost to a fault since it started (R571). -/
def State.lostSince (s : State) (a : Activity) : List Part := (s.outParts a).filter (fun x => !a.out.contains x)

/-- Whether the kiln has registered the loss of a part; a takeover by a sibling twin is nothing to register. -/
def State.lossKnown (s : State) (x : Part) : Bool :=
  match x with
  | .twin ix _ => !(s.stat ix).pairOut || (s.stat ix).reported
  | .link k => (s.link k).reported
  | _ => true

/-- A twin's return, as the firings under way see it: none of them uses it (R388). -/
def Node.returned (n : Node) (ts : List Twin) : Node :=
  { n with slots := n.slots.map (fun sl => { sl with without := sl.without ++ ts.filter (fun t => !sl.without.contains t) }) }

/-- Twins of a node return to service, with the outcome of their self-test (R388, R572). -/
def State.twinsBack (s : State) (ix : Nat) (ts : List Twin) (testFailed : Bool) : State :=
  let t := s.modStat ix (fun n => { ts.foldl NodeStat.returns n with testFailed := testFailed })
  if ix / 4 % 2 = 1 then t else t.modNode ix (fun n => n.returned ts)

/-- Admission goes on once the kiln's own control-path pair is back (R400). -/
def State.noteKilnBack (s : State) : State :=
  if (s.ctlNode (nodeIx 0 true 0)).stat.pairOut then s else s.modKiln (fun k => { k with admitStopped := false })

/-- The end of a self-test (R572): each twin that passes returns. The outcome. -/
def State.selfTestEnds (s : State) (a : Activity) (failed : List Part) : State × Nat :=
  let n := s.stat a.target
  let ts := twinsOf a.twin
  let t := s.testing a.target false
  if a.twin != 3 && (n.pairOut || !ts.all n.isOut) then (t, 2)
  else
    let bad := ts.any (twinFailed failed a.target)
    let back := ts.filter (fun x => n.isOut x && !twinFailed failed a.target x)
    ((t.twinsBack a.target back bad).noteKilnBack, if bad then 1 else 0)

/-- The end of a node online: it tests every twin that was out when it started. When one fails, or a further one was lost meanwhile,
none returns (R574, R571). -/
def State.onlineEnds (s : State) (a : Activity) (failed : List Part) : State × Nat :=
  let ts := (twinsOf 3).filter (fun x => a.out.contains (.twin a.target x))
  let t := s.testing a.target false
  if ts.any (twinFailed failed a.target) then (t.modStat a.target (fun n => { n with testFailed := true }), 1)
  else if !(s.lostSince a).isEmpty then (t, 1)
  else ((t.twinsBack a.target ts false).noteKilnBack, 0)

/-- A failed datapath link whose loss is registered returns: its handshake and retry start afresh, its counters stay. A link in
service is left as it is (R420, R576). -/
def Link.returns (k : Link) : Link :=
  if k.failed then
    { crcErr := k.crcErr, retries := k.retries, nakRepeat := k.nakRepeat, replayed := k.replayed, lastFlit := k.lastFlit, shakes := k.shakes }
  else k

/-- Whether the tests of a plane in a die slice failed. -/
def planeTestFailed (failed : List Part) (d p : Nat) : Bool :=
  failed.contains (.dieSlice d) || (planeNodes d p).any (fun ix => (twinsOf 3).any (twinFailed failed ix))
    || (planeLinks d p).any (fun k => failed.contains (.link k))

/-- A pair of a plane is in service again: each of its twins that was out returns. -/
def State.pairBack (s : State) (ix : Nat) : State := s.twinsBack ix ((twinsOf 3).filter (s.stat ix).isOut) false

/-- A plane of a die slice returns: its links and nodes (R576). -/
def State.diePlaneBack (s : State) (p d : Nat) : State :=
  ((planeLinks d p).foldl (fun c k => c.modLink k Link.returns) ((planeNodes d p).foldl State.pairBack s)).modDie d
    (fun x => { x with offline := x.offline.filter (· != p) })

/-- Whether a plane of a die slice has lost a part while it was tested. -/
def planeLost (lost : List Part) (d p : Nat) : Bool :=
  lost.any (fun x => match x with
    | .twin ix _ => (planeNodes d p).contains ix
    | .link k => (planeLinks d p).contains k
    | _ => false)

/-- The end of a plane online: a die slice whose tests pass gets its plane back; one that fails, or has lost a part of it meanwhile, is
named (R576, R571). -/
def State.planeEnds (s : State) (a : Activity) (failed : List Part) : State × Option Nat :=
  let lost := s.lostSince a
  let kilnIx := nodeIx 0 false a.target
  let bad := a.dies.filter (fun d => planeTestFailed failed d a.target || planeLost lost d a.target || (s.die d).dead)
  let kilnBad := a.kiln && (twinsOf 3).any (fun x => twinFailed failed kilnIx x || lost.contains (.twin kilnIx x))
  let t := a.testNodes.foldl (fun b ix => b.testing ix false) s
  let t := (a.dies.filter (fun d => !bad.contains d)).foldl (State.diePlaneBack · a.target) t
  let mark (b : State) (ix : Nat) : State :=
    if (twinsOf 3).any (twinFailed failed ix) then b.modStat ix (fun n => { n with testFailed := true }) else b
  let t := a.testNodes.foldl mark t
  (if a.kiln && !kilnBad then t.pairBack kilnIx else t,
   match bad with
   | d :: _ => some d
   | [] => if kilnBad then some 0xFF else none)

/-- Whether a leaf's self-test failed: the leaf, a link of it, or the control path above it. -/
def State.leafTestFailed (s : State) (l : Nat) (failed : List Part) : Bool :=
  failed.contains (.leaf l) || (leafLinks l).any (fun k => failed.contains (.link k))
    || [0, dieQ (l / 256), leafQ l].any (fun q => (s.ctlNode (nodeIx q true 0)).stat.pairOut)

/-- A leaf port back in service, not yet reset. -/
def LeafPort.back (p : LeafPort) (rank : Nat) : LeafPort :=
  { p with failed := false, failReported := false, failCounted := false, unwritten := 0, ctlA := false, ctlB := false }.takeRank
    (BitVec.ofNat 16 rank)

/-- A leaf returns (R578): its links, its port with a reset; its rank at once when the active map has it enabled, else firmware
clears its bit in the shadow set. -/
def State.leafBack (s : State) (l : Nat) : State :=
  let t := (leafLinks l).foldl (fun b k => b.modLink k Link.returns) s
  let t := (t.modLeaf l (fun p => p.back (s.cfg.rankOf l))).modKiln (fun k => { k with failedLeaves := k.failedLeaves.filter (· != l) })
  let t := t.leafReset l
  if s.leafEnabled l then t
  else t.modCfg (fun c => { c with
    shadow := { c.shadow with disabled := c.shadow.disabled &&& ~~~(BitVec.ofNat 8192 (2 ^ l)) }, shadowGen := c.shadowGen + 1 })

/-- The end of a calibration, when it has come (R579). -/
def State.calEnds (s : State) (a : Activity) : Option Nat :=
  let x := s.die (a.dies.headD 0)
  if x.calDone a && !x.measuring then (if x.newTrims then none else some 0) else if decide (3 ≤ x.calTries) || x.dead then some 1 else none

/-- Whether an offline has been registered at the kiln, so that every affected firing is redealt (R573, R575). -/
def State.offlineDone (s : State) (a : Activity) : Bool :=
  if a.code = 0x06 then
    a.testNodes.all (fun ix => (s.stat ix).reported) && (a.dies.flatMap (fun d => planeLinks d a.target)).all (fun k => (s.link k).reported)
  else a.twin != 3 || (s.stat a.target).reported

/-- What an activity's end does, and its outcome, when it can end now; `failed` are the parts that its tests found failed, `finds` what
its scrub found (R580). An online ends once the kiln has registered every loss of its target: a fault on the same part is handled
first (R571). -/
def State.actEnds (s : State) (a : Activity) (failed : List Part) (finds : List ScrubFind) : Option (State × Activity × Nat) :=
  if !(s.outParts a).all s.lossKnown then none else
  match a.code with
  | 0x01 => (s.calEnds a).map (fun o => (s, a, o))
  | 0x02 => some (finds.foldl State.scrubOne s, a, 0)
  | 0x03 => let (t, o) := s.selfTestEnds a failed; some (t, a, o)
  | 0x04 =>
    if !s.offlineDone a then none
    else some (s, a, if a.twin = 3 || (twinsOf a.twin).all (s.stat a.target).isOut then 0 else 2)
  | 0x05 => let (t, o) := s.onlineEnds a failed; some (t, a, o)
  | 0x06 => if s.offlineDone a then some (s, a, 0) else none
  | 0x07 => match s.planeEnds a failed with
    | (t, none) => some (t, a, 0)
    | (t, some d) => some (t, { a with target := d, dies := if d = 0xFF then [] else [d], kiln := d == 0xFF }, 1)
  | 0x08 => if (s.leaf a.target).failReported then some (s, a, 0) else none
  | 0x09 =>
    if s.leafTestFailed a.target failed || !(s.lostSince a).isEmpty then some (s, a, 1) else some (s.leafBack a.target, a, 0)
  | _ => none

/-- MAINT_ACTIVITY_END. -/
def execMaintActivityEnd (id : Nat) (found : MaintFound) (s : State) : Host.Outcome State Fault Refusal :=
  match s.ctl.acts.find? (fun a => a.id == id && !a.queued) with
  | none => .next s
  | some a => match s.actEnds a found.failed found.finds with
    | none => .next s
    | some (t, b, o) => .next (t.endAct b o).offer

end Sys2Proof.Machine
end

