-- ==== Sys2Proof/Machine/Startup.lean ====
section
/-! DEFINITION. Block reset and the start-up sequence (R512 to R515, R561 to R566), the reference clock and the pace generator
(R33, R335 to R337, R516). -/

namespace Sys2Proof.Machine
open Sys2Proof

/-- What block reset leaves: every register and memory at its reset value, block time zero; the package boot store and its
record of the active bank lie outside the block, as do the cores' scratchpads (R455, R512, R514). -/
def State.blockReset (s : State) : State :=
  { State.reset with
    leaves := tmapAll {} (fun p => { scratch := p.scratch }) s.leaves,
    pending := s.pending, tick := s.tick, handles := s.handles, pwrokLow := s.pwrokLow, rstLow := s.rstLow, cxReset := s.cxReset,
    ctl := { bankA := s.ctl.bankA, bankB := s.ctl.bankB, activeB := s.ctl.activeB } }

/-- A reset source is asserted. -/
def State.assertReset (s : State) (src : ResetSource) : State :=
  match src with
  | .pwrok => { s with pwrokLow := true }.blockReset
  | .rstN => { s with rstLow := true }.blockReset
  | .cxReset => { s with cxReset := true }.blockReset

/-- BLOCK_RESET_ASSERT. -/
def execBlockResetAssert (src : ResetSource) (s : State) : Host.Outcome State Fault Refusal :=
  .next (s.assertReset src)

/-- BLOCK_RESET_END: the last source is released, the straps are sampled and zeroing begins; a CX_NDIE_M1 below 3 holds the
block in reset (R515, R561). The block handle is formed (R441). -/
def execBlockResetEnd (straps : Straps) (s : State) : Host.Outcome State Fault Refusal :=
  if s.ctl.phase != .inReset then .next s
  else if decide (straps.ndieM1.toNat < 3) then .next s
  else .next { s with pwrokLow := false, rstLow := false, cxReset := false, straps := straps, time := 0, tick := s.tick + 1,
                      ctl := { s.ctl with phase := .zeroing, tryB := s.ctl.activeB, blockHandle := Config.handle s.tick } }

/-- SRAM_ZEROED: step 2 ends and the boot ROM reads the active image. -/
def execSramZeroed (s : State) : Host.Outcome State Fault Refusal :=
  if s.ctl.phase != .zeroing then .next s
  else .next (s.modCtlr (fun c => { c with phase := .readImage, tryB := c.activeB, triedBoth := false }))

/-- What the boot ROM reads from a bank: the bytes that the state holds of it; `img` where it holds none, for the boot store's
first contents lie outside the block (R455). -/
def Bank.fetched (b : Bank) (img : List Byte) : Bank :=
  if b.bytes.isEmpty && b.st == .empty then { b with bytes := tsetRun 0 [] 0 img } else b

/-- A good image at the start-up sequence or a restart: its bank is the active one, and it starts. A bank other than the
recorded one is a fallback, reported by HELLO (R561, R459). -/
def Controller.imageStarts (c : Controller) (now : Quad) : Controller :=
  let d := ((c.modBank c.tryB (fun b => b.named .active)).modBank (!c.tryB) Bank.demoted).runs ((c.bank c.tryB).named .active) now
  let e := if c.tryB != c.activeB then
      { d.modBank c.activeB (fun b => { b with st := .failed }) with activeB := c.tryB, quietFallback := true }
    else d
  { e with imageOk := true, onEmergency := c.onEmergency && c.phase == .restarting }

/-- IMAGE_CHECK: at start-up and at a restart. A failure tries the other bank, and a second one enters safe mode (R456,
R466, R561). An image that faults before the boot store has recorded it goes the way of FW_FALLBACK instead (R459). -/
def execImageCheck (img : List Byte) (s : State) : Host.Outcome State Fault Refusal :=
  if s.ctl.phase != .readImage && (s.ctl.phase != .restarting || s.ctl.imageOk || s.ctl.confirm.isSome) then .next s
  else
    let t := s.modCtlr (fun c => c.modBank c.tryB (fun b => b.fetched img))
    if imageValid (t.ctl.bank t.ctl.tryB).image then
      .next (t.modCtlr (fun c =>
        { c.imageStarts s.time with phase := if c.phase == .readImage then .readConfig else .restarting }))
    else if s.ctl.triedBoth then .next (t.safeMode 6)
    else .next (t.modCtlr (fun c => { c with tryB := !c.tryB, triedBoth := true }))

/-! ### The configuration record (R564) -/

/-- The policy bits that Table 14.2 defines. -/
def policyMask : Nat := 0xFFFF * 2 ^ 32 + 0x1FF * 2 ^ 23 + 7

/-- Whether firmware takes a configuration record as present (R564). -/
def recordOk (n : Nat) (r : List Byte) : Bool :=
  r.length == 1120 && numAt r 0 4 == 0xC0F16A5E && numAt r 4 2 == 1 && numAt r 6 1 + 1 == n
    && decide (slice (numAt r 8 16) 23 9 ≤ 256)
    && (List.range 32).all (fun d => decide (10 ≤ numAt r (1048 + 2 * d) 2) && decide (numAt r (1048 + 2 * d) 2 ≤ 1000))
    && BitVec.ofNat 64 (numAt r 1112 8) == crc64 (r.take 1112)

/-- The global set as a record gives it. -/
def GlobalSet.ofRecord (g : GlobalSet) (r : List Byte) : GlobalSet :=
  { g with policy := BitVec.ofNat 128 (numAt r 8 16 &&& policyMask), disabled := BitVec.ofNat 8192 (numAt r 24 1024),
           budget := (List.range 32).foldl (fun t d => tset 1000 t d (BitVec.ofNat 16 (numAt r (1048 + 2 * d) 2))) [] }

/-- The global set from the reset values, every built leaf enabled. -/
def GlobalSet.defaults (g : GlobalSet) : GlobalSet :=
  { g with policy := ({} : GlobalSet).policy, disabled := 0, budget := [] }

/-- The shadow bits of failed leaves are set again after the map is loaded a second time (R565). -/
def GlobalSet.markFailed (g : GlobalSet) (ls : List Nat) : GlobalSet :=
  { g with disabled := ls.foldl (fun m l => m ||| BitVec.ofNat 8192 (2 ^ l)) g.disabled }

/-- CONFIG_RECORD_LOAD: step 5. -/
def execConfigRecordLoad (record : List Byte) (s : State) : Host.Outcome State Fault Refusal :=
  if s.ctl.phase != .readConfig then .next s
  else
    let ok := recordOk s.n record
    let t := s.modCfg (fun c =>
      { c with shadow := ((if ok then c.shadow.ofRecord record else c.shadow.defaults).markFailed s.kiln.failedLeaves) })
    let t := t.modCtlr (fun c => { c with noRecord := !ok, phase := .selfTest })
    .next (if s.ctl.selfTested then t.afterSelfTest else t)

/-- STARTUP_SELF_TEST_DONE: step 6 (R565). -/
def execStartupSelfTestDone (failed : List Part) (s : State) : Host.Outcome State Fault Refusal :=
  if s.ctl.phase != .selfTest then .next s
  else .next (failed.foldl State.partLostAtStart s).afterSelfTest

/-- FIRST_GLOBAL_COMMIT: step 8 (R566). -/
def execFirstGlobalCommit (s : State) : Host.Outcome State Fault Refusal :=
  if s.ctl.phase != .firstCommit then .next s
  else
    let t := ((s.modCfg (fun c => c.swapGlobal s.n)).takeRanks).rebaseChanged s.cfg.active.disabled
    .next (((t.rekey 1).notePace).modCtlr (fun c => { c with phase := .beforeServe }))

/-! ### The reference and the pace generator -/

/-- A die slice's scheduled time comes: a schedule still open then found no window and counts as missed (R352, R359, R579). -/
def Die.scheduled (x : Die) : Die :=
  { x with missed := if x.sched then satInc x.missed else x.missed, sched := true, calWait := false }

/-- The schedule of R352: die slot k's pass is due at k × 31,250 ns within every 1 ms, once the self-test has ended. -/
def State.schedulePass (s : State) : State :=
  let t := s.time.toNat
  let d := t / 31250 % 32
  if t % 31250 == 0 && s.ctl.selfTested && decide (d < s.n) && !(s.die d).dead then s.modDie d Die.scheduled else s

/-- REFCLK_EDGE: block time advances by 10 (R33). -/
def execRefclkEdge (s : State) : Host.Outcome State Fault Refusal :=
  if !s.awake || s.refLost then .next s else .next { s with time := s.time + 10 }.schedulePass

/-- Pacing has stopped, resumed or switched: no die slice's pass is later than that (R357). -/
def State.pacingChanged (s : State) : State := (List.range s.n).foldl (fun a d => a.modDie d (fun x => { x with passedPace := false })) s

/-- REF_LOST: no edge for 30 ns (R337). The pace generator has lost its reference, and pacing stops where it was active (R336). -/
def execRefLost (s : State) : Host.Outcome State Fault Refusal :=
  if !s.awake || s.refLost then .next s
  else
    let t := if s.paceActive then s.pacingChanged else s
    .next ({ t with refLost := true, paceLocked := false }.timingEvent 1 0)

/-- REF_RETURN: block time resumes from the value it held (R337). -/
def execRefReturn (s : State) : Host.Outcome State Fault Refusal :=
  if !s.refLost then .next s else .next ({ s with refLost := false }.timingEvent 2 0)

/-- PACE_LOCK: within 20 µs of block reset or of the reference's return; in paced mode pacing resumes (R336, R337). -/
def execPaceLock (s : State) : Host.Outcome State Fault Refusal :=
  if !s.awake || s.refLost then .next s
  else
    let t := { s with paceLocked := true }
    .next (if t.paceActive && !s.paceLocked then t.pacingChanged else t)

end Sys2Proof.Machine
end

