-- ==== Sys2Proof/Machine/ConfigEdit.lean ====
section
/-! DEFINITION. Editing the configuration: creating and removing saggars (R471, R473), reading and writing table entries (R467 to R469,
R475, R477, R545), discarding (R479), checking a shadow set (R472, R476, R480), and debug pokes (R487). -/

namespace Sys2Proof.Machine
open Sys2Proof

/-! ### Saggars -/

/-- A saggar's quota entry with nothing but its owner. -/
def quotaOf (owner : Nat) : BitVec 128 := BitVec.ofNat 128 (at' owner 50)

/-- SAGGAR_CREATE's own part (R471). An owner port above 17 does not exist. -/
def runSaggarCreate (s : State) (q : Req) : Reply :=
  let owner := q.num 0 1
  if 17 < owner then .refuse s erInvalid 32
  else match (List.range 4096).find? (fun k => !(s.cfg.sag k).inUse) with
  | none => .refuse s erLimit 0
  | some k =>
    let h := Config.handleOf k (BitVec.ofNat 64 s.handles)
    let entry (g : GlobalSet) : GlobalSet := { g with quota := tset 0 g.quota k (quotaOf owner) }
    let t := s.modCfg (fun c => ({ c with active := entry c.active, shadow := entry c.shadow }).modSag k (fun x =>
      { inUse := true, handle := h, created := x.created + 1 }))
    .ok { t with handles := t.handles + 1 } (leBytes 2 k ++ leBytes 6 0 ++ leBytes 8 h.toNat) true

/-- SAGGAR_CREATE. -/
def execSaggarCreate (port : Nat) (s : State) : Host.Outcome State Fault Refusal := .next (s.command port 0x0101 runSaggarCreate)

/-- SAGGAR_DESTROY's own part: the removal waits for the next admission boundary, where its effect is recorded (R436, R473). -/
def runSaggarDestroy (s : State) (q : Req) : Reply :=
  if q.glob then .refuse s erInvalid 10
  else if !(s.cfg.sag q.saggar).inUse then .refuse s erNotFound 0
  else .ok (s.modCfg (fun c => c.modSag q.saggar (fun x => { x with dying := some (q.port, q.tag) }))) [] false

/-- SAGGAR_DESTROY. -/
def execSaggarDestroy (port : Nat) (s : State) : Host.Outcome State Fault Refusal := .next (s.command port 0x0102 runSaggarDestroy)

/-- SAGGAR_LIST's own part: the saggars in use from a number on, 253 at most; the entries follow the two bytes of their number. -/
def runSaggarList (s : State) (q : Req) : Reply :=
  let all := (s.cfg.saggars.filter (fun e => e.2.inUse && decide (q.num 0 2 ≤ e.1))).map (·.1)
  let ks := all.take 253
  let entry (k : Nat) : List Byte :=
    let o := s.cfg.owner k
    let h := if o == q.port || s.privileged q.port then (s.cfg.sag k).handle.toNat else 0
    leBytes 2 k ++ leBytes 6 o ++ leBytes 8 h
  { st := s, data := leBytes 2 ks.length ++ (ks.map entry).flatten, more := decide (253 < all.length) }

/-- SAGGAR_LIST. -/
def execSaggarList (port : Nat) (s : State) : Host.Outcome State Fault Refusal := .next (s.command port 0x0103 runSaggarList)

/-! ### Entries (Table 14.1) -/

/-- A table's set must match the request's (R467). -/
def tableFits (glob : Bool) (table : Nat) : Bool := (entrySize table).isSome && (glob == decide (0x10 ≤ table))

/-- The indices of a table, first and number: a saggar's by its active quota. -/
def Config.tableRange (c : Config) (saggar table : Nat) : Nat × Nat :=
  match table with
  | 0x01 => (qGroupBase (c.quota saggar), qGroupCount (c.quota saggar))
  | 0x02 => (qMapBase (c.quota saggar), qMapCount (c.quota saggar))
  | 0x10 => (0, 1)
  | 0x11 => (0, 1024)
  | 0x12 => (0, 4096)
  | 0x13 => (0, 8192)
  | 0x14 => (0, 32)
  | 0x15 => (0, 4096)
  | _ => (0, 0)

/-- The RW and reserved bits of a GROUP entry: every bit but the RO fields of Table 14.5. -/
def groupRw : Nat := (2 ^ 192 - 1) - (2 ^ 40 - 2 ^ 18)

/-- The RO bits of a GROUP entry as read: the membership digest of the set it stands in, and what the kiln keeps. -/
def State.groupRo (s : State) (ss : SaggarSet) (g : Nat) : Nat :=
  let e := ss.group g
  let r := s.groupRun g
  let lost := s.cfg.lost.any (fun w => !w.shadow && w.table == 1 && w.index == g)
  (if gValid e then at' (mshipDigest g (memberRanks ss e)).toNat 192 else 0) + at' r.incarnation.toNat 24
    + at' (if lost then 3 else r.reason.toNat) 20 + at' (b2n (r.broken || lost)) 19 + at' (b2n r.fenced) 18

/-- A set of a saggar. -/
def Saggar.bank (x : Saggar) (active : Bool) : SaggarSet := if active then x.active else x.shadow

/-- An entry as a host reads it. -/
def State.entry (s : State) (active : Bool) (saggar table i : Nat) : Nat :=
  let ss := (s.cfg.sag saggar).bank active
  let g := if active then s.cfg.active else s.cfg.shadow
  match table with
  | 0x01 => (ss.group i).toNat + s.groupRo ss i
  | 0x02 => (tget 0 ss.maps i).toNat
  | 0x10 => g.policy.toNat
  | 0x11 => ((mapBytes s.n g.disabled).getD i 0).toNat
  | 0x12 => (tget 0 g.quota i).toNat
  | 0x13 => (tget (BitVec.allOnes 64) g.leafSag i).toNat
  | 0x14 => (g.budgetOf i).toNat
  | 0x15 => (tget 0 g.regions i).toNat
  | _ => 0

/-- Writes an entry of a saggar set; RO fields are ignored (R475). -/
def SaggarSet.put (ss : SaggarSet) (table i v : Nat) : SaggarSet :=
  match table with
  | 0x01 => { ss with groups := tset 0 ss.groups i (BitVec.ofNat 256 (v &&& groupRw)) }
  | 0x02 => { ss with maps := tset 0 ss.maps i (BitVec.ofNat 8192 v) }
  | _ => ss

/-- A set without its recreate bits: they read 0 in the active set (Table 14.5). -/
def SaggarSet.clean (ss : SaggarSet) : SaggarSet :=
  { ss with groups := tmapAll 0 (fun e => e &&& ~~~(BitVec.ofNat 256 (2 ^ 90))) ss.groups }

/-- Byte `i` of the disabled-leaf map. -/
def putMapByte (m : BitVec 8192) (i v : Nat) : BitVec 8192 :=
  (m &&& ~~~(BitVec.ofNat 8192 (at' 0xFF (8 * i)))) ||| BitVec.ofNat 8192 (at' (v % 256) (8 * i))

/-- Writes an entry of a global set. -/
def GlobalSet.put (g : GlobalSet) (table i v : Nat) : GlobalSet :=
  match table with
  | 0x10 => { g with policy := BitVec.ofNat 128 v }
  | 0x11 => { g with disabled := putMapByte g.disabled i v }
  | 0x12 => { g with quota := tset 0 g.quota i (BitVec.ofNat 128 v) }
  | 0x13 => { g with leafSag := tset (BitVec.allOnes 64) g.leafSag i (BitVec.ofNat 64 v) }
  | 0x14 => { g with budget := tset 1000 g.budget i (BitVec.ofNat 16 v) }
  | 0x15 => { g with regions := tset 0 g.regions i (BitVec.ofNat 256 v), stale := g.stale.filter (· != i) }
  | _ => g

/-! ### What an entry must satisfy (R468, R469, R477, R545) -/

/-- The offset in a GROUP entry with valid 1 of the first field that is refused (R477). -/
def badGroup (mapBase mapCount : Nat) (e : BitVec 256) : Option Nat :=
  let last := gFirst e + (gCount e - 1) * 2 ^ gStride e
  if !gValid e then none
  else if 256 < gLat e then some 11
  else if gRagged e = 3 then some 11
  else if 1000000 < slice e.toNat 104 20 then some 13
  else if 14 ≤ gStride e then some 17
  else if !gMapForm e && (gCount e == 0 || decide (8192 < gCount e)) then some 18
  else if !gMapForm e && decide (8191 < last) then some (if 8191 < gFirst e then 20 else 18)
  else if gMapForm e && !(decide (mapBase ≤ gMap e) && decide (gMap e < mapBase + mapCount)) then some 22
  else none

/-- The offset in a DEPOSIT_REGION entry of the first field that is refused (R544, R545). -/
def badRegion (v : Nat) : Option Nat :=
  let exact := rKind v == 3
  let bad := rKind v != 0
  if exact && (decide (rWeight v < -2148) || decide (2203 < rWeight v + 48 * ((rWords v : Int) - 1) + 64)) then some 18
  else if !exact && slice v 144 13 != 0 then some 18
  else if exact && (decide (rWords v < 4) || decide (16 < rWords v)) then some 19
  else if !exact && rWords v != 0 then some 19
  else if bad && rElems v == 0 then some 22
  else if rBase v % 64 != 0 || decide (2 ^ 48 < rBase v + rElems v * rSize v) then some 26
  else none

/-- The offset in an entry of the first field whose value is refused. -/
def State.badEntry (s : State) (saggar table v : Nat) : Option Nat :=
  let quota := s.cfg.quota saggar
  match table with
  | 0x01 => badGroup (qMapBase quota) (qMapCount quota) (BitVec.ofNat 256 v)
  | 0x10 => if 256 < slice v 23 9 then some 2 else none
  | 0x12 =>
    if 17 < slice v 50 5 then some 6
    else if 512 < slice v 68 10 then some 8
    else if 511 < slice v 78 10 then some 9
    else if 65536 < slice v 88 20 then some 11
    else none
  | 0x13 => ((List.range 4).find? (fun k => decide (4096 ≤ slice v (16 * k) 16) && slice v (16 * k) 16 != 0xFFFF)).map (2 * ·)
  | 0x14 => if v < 10 || 1000 < v then some 0 else none
  | 0x15 => badRegion v
  | _ => none

/-- The refusal of a SHADOW_WRITE or poke: its table, its index range, then its entries in order. The detail is an offset from the
start of the header. -/
def State.badWrite (s : State) (q : Req) : Option Nat :=
  let table := q.num 0 1
  let r := s.cfg.tableRange q.saggar table
  if !tableFits q.glob table then some 32
  else if q.num 4 4 < r.1 || r.1 + r.2 < q.num 4 4 + q.num 8 2 || r.1 + r.2 ≤ q.num 4 4 then some 36
  else
    let size := (entrySize table).getD 1
    ((numbered 0 q.entries).findSome? (fun e => (s.badEntry q.saggar table e.2).map (fun o => 48 + size * e.1 + o)))

/-- Writes a request's entries by a writer of one entry. -/
def Req.putAll {α : Type} (q : Req) (put : α → Nat → Nat → Nat → α) (x : α) : α :=
  (numbered (q.num 4 4) q.entries).foldl (fun a e => put a (q.num 0 1) e.1 e.2) x

/-- The shadow generation that a request's set has. -/
def State.shadowGenOf (s : State) (q : Req) : BitVec 32 := if q.glob then s.cfg.shadowGen else (s.cfg.sag q.saggar).shadowGen

/-- The check_gen test (R443). -/
def State.conflicts (s : State) (q : Req) : Bool := q.checkGen && q.gen != s.shadowGenOf q

/-- Words of the shadow bank that a write gives new contents are good again (R413). -/
def Config.mendShadow (c : Config) (q : Req) : Config :=
  let set := if q.glob then none else some q.saggar
  let hit (w : CfgWord) : Bool := w.set == set && w.shadow && w.table == q.num 0 1 && decide (q.num 4 4 ≤ w.index)
    && decide (w.index < q.num 4 4 + q.num 8 2)
  { c with lost := c.lost.filter (fun w => !hit w), badWords := c.badWords.filter (fun w => !hit w.1) }

/-- SHADOW_WRITE's own part (R477, R478). -/
def runShadowWrite (s : State) (q : Req) : Reply :=
  if s.conflicts q then .refuse s erConflict 0
  else match s.badWrite q with
  | some d => .refuse s erInvalid d
  | none =>
    let t := s.modCfg (fun c =>
      (if q.glob then { c with shadow := q.putAll GlobalSet.put c.shadow, shadowGen := c.shadowGen + 1 }
       else c.modSag q.saggar (fun x => { x with shadow := q.putAll SaggarSet.put x.shadow, shadowGen := x.shadowGen + 1 })).mendShadow q)
    .ok t (leBytes 4 (t.shadowGenOf q).toNat) true

/-- SHADOW_WRITE. -/
def execShadowWrite (port : Nat) (s : State) : Host.Outcome State Fault Refusal := .next (s.command port 0x0111 runShadowWrite)

/-- SHADOW_READ's own part. -/
def runShadowRead (s : State) (q : Req) : Reply :=
  let table := q.num 0 1
  let r := s.cfg.tableRange q.saggar table
  let first := q.num 4 4
  if !q.glob && !(s.cfg.sag q.saggar).inUse then .refuse s erNotFound 0
  else if !tableFits q.glob table then .refuse s erInvalid 32
  else if 1 < q.num 1 1 then .refuse s erInvalid 33
  else if first < r.1 || r.1 + r.2 ≤ first then .refuse s erInvalid 36
  else
    let size := (entrySize table).getD 1
    let left := r.1 + r.2 - first
    let n := min (min (q.num 8 2) left) (4056 / size)
    let active := q.num 1 1 == 1
    let gen := if q.glob then (if active then s.cfg.activeGen else s.cfg.shadowGen)
      else if active then (s.cfg.sag q.saggar).activeGen else (s.cfg.sag q.saggar).shadowGen
    { st := s, more := decide (n < left),
      data := leBytes 4 gen.toNat ++ leBytes 4 n ++ ((upFrom first n).map (fun i => leBytes size (s.entry active q.saggar table i))).flatten }

/-- SHADOW_READ. -/
def execShadowRead (port : Nat) (s : State) : Host.Outcome State Fault Refusal := .next (s.command port 0x0112 runShadowRead)

/-- DISCARD's own part (R478, R479). -/
def runDiscard (s : State) (q : Req) : Reply :=
  if s.conflicts q then .refuse s erConflict 0
  else
    let own (w : CfgWord) : Bool := w.shadow && w.set == (if q.glob then none else some q.saggar)
    let failed := s.kiln.failedLeaves.filter (fun l => !bitOf s.cfg.active.disabled.toNat l)
    let t := s.modCfg (fun c =>
      let d := if q.glob then { c with shadow := c.active.markFailed failed, shadowGen := c.shadowGen + 1 }
        else c.modSag q.saggar (fun x => { x with shadow := x.active, shadowGen := x.shadowGen + 1 })
      { d with lost := d.lost.filter (fun w => !own w), badWords := d.badWords.filter (fun w => !own w.1) })
    .ok t (leBytes 4 (t.shadowGenOf q).toNat) true

/-- DISCARD. -/
def execDiscard (port : Nat) (s : State) : Host.Outcome State Fault Refusal := .next (s.command port 0x0114 runDiscard)

/-! ### Debug pokes (R487) -/

/-- DEBUG_TABLE_POKE's own part. A saggar table is poked in the saggar that the index lies in, for the request carries global set
(R442); the refused tables and indices are those of R487 and R467. -/
def State.pokeTarget (s : State) (q : Req) : Option Nat :=
  if 0x10 ≤ q.num 0 1 then none
  else (s.cfg.saggars.find? (fun e => e.2.inUse && (let r := s.cfg.tableRange e.1 (q.num 0 1)
    decide (r.1 ≤ q.num 4 4) && decide (q.num 4 4 < r.1 + r.2)))).map (·.1)

/-- DEBUG_TABLE_POKE's own part. -/
def runDebugTablePoke (s : State) (q : Req) : Reply :=
  let table := q.num 0 1
  if table == 0x11 || table == 0x12 || (entrySize table).isNone then .refuse s erInvalid 32
  else if 0x10 ≤ table then
    match s.badWrite q with
    | some d => .refuse s erInvalid d
    | none => .ok (s.modCfg (fun c => { c with active := q.putAll GlobalSet.put c.active, poked := true })) [] true
  else match s.pokeTarget q with
  | none => .refuse s erInvalid 36
  | some k => match s.badWrite { q with glob := false, saggar := k } with
    | some d => .refuse s erInvalid d
    | none =>
      .ok (s.modCfg (fun c => c.modSag k (fun x =>
        { x with active := (q.putAll SaggarSet.put x.active).clean, poked := true }))) [] true

/-- DEBUG_TABLE_POKE. -/
def execDebugTablePoke (port : Nat) (s : State) : Host.Outcome State Fault Refusal := .next (s.command port 0x0806 runDebugTablePoke)

/-! ### The checks of a commit (R472, R476, R480, R479, R545) -/

/-- Whether two ranges meet. -/
def rangesMeet (a na b nb : Nat) : Bool := decide (0 < na) && decide (0 < nb) && decide (a < b + nb) && decide (b < a + na)

/-- Whether the group or map ranges of two quota entries meet. -/
def quotasMeet (a b : BitVec 128) : Bool :=
  rangesMeet (qGroupBase a) (qGroupCount a) (qGroupBase b) (qGroupCount b) || rangesMeet (qMapBase a) (qMapCount a) (qMapBase b) (qMapCount b)

/-- The digest accumulators that a saggar holds open. -/
def Kiln.openDigests (k : Kiln) (sag : Nat) : Nat := (k.digests.filter (fun e => e.2.isOpen && e.2.saggar.toNat == sag)).length

/-- The first entry at which a running sum passes a limit. -/
def firstOver (limit : Nat) : Nat → List (Nat × Nat) → Option Nat
  | _, [] => none
  | acc, e :: es => if limit < acc + e.2 then some e.1 else firstOver limit (acc + e.2) es

/-- Whether a saggar's active set holds a valid group or a member map outside a quota's ranges. -/
def Saggar.outside (x : Saggar) (q : BitVec 128) : Bool :=
  x.active.groups.any (fun e => gValid e.2 && !(decide (qGroupBase q ≤ e.1) && decide (e.1 < qGroupBase q + qGroupCount q)))
    || x.active.maps.any (fun e => !(decide (qMapBase q ≤ e.1) && decide (e.1 < qMapBase q + qMapCount q)))

/-- What refuses a global commit: error, table, index. -/
def State.badGlobal (s : State) : Option (Nat × Nat × Nat) :=
  let g := s.cfg.shadow
  let qs := g.quota
  let at12 (o : Option Nat) (err : Nat) : Option (Nat × Nat × Nat) := o.map (fun k => (err, 0x12, k))
  let first (p : Nat × BitVec 128 → Bool) : Option Nat := (qs.find? p).map (·.1)
  (at12 (first (fun e => qs.any (fun f => decide (f.1 < e.1) && quotasMeet f.2 e.2))) erInvalid).or <|
  (at12 (first (fun e => (decide (0 < qGroupCount e.2) && decide (65536 < qGroupBase e.2 + qGroupCount e.2))
    || (decide (0 < qMapCount e.2) && decide (512 < qMapBase e.2 + qMapCount e.2)))) erInvalid).or <|
  (at12 (firstOver 4096 0 (qs.map (fun e => (e.1, qDigest e.2)))) erLimit).or <|
  (at12 ((s.cfg.saggars.find? (fun e => e.2.inUse && decide (qDigest (tget 0 qs e.1) < s.kiln.openDigests e.1))).map (·.1)) erLimit).or <|
  (at12 ((s.cfg.saggars.find? (fun e => e.2.inUse && e.2.outside (tget 0 qs e.1))).map (·.1)) erInvalid).or <|
  ((firstOver 134217728 0 ((g.regions.filter (fun e => rKind e.2.toNat == 3)).map (fun e => (e.1, rElems e.2.toNat)))).map
    (fun k => (erLimit, 0x15, k))).or <|
  (s.kiln.failedLeaves.find? (fun l => !mapDisabled s.n g.disabled l)).map (fun l => (erInvalid, 0x11, l / 8))

/-- Whether a group's ranks satisfy R476 against its saggar's ranges. -/
def groupSound (ss : SaggarSet) (q : BitVec 128) (g : Nat) (e : BitVec 256) : Bool :=
  let rs := memberRanks ss e
  decide (qGroupBase q ≤ g) && decide (g < qGroupBase q + qGroupCount q)
    && (!gMapForm e || (decide (qMapBase q ≤ gMap e) && decide (gMap e < qMapBase q + qMapCount q)))
    && !rs.isEmpty && rs.all (fun r => decide (r ≤ 8191))

/-- Whether every member rank lies below N on a leaf that lists the saggar, under the active rank map. -/
def Config.groupReaches (c : Config) (k : Nat) (rs : List Nat) : Bool :=
  rs.all (fun r => decide (r < c.nRanks) && (c.active.leafSaggars (c.leafOf r)).contains k)

/-- What refuses a saggar commit: the checks are made over all groups in turn. -/
def State.badSaggar (s : State) (k : Nat) : Option (Nat × Nat × Nat) :=
  let ss := (s.cfg.sag k).shadow
  let gs := ss.groups.filter (fun e => gValid e.2)
  let no (p : Nat × BitVec 256 → Bool) : Option (Nat × Nat × Nat) := (gs.find? (fun e => !p e)).map (fun e => (erInvalid, 0x01, e.1))
  (no (fun e => groupSound ss (s.cfg.quota k) e.1 e.2)).or (no (fun e => s.cfg.groupReaches k (memberRanks ss e.2)))

/-- What refuses a commit of a set. -/
def State.badCommit (s : State) (set : Option Nat) : Option (Nat × Nat × Nat) :=
  match set with
  | none => s.badGlobal
  | some k => s.badSaggar k

/-- The set that a request names. -/
def Req.set (q : Req) : Option Nat := if q.glob then none else some q.saggar

/-- The payload of a refused commit: the table and the first offending index (R480). -/
def badCommitData (table index : Nat) : List Byte := leBytes 4 table ++ leBytes 4 index

/-- COMMIT's own part: its checks, then the kiln or, for the global set, the maintenance matrix (R445, R480, R481, R569). -/
def runCommit (s : State) (q : Req) : Reply :=
  if s.conflicts q then .refuse s erConflict 0
  else match s.badCommit q.set with
  | some (err, table, i) => { st := s, err := err, data := badCommitData table i }
  | none =>
    if q.glob then
      match s.admitAct { id := 0, code := 0x0B, target := 0, twin := 0, dies := [], kiln := false, port := q.port, tag := q.tag, start := 0, queued := false } with
      | none => .refuse s erBusy 4
      | some (t, _) => { st := t, later := true }
    else { st := s.modCfg (fun c => { c with swaps := c.swaps ++ [(some q.saggar, q.port, q.tag)] }), later := true }

/-- COMMIT. -/
def execCommit (port : Nat) (s : State) : Host.Outcome State Fault Refusal := .next (s.command port 0x0113 runCommit)

end Sys2Proof.Machine
end

