-- ==== Sys2Proof/Machine/Commit.lean ====
section
/-! DEFINITION. What happens at admission boundaries: the swap of a committed set with its effects on groups (R59, R472, R481 to R485,
R507, R545), and the removal of a saggar (R473). -/

namespace Sys2Proof.Machine
open Sys2Proof

/-! ### Groups created, deleted and recreated (R484) -/

/-- Positions of a group that control nodes hold and the kiln has not opened. -/
def State.heldPositions (s : State) (g : Nat) : List Nat :=
  sortRise ((s.ctls.flatMap (fun e => e.2.pos)).filterMap (fun p => if p.group == g && !s.posOver g p.ord then some p.ord else none))

/-- Every unended position of a group in ARMING or ARMED ends with ABORTED, rank 0xFFFF, in the order of R301. -/
def State.abortGroup (s : State) (g : Nat) : State :=
  let t := (s.heldPositions g).foldl (fun a o => match a.position g o with
    | some (b, _) => b
    | none => a) s
  let fs := t.kiln.firings.filter (fun f => f.group == g && (f.st == .arming || f.st == .armed))
  let order := (sortRise (fs.map (·.ord))).flatMap (fun o => (fs.filter (fun f => f.ord == o)).map (·.uid))
  order.foldl (fun a uid => a.decideEnd uid stAborted 0xFFFF 0) t

/-- A group's positions close and its sequence starts again: position numbers go on in a new incarnation's range, and what the
cluster nodes have counted of the group is forgotten (R294, R484). -/
def State.restartGroup (s : State) (g : Nat) (recreated : Bool) : State :=
  let t := s.abortGroup g
  let t := t.modKiln (fun k => { k with firings := k.firings.map (fun f => if f.group == g then { f with expected := [] } else f) })
  let t := { t with ctls := tmapAll {} (fun n => { n with
    counts := n.counts.filter (fun c => c.1 / 64 != g), ended := n.ended.filter (fun c => c.1 != g) }) t.ctls }
  let t := t.modGroup g (fun r => { r with
    base := r.base + 2 ^ 32, nextOrd := r.base + 2 ^ 32, fenced := false, broken := false, reason := 0, badRank := 0xFFFF,
    incarnation := if recreated then r.incarnation + 1 else r.incarnation })
  t.closePositions

/-- The nodes' and the kiln's cached records of groups are dropped (R483). -/
def State.invalidate (s : State) (hit : Nat → Bool) : State :=
  { s with ctls := tmapAll {} (fun n => { n with cache := n.cache.filter (fun r => !hit r.group) }) s.ctls,
           kiln := { s.kiln with cache := s.kiln.cache.filter (fun r => !hit r.group) } }

/-- Table 14.6: what a saggar's new set does to one group. -/
inductive GroupChange where
  | none | created | deleted | recreated
deriving DecidableEq, Repr

/-- The change that a commit makes to a group's entry. -/
def groupChange (old new : SaggarSet) (g : Nat) : GroupChange :=
  let a := old.group g
  let b := new.group g
  if !gValid a then (if gValid b then .created else .none)
  else if !gValid b then .deleted
  else if gRecreate b || gRagged a != gRagged b || memberRanks old a != memberRanks new b then .recreated
  else .none

/-- The effect of a change on a group, before the swap. -/
def State.applyChange (s : State) (g : Nat) (c : GroupChange) : State :=
  match c with
  | .none => s
  | .created => s.modGroup g (fun r => { r with fenced := false, broken := false, reason := 0, badRank := 0xFFFF })
  | .deleted => s.restartGroup g false
  | .recreated => s.restartGroup g true

/-! ### The swap of a saggar set -/

/-- A saggar after its commit (R478, R481). -/
def Saggar.swapped (x : Saggar) : Saggar :=
  { x with active := x.shadow.clean, shadow := x.shadow.clean, activeGen := x.shadowGen + 1, shadowGen := x.shadowGen + 1, poked := false }

/-- The swap of a saggar set, its effects on groups, and its invalidations. -/
def State.swapSaggar (s : State) (k : Nat) : State :=
  let x := s.cfg.sag k
  let gs := sortRise (x.active.groups.map (·.1) ++ x.shadow.groups.map (·.1))
  let changed (g : Nat) : Bool := x.active.group g != x.shadow.group g || groupChange x.active x.shadow g != .none
  let t := gs.foldl (fun a g => a.applyChange g (groupChange x.active x.shadow g)) s
  let t := t.modCfg (fun c =>
    let d := c.modSag k Saggar.swapped
    { d with lost := d.lost.filter (fun w => w.set != some k), badWords := d.badWords.filter (fun w => w.1.set != some k) })
  t.invalidate (fun g => gs.contains g && changed g)

/-! ### The swap of the global set -/

/-- The groups of all saggars: saggar, group, entry. -/
def Config.allGroups (c : Config) : List (Nat × Nat × BitVec 256) :=
  c.saggars.flatMap (fun e => if e.2.inUse then (e.2.active.groups.filter (fun g => gValid g.2)).map (fun g => (e.1, g.1, g.2)) else [])

/-- The leaves that ranks reach under a rank map. -/
def Config.reached (c : Config) (rs : List Nat) : List Nat := rs.map c.leafOf

/-- Whether a group is broken under a new global set: the reason and the lowest offending rank (R484, R485). -/
def Config.breaks (c : Config) (k : Nat) (rs : List Nat) : Option (Nat × Nat) :=
  match rs.find? (fun r => decide (c.nRanks ≤ r) || !(c.active.leafSaggars (c.leafOf r)).contains k) with
  | none => none
  | some r => some (if c.nRanks ≤ r then 1 else 2, r)

/-- A group after a global commit that moved its leaves. -/
def State.breakGroup (s : State) (k g : Nat) (rs : List Nat) : State :=
  match s.cfg.breaks k rs with
  | none => s
  | some (reason, r) => s.modGroup g (fun x => { x with broken := true, reason := BitVec.ofNat 4 reason, badRank := r })

/-- The saggar whose quota gives it a group index, and which creation of that number it is. -/
def Config.indexOwner (c : Config) (g : Nat) : Option (Nat × Nat) :=
  (c.active.quota.find? (fun e => decide (qGroupBase e.2 ≤ g) && decide (g < qGroupBase e.2 + qGroupCount e.2))).map
    (fun e => (e.1, (c.sag e.1).created))

/-- A group index that another saggar holds now starts with incarnation 0 there (Table 14.5). -/
def State.newOwners (old : Config) (s : State) : State :=
  let gone := (s.kiln.groups.map (·.1)).filter (fun g => old.indexOwner g != s.cfg.indexOwner g)
  gone.foldl (fun a g => a.modGroup g (fun r => { r with incarnation := 0 })) s

/-- The swap of the global set with all its effects: ranks, keys, pacing, groups whose members reach other leaves, regions,
invalidations (R59, R335, R366, R483, R484, R545). -/
def State.swapGlobalSet (s : State) : State :=
  let c' := s.cfg.swapGlobal s.n
  let moved := s.cfg.allGroups.filter (fun e =>
    let rs := memberRanks (s.cfg.sag e.1).active e.2.2
    s.cfg.reached rs != c'.reached rs)
  let t := moved.foldl (fun a e => a.restartGroup e.2.1 true) s
  let clear (r : Nat) : Bool := !regionKept (tget 0 s.cfg.active.regions r) (tget 0 c'.active.regions r)
  let t := ((t.modCfg (fun c => { c.swapGlobal s.n with depInit := c.depInit.filter (fun b => !clear b.1) })).takeRanks).rebaseChanged
    s.cfg.active.disabled
  let t := moved.foldl (fun a e => a.breakGroup e.1 e.2.1 (memberRanks (s.cfg.sag e.1).active e.2.2)) t
  let t := if s.cfg.active.disabled != c'.active.disabled || s.cfg.active.leafSag != c'.active.leafSag then t.invalidate (fun _ => true) else t
  ((t.newOwners s.cfg).rekey 1).notePace

/-! ### COMMIT_SWAP (R481) -/

/-- The answer of a command that the kiln has completed: hardware gives it when the controller serves no more (R428). -/
def State.finishLate (s : State) (p code : Nat) (tag : BitVec 16) (err : Nat) (data : List Byte) (effect : Bool) : State :=
  s.modPort p (fun x =>
    let y := if effect then x.effect tag else x
    if s.ctl.phase == .serving then y.finish tag (responseBytes x.version code tag err 0 false data)
    else y.finish tag (responseBytes x.version code tag erMcRestarted (b2n effect) false []))

/-- The running global commit of a port and tag is over. -/
def State.endCommit (s : State) (p : Nat) (tag : BitVec 16) (outcome : Nat) : State :=
  match s.ctl.acts.find? (fun a => a.code == 0x0B && !a.queued && a.port == p && a.tag == tag) with
  | some a => s.endAct a outcome
  | none => s

/-- The payload of a COMMIT that took effect. -/
def State.commitData (s before : State) (set : Option Nat) : List Byte :=
  let gen := match set with
    | none => s.cfg.activeGen
    | some k => (s.cfg.sag k).activeGen
  let keys := s.cfg.reproKey != before.cfg.reproKey || s.cfg.exactKey != before.cfg.exactKey
  leBytes 4 gen.toNat ++ leBytes 4 0 ++ leBytes 8 before.time.toNat ++ leBytes 1 (b2n keys)

/-- COMMIT_SWAP: the first commit that the kiln has. What the shadow set holds now is what is committed, so its checks are made
again; the commit of a saggar that is gone finds nothing. -/
def execCommitSwap (s : State) : Host.Outcome State Fault Refusal :=
  match s.cfg.swaps with
  | [] => .next s
  | (set, p, tag) :: rest =>
    let s := s.modCfg (fun c => { c with swaps := rest })
    if set.any (fun k => !(s.cfg.sag k).inUse) then .next (s.finishLate p 0x0113 tag erNotFound [] false).nextRequest
    else match s.badCommit set with
    | some (err, table, i) => .next ((s.finishLate p 0x0113 tag err (badCommitData table i) false).endCommit p tag 1).nextRequest
    | none =>
      let t := match set with
        | none => s.swapGlobalSet
        | some k => s.swapSaggar k
      let t := t.finishLate p 0x0113 tag erOk (t.commitData s set) true
      .next ((if set.isNone then t.endCommit p tag 0 else t).offer).nextRequest

/-! ### SAGGAR_DESTROY_EFFECT (R473) -/

/-- A LEAF_SAGGARS entry without a saggar. -/
def dropSaggar (k : Nat) (e : BitVec 64) : BitVec 64 :=
  BitVec.ofNat 64 (((List.range 4).map (fun i => let v := slice e.toNat (16 * i) 16; at' (if v = k then 0xFFFF else v) (16 * i))).foldl (· + ·) 0)

/-- A global set without a saggar's quota entry and slots; the regions whose entries name it are stale. -/
def GlobalSet.without (g : GlobalSet) (k : Nat) : GlobalSet :=
  { g with quota := tset 0 g.quota k 0
           leafSag := tmapAll (BitVec.allOnes 64) (dropSaggar k) g.leafSag
           stale := ((g.regions.filter (fun e => rKind e.2.toNat != 0 && rSaggar e.2.toNat == k)).map (·.1)).foldl addOnce g.stale }

/-- The kiln accumulators of a saggar: those with no holder are released, the others, which no saggar owns now, when their holder
completes. Its digest accumulators close. -/
def Kiln.releaseAccs (kl : Kiln) (k : Nat) : Kiln :=
  let mine (a : KAcc) : Bool := a.owner == some k
  { kl with kaccs := tmapAll {} (fun a => if mine a then (if a.holder.isNone then {} else { a with owner := some 4096 }) else a) kl.kaccs
            digests := kl.digests.filter (fun e => !(e.2.isOpen && e.2.saggar.toNat == k)) }

/-- SAGGAR_DESTROY_EFFECT: at an admission boundary. -/
def execSaggarDestroyEffect (saggar : Nat) (s : State) : Host.Outcome State Fault Refusal :=
  let x := s.cfg.sag saggar
  match x.dying with
  | none => .next s
  | some (p, tag) =>
    let gs := (x.active.groups.filter (fun e => gValid e.2)).map (·.1)
    let t := gs.foldl (fun a g => a.restartGroup g false) s
    let t := t.modKiln (fun k => k.releaseAccs saggar)
    let t := t.modCfg (fun c => { c.modSag saggar (fun y => { created := y.created }) with
      active := c.active.without saggar, shadow := c.shadow.without saggar, lost := c.lost.filter (fun w => w.set != some saggar),
      badWords := c.badWords.filter (fun w => w.1.set != some saggar) })
    .next ((((t.newOwners s.cfg).invalidate gs.contains).modPort p (fun y => y.effect tag))).offer

end Sys2Proof.Machine
end

