-- ==== Sys2Proof/Machine/Reads.lean ====
section
/-! DEFINITION. The commands that read the block: state items and snapshots (R446 to R448), counters (R449), firings (R450, R451), digest
accumulators and keys (R366, R374 to R378), the governor record (R509), events (R452, R453), the fault log (R419), accumulators under
debug (R183, R454), the controller's log (R465) and the running activities. -/

namespace Sys2Proof.Machine
open Sys2Proof

/-- Whether a request is made as Priv: a privileged port under the block handle (R442). -/
def State.asPriv (s : State) (q : Req) : Bool := s.privileged q.port && q.cap == s.ctl.blockHandle

/-! ### Lists of entries (R444) -/

/-- A run of entries: the index space ends at `hi`, an entry has `size` bytes, `most` are asked for, `room` bytes are there. The entries
and the index after them. -/
def runOf (first most hi size room : Nat) : Nat × Nat :=
  let n := min (min most (hi - first)) (room / max 1 size)
  (n, first + n)

/-- The response of STATE_READ and COUNTER_READ. -/
def listReply (s : State) (code first most hi size : Nat) (entry : Nat → List Byte) : Reply :=
  let (n, next) := runOf first most hi size 4048
  { st := s, more := decide (next < hi),
    data := leBytes 4 code ++ leBytes 4 n ++ leBytes 8 next ++ ((upFrom first n).map entry).flatten }

/-! ### State items (Table 13.13) -/

/-- Entry bytes and index space of an item. A group is indexed within its saggar's range, a snapshot's firing entries by its list. -/
def itemShape (item : Nat) : Option (Nat × Nat) :=
  match item with
  | 0x01 | 0x02 => some (4, 1)
  | 0x03 | 0x0E => some (1, 1024)
  | 0x04 | 0x05 | 0x08 => some (2, 8192)
  | 0x06 => some (2, 4360)
  | 0x07 => some (24, 32)
  | 0x09 => some (32, 1)
  | 0x0B => some (64, 1)
  | 0x0A => some (32, 65536)
  | 0x0C => some (4, 4097)
  | 0x0D => some (16, 256)
  | 0x0F => some (48, 0)
  | _ => none

/-- Item 0x0007 of a die slot. -/
def pyroBytes (x : Die) : List Byte :=
  leBytes 4 (pyroStatus x).toNat ++ leBytes 8 x.measTime.toNat ++ leBytes 4 x.passes.toNat ++ leBytes 4 x.missed.toNat
    ++ leBytes 4 x.holds.toNat

/-- The saggar record (Table 14.4). -/
def State.saggarRecord (s : State) (k : Nat) : List Byte :=
  let x := s.cfg.sag k
  leBytes 16 (s.cfg.quota k).toNat ++ leBytes 4 x.activeGen.toNat ++ leBytes 4 x.shadowGen.toNat
    ++ leBytes 3 ((x.active.groups.filter (fun e => gValid e.2)).length) ++ leBytes 1 (b2n x.poked + at' (b2n x.dying.isSome) 1)
    ++ leBytes 2 (s.kiln.openDigests k) ++ leBytes 2 0

/-- Item 0x000B, for which the spec gives the poked flag and no layout: the policy, the generations and the flag stand as in
Table 14.4, and bytes 32 to 55 hold the two keys and the tree-shape digest in the order of KEY_READ, for R86 and R366 say that the
mailbox state reads and snapshots show them and Table 13.13 lists no other item for them (DESIGN CHOICE, assumption log 20). -/
def State.globalRecord (s : State) : List Byte :=
  leBytes 16 s.cfg.active.policy.toNat ++ leBytes 4 s.cfg.activeGen.toNat ++ leBytes 4 s.cfg.shadowGen.toNat ++ leBytes 3 0
    ++ leBytes 1 (b2n s.cfg.poked) ++ leBytes 4 0 ++ leBytes 8 s.cfg.reproKey.toNat ++ leBytes 8 s.cfg.exactKey.toNat
    ++ leBytes 8 s.cfg.shape.toNat ++ leBytes 8 0

/-- Item 0x000D. -/
def kaccRecord (a : KAcc) : List Byte :=
  let own (v : Nat) : Nat := if a.ownerNow.isSome then v else 0
  [if a.written then 0 else 2] ++ leBytes 1 (own (b2n a.exact)) ++ leBytes 2 (own a.count) ++ leBytes 2 (a.ownerNow.getD 0xFFFF)
    ++ leBytes 2 (a.holder.getD 0xFFFF) ++ leBytes 1 (own a.op) ++ leBytes 1 (own a.inFmt) ++ leBytes 1 (own a.tanLog2) ++ leBytes 5 0

/-- Byte `i` of the failed-leaf map. -/
def failedByte (ls : List Nat) (i : Nat) : Byte :=
  BitVec.ofNat 8 (((ls.filter (fun l => l / 8 == i)).map (fun l => 2 ^ (l % 8))).foldl (· + ·) 0)

/-- The generation at an index of item 0x000C. -/
def State.genAt (s : State) (i : Nat) : BitVec 32 := if i = 0 then s.cfg.activeGen else (s.cfg.sag (i - 1)).activeGen

/-- An entry of an item, live. -/
def State.item (s : State) (sag item i : Nat) : List Byte :=
  match item with
  | 0x01 => leBytes 4 s.blkVersion.toNat
  | 0x02 => leBytes 4 (timingStatus s).toNat
  | 0x03 => leBytes 1 (s.entry true 0 0x11 i)
  | 0x04 => leBytes 2 (s.cfg.leafOf i)
  | 0x05 => leBytes 2 (s.cfg.rankOf i)
  | 0x06 => leBytes 2 (nodeStatus (s.stat i)).toNat
  | 0x07 => pyroBytes (s.die i)
  | 0x08 => leBytes 2 (leafTrim (s.die (i / 256)) (s.leaf i)).toNat
  | 0x09 => s.saggarRecord sag
  | 0x0A => leBytes 32 (s.entry true ((s.cfg.groupSaggar i).getD sag) 0x01 i)
  | 0x0B => s.globalRecord
  | 0x0C => leBytes 4 (s.genAt i).toNat
  | 0x0D => kaccRecord (s.kacc i)
  | 0x0E => [failedByte s.kiln.failedLeaves i]
  | _ => []

/-- An entry of an item that a snapshot has copied. -/
def Snapshot.item (x : Snapshot) (s : State) (item i : Nat) : List Byte :=
  match item with
  | 0x02 => leBytes 4 x.timing.toNat
  | 0x06 => leBytes 2 (tget 0 x.nodes i).toNat
  | 0x07 => tget (pyroBytes {}) x.pyro i
  | 0x0C => leBytes 4 (if i = 0 then x.globalGen else tget 0 x.sagGens (i - 1)).toNat
  | 0x0D => kaccRecord (tget {} x.kaccs i)
  | 0x0E => [failedByte x.failed i]
  | 0x0F => leBytes 48 (x.entries.getD i 0).toNat
  | _ => s.item 0 item i

/-- Whether an item read by generation is stale: the generations of the sets it is formed from have moved on (R448). The group entries of
`all` saggars lie where the global set's quotas put them. -/
def State.staleItem (s : State) (x : Snapshot) (all : Bool) (sag item : Nat) : Bool :=
  let glob := s.cfg.activeGen != x.globalGen
  let moved (k : Nat) : Bool := (s.cfg.sag k).activeGen != tget 0 x.sagGens k
  match item with
  | 0x03 | 0x04 | 0x05 | 0x0B => glob
  | 0x09 => glob || moved sag
  | 0x0A => if all then glob || s.cfg.saggars.any (fun e => moved e.1) || x.sagGens.any (fun e => moved e.1) else moved sag
  | _ => false

/-- The indices that a request may read of an item: first, end. -/
def State.itemSpan (s : State) (q : Req) (snap : Option Snapshot) (item : Nat) : Nat × Nat :=
  match item, snap with
  | 0x0F, some x => (0, x.entries.length)
  | 0x0A, _ => if q.glob then (0, 65536) else (qGroupBase (s.cfg.quota q.saggar), qGroupBase (s.cfg.quota q.saggar) + qGroupCount (s.cfg.quota q.saggar))
  | _, _ => (0, (itemShape item).elim 0 (·.2))

/-- The owner of a kiln accumulator as the read sees it. -/
def State.kaccOwner (s : State) (snap : Option Snapshot) (i : Nat) : Option Nat :=
  match snap with
  | some x => (tget ({} : KAcc) x.kaccs i).ownerNow
  | none => (s.kacc i).ownerNow

/-- What refuses an item for want of permission: error and detail. -/
def State.itemDenied (s : State) (q : Req) (snap : Option Snapshot) (item : Nat) : Option (Nat × Nat) :=
  let own := (s.denied q .ownerOrPriv).map (fun d => (erDenied, d))
  let priv := s.asPriv q
  let bad (b : Bool) : Option (Nat × Nat) := if !priv && b then some (erDenied, 2) else none
  match item with
  | 0x09 => own.or (if q.glob then some (erInvalid, 10) else if !(s.cfg.sag q.saggar).inUse then some (erNotFound, 0) else none)
  | 0x0A => own.or (if !q.glob && !(s.cfg.sag q.saggar).inUse then some (erNotFound, 0) else none)
  | 0x0D => own.or (bad ((upFrom (q.num 4 4) (min (q.num 8 4) (256 - q.num 4 4))).any (fun i => s.kaccOwner snap i != some q.saggar)))
  | 0x0F => own.or (bad (snap.any (fun x => x.saggar != some q.saggar)))
  | _ => none

/-- STATE_READ's own part. -/
def runStateRead (s : State) (q : Req) : Reply :=
  let item := q.num 0 2
  let id := q.num 2 1
  let snap := if id = 0 then none else s.ctl.snaps.find? (fun x => x.port == q.port && x.id == id)
  if id != 0 && snap.isNone then .refuse s erNotFound 0
  else match itemShape item with
  | none => .refuse s erInvalid 32
  | some (size, _) =>
    if (item == 0x08 && snap.isSome) || (item == 0x0F && snap.isNone) then .refuse s erInvalid 32
    else match s.itemDenied q snap item with
    | some (err, d) => .refuse s err d
    | none =>
      let (lo, hi) := s.itemSpan q snap item
      let first := q.num 4 4
      if snap.any (fun x => s.staleItem x q.glob q.saggar item) then .refuse s erSnapshotStale 0
      else if first < lo || (hi ≤ first && !(item == 0x0F && first == 0)) then .refuse s erInvalid 36
      else listReply s item first (q.num 8 4) hi size (fun i =>
        match snap with
        | some x => if item == 0x09 || item == 0x0A then s.item q.saggar item i else x.item s item i
        | none => s.item q.saggar item i)

/-- STATE_READ. -/
def execStateRead (port : Nat) (s : State) : Host.Outcome State Fault Refusal := .next (s.command port 0x0201 runStateRead)

/-! ### Firing records (Table 13.14) -/

/-- The state code of a firing record. -/
def FireState.code : FireState → Nat
  | .arming => 1 | .armed => 2 | .granted => 3 | .ended => 4

/-- Whether a firing has been granted. -/
def Firing.wasGranted (f : Firing) : Bool := f.fn != 0

/-- The record of a firing. -/
def State.firingRecord (s : State) (f : Firing) : BitVec 384 :=
  let g := f.wasGranted
  let word := f.grant
  BitVec.ofNat 384 (at' (if g then f.ts.toNat else 0) 320 + at' (if f.service then f.coneEnd.toNat else 2 ^ 64 - 1) 256
    + at' (if f.st == .arming then s.missingRank f % 2 ^ 16 else 0xFFFF) 240
    + at' ((f.leaves.filter (s.leafArmed f)).length % 2 ^ 16) 224 + at' (f.leaves.length % 2 ^ 16) 208
    + at' (f.endMsg.elim 0 (fun e => e.status.toNat)) 200 + at' f.st.code 192 + at' f.fn.toNat 144 + at' f.seq.toNat 112
    + at' (f.group % 2 ^ 20) 92 + at' (if g then word.setter.toNat else 0) 82 + at' (if g then word.planes.toNat else 0) 78
    + at' (b2n f.latency) 77 + at' word.attempt.toNat 75 + at' (min 2047 (f.deals.length - 1)) 64)

/-- The firing that a request selects: by its number, or by group and sequence, of the latest incarnation. -/
def State.selected (s : State) (q : Req) : Option Firing :=
  if q.num 0 1 = 0 then s.kiln.firings.find? (fun f => f.wasGranted && f.fn.toNat == q.num 8 6)
  else s.kiln.firings.reverse.find? (fun f => f.group == q.num 16 4 && f.seq.toNat == q.num 20 4)

/-- A selected firing that the request may see, or the refusal. -/
def State.mayFiring (s : State) (q : Req) : Except (Nat × Nat) Firing :=
  if 1 < q.num 0 1 then .error (erInvalid, 32)
  else match s.selected q with
  | none => .error (erNotFound, 0)
  | some f => if !s.asPriv q && f.saggar != q.saggar then .error (erDenied, 2) else .ok f

/-- FIRING_QUERY's own part. -/
def runFiringQuery (s : State) (q : Req) : Reply :=
  match s.mayFiring q with
  | .error (err, d) => .refuse s err d
  | .ok f => .ok s (leBytes 48 (s.firingRecord f).toNat) false

/-- FIRING_QUERY. -/
def execFiringQuery (port : Nat) (s : State) : Host.Outcome State Fault Refusal := .next (s.command port 0x0301 runFiringQuery)

/-- The status of an end already decided. -/
def Firing.decided (f : Firing) : Option (BitVec 8) :=
  match f.endMsg with
  | some e => some e.status
  | none => f.cause.map (·.1)

/-- FIRING_ABORT's own part (R318, R319). -/
def runFiringAbort (s : State) (q : Req) : Reply :=
  match s.mayFiring q with
  | .error (err, d) => .refuse s err d
  | .ok f => match f.decided with
    | some st => .refuse s erAlreadyEnded st.toNat
    | none => .ok ((s.decideEnd f.uid stAborted 0xFFFF 0).afterEnd f.group) (leBytes 8 0 ++ leBytes 6 f.fn.toNat) true

/-- FIRING_ABORT. -/
def execFiringAbort (port : Nat) (s : State) : Host.Outcome State Fault Refusal := .next (s.command port 0x0302 runFiringAbort)

/-! ### Snapshots (R447, R448) -/

/-- A snapshot of a scope as it stands. -/
def State.cut (s : State) (id port : Nat) (scope : Option Nat) : Snapshot :=
  let fs := s.kiln.firings.filter (fun f => scope.all (fun k => f.saggar == k))
  let ixs := (s.nodes.map (·.1)) ++ (s.ctls.map (·.1))
  { id := id, port := port, saggar := scope, time := s.time, globalGen := s.cfg.activeGen
    sagGens := s.cfg.saggars.foldl (fun t e => tset 0 t e.1 e.2.activeGen) []
    entries := (fs.take 2048).map s.firingRecord, timing := timingStatus s
    nodes := ixs.foldl (fun t i => tset 0 t i (nodeStatus (s.stat i))) []
    pyro := (List.range s.n).foldl (fun t d => tset (pyroBytes {}) t d (pyroBytes (s.die d))) []
    kaccs := s.kiln.kaccs, failed := s.kiln.failedLeaves }

/-- SNAPSHOT's own part. -/
def runSnapshot (s : State) (q : Req) : Reply :=
  let others := s.ctl.snaps.filter (fun x => x.port != q.port)
  if 2 ≤ others.length then .refuse s erBusy 6
  else
    let id := ((List.range 4).map (· + 1)).find? (fun i => !others.any (fun x => x.id == i))
    let scope := if q.glob then none else some q.saggar
    let x := s.cut (id.getD 1) q.port scope
    let all := (s.kiln.firings.filter (fun f => scope.all (fun k => f.saggar == k))).length
    .ok (s.modCtlr (fun c => { c with snaps := others ++ [x] }))
      (leBytes 8 x.id ++ leBytes 8 x.time.toNat ++ leBytes 4 x.globalGen.toNat
        ++ leBytes 4 (scope.elim 0 (fun k => (s.cfg.sag k).activeGen.toNat)) ++ leBytes 4 x.entries.length ++ leBytes 1 (b2n (decide (2048 < all)))) true

/-- SNAPSHOT. -/
def execSnapshot (port : Nat) (s : State) : Host.Outcome State Fault Refusal := .next (s.command port 0x0202 runSnapshot)

/-- SNAPSHOT_RELEASE's own part. -/
def runSnapshotRelease (s : State) (q : Req) : Reply :=
  let mine (x : Snapshot) : Bool := x.port == q.port && x.id == q.num 0 1
  if s.ctl.snaps.any mine then .ok (s.modCtlr (fun c => { c with snaps := c.snaps.filter (fun x => !mine x) })) [] true
  else .refuse s erNotFound 0

/-- SNAPSHOT_RELEASE. -/
def execSnapshotRelease (port : Nat) (s : State) : Host.Outcome State Fault Refusal := .next (s.command port 0x0203 runSnapshotRelease)

/-! ### Counters (R449, Tables 9.6 and 12.6) -/

/-- What a counter is kept per. -/
inductive CounterKind where
  | leaf | group | node | link | bridge | sram | die | block
deriving DecidableEq, Repr

/-- The kind of a counter code; none for a reserved one. -/
def counterKind (code : Nat) : Option CounterKind :=
  match code with
  | 0x0901 | 0x0902 | 0x0903 | 0x0904 => some .leaf
  | 0x0905 => some .group
  | 0x0A01 | 0x0A02 | 0x0A03 => some .die
  | 0x0C01 => some .link
  | 0x0C02 | 0x0C03 | 0x0C04 => some .bridge
  | 0x0C05 | 0x0C06 | 0x0C09 => some .node
  | 0x0C07 | 0x0C08 => some .sram
  | 0x0C0A => some .block
  | 0x0C0B => some .leaf
  | _ => none

/-- The end of the index range that an index lies in; none outside. A leaf port's and a copy's SECDED counters have the index ranges of
the model's choice (assumption log 21). -/
def CounterKind.hi (k : CounterKind) (first : Nat) : Option Nat :=
  let upTo (lo hi : Nat) : Option Nat := if lo ≤ first ∧ first < hi then some hi else none
  match k with
  | .leaf => upTo 0 8192
  | .group => upTo 0 65536
  | .node => upTo 0 4360
  | .link => (upTo 8 4360).or (upTo 0x80000000 0x80010000)
  | .bridge => upTo 8 264
  | .sram => ((upTo 0 4360).or (upTo 0x80000000 0x80002000)).or (upTo 0xC0000000 0xC0000002)
  | .die => upTo 0 32
  | .block => upTo 0 1

/-- Whether an index of a leaf or group counter is the requester's saggar's. -/
def State.mineCounter (s : State) (k : CounterKind) (sag i : Nat) : Bool :=
  match k with
  | .leaf => (s.cfg.active.leafSaggars i).contains sag
  | .group =>
    let quota := s.cfg.quota sag
    decide (qGroupBase quota ≤ i) && decide (i < qGroupBase quota + qGroupCount quota)
  | .sram => decide (i < 0x80000000) || decide (0xC0000000 ≤ i) || (s.cfg.active.leafSaggars (i - 0x80000000)).contains sag
  | _ => true

/-- Whether a counter needs Owner or Priv at an index. -/
def CounterKind.owned (k : CounterKind) (first : Nat) : Bool :=
  k == .leaf || k == .group || (k == .sram && decide (0x80000000 ≤ first) && decide (first < 0xC0000000))

/-- The 8 bytes of a counter. A pair has its first in bytes 0 to 3 and its second in bytes 4 to 5. -/
def State.counter (s : State) (code i : Nat) : Nat :=
  let p := s.leaf i
  let n := s.stat i
  let x := s.link i
  match code with
  | 0x0901 => p.armLast.toNat
  | 0x0902 => p.lagSum.toNat
  | 0x0903 => p.lagMax.toNat
  | 0x0904 => p.missing.toNat
  | 0x0905 => (s.groupRun i).slowLag.toNat + at' (s.groupRun i).slowRank.toNat 32
  | 0x0A01 => (s.die i).passes.toNat
  | 0x0A02 => (s.die i).missed.toNat
  | 0x0A03 => (s.die i).holds.toNat
  | 0x0C01 => x.crcErr.toNat
  | 0x0C02 => x.retries.toNat
  | 0x0C03 => x.nakRepeat.toNat
  | 0x0C04 => x.replayed.toNat
  | 0x0C05 => n.residueA.toNat + at' n.residueB.toNat 32
  | 0x0C06 => n.miscompare.toNat
  | 0x0C07 =>
    if i < 0x80000000 then n.sramCorr.toNat
    else if i < 0xC0000000 then (s.leaf (i - 0x80000000)).sramCorr.toNat
    else if i = 0xC0000000 then s.cfg.corrA.toNat else s.cfg.corrB.toNat
  | 0x0C08 =>
    if i < 0x80000000 then n.sramUncorr.toNat
    else if i < 0xC0000000 then (s.leaf (i - 0x80000000)).sramUncorr.toNat
    else if i = 0xC0000000 then s.cfg.uncorrA.toNat else s.cfg.uncorrB.toNat
  | 0x0C09 => n.stray.toNat
  | 0x0C0A => s.kiln.redeals.toNat
  | 0x0C0B => p.poisonFlits.toNat
  | _ => 0

/-- A counter set to zero. -/
def State.zeroCounter (s : State) (code i : Nat) : State :=
  match code with
  | 0x0901 => s.modLeaf i (fun p => { p with armLast := 0 })
  | 0x0902 => s.modLeaf i (fun p => { p with lagSum := 0 })
  | 0x0903 => s.modLeaf i (fun p => { p with lagMax := 0 })
  | 0x0904 => s.modLeaf i (fun p => { p with missing := 0 })
  | 0x0905 => s.modGroup i (fun g => { g with slowLag := 0, slowRank := 0 })
  | 0x0A01 => s.modDie i (fun d => { d with passes := 0 })
  | 0x0A02 => s.modDie i (fun d => { d with missed := 0 })
  | 0x0A03 => s.modDie i (fun d => { d with holds := 0 })
  | 0x0C01 => s.modLink i (fun k => { k with crcErr := 0 })
  | 0x0C02 => s.modLink i (fun k => { k with retries := 0 })
  | 0x0C03 => s.modLink i (fun k => { k with nakRepeat := 0 })
  | 0x0C04 => s.modLink i (fun k => { k with replayed := 0 })
  | 0x0C05 => s.modStat i (fun n => { n with residueA := 0, residueB := 0 })
  | 0x0C06 => s.modStat i (fun n => { n with miscompare := 0 })
  | 0x0C07 =>
    if i < 0x80000000 then s.modStat i (fun n => { n with sramCorr := 0 })
    else if i < 0xC0000000 then s.modLeaf (i - 0x80000000) (fun p => { p with sramCorr := 0 })
    else s.modCfg (fun c => if i = 0xC0000000 then { c with corrA := 0 } else { c with corrB := 0 })
  | 0x0C08 =>
    if i < 0x80000000 then s.modStat i (fun n => { n with sramUncorr := 0 })
    else if i < 0xC0000000 then s.modLeaf (i - 0x80000000) (fun p => { p with sramUncorr := 0 })
    else s.modCfg (fun c => if i = 0xC0000000 then { c with uncorrA := 0 } else { c with uncorrB := 0 })
  | 0x0C09 => s.modStat i (fun n => { n with stray := 0 })
  | 0x0C0A => s.modKiln (fun k => { k with redeals := 0 })
  | 0x0C0B => s.modLeaf i (fun p => { p with poisonFlits := 0 })
  | _ => s

/-- COUNTER_READ's own part. -/
def runCounterRead (s : State) (q : Req) : Reply :=
  let code := q.num 0 2
  let first := q.num 4 4
  match counterKind code with
  | none => .refuse s erInvalid 32
  | some k => match k.hi first with
    | none => .refuse s erInvalid 36
    | some hi =>
      let ixs := upFrom first (runOf first (q.num 8 4) hi 8 4048).1
      let own := if k.owned first then s.denied q .ownerOrPriv else none
      if 1 < q.num 12 1 then .refuse s erInvalid 44
      else match own with
      | some d => .refuse s erDenied d
      | none =>
        if k.owned first && !s.asPriv q && !ixs.all (s.mineCounter k q.saggar) then .refuse s erDenied 2
        else
          let r := listReply s code first (q.num 8 4) hi 8 (fun i => leBytes 8 (s.counter code i))
          if q.num 12 1 = 1 then { r with st := ixs.foldl (fun a i => a.zeroCounter code i) s, effect := true } else r

/-- COUNTER_READ. -/
def execCounterRead (port : Nat) (s : State) : Host.Outcome State Fault Refusal := .next (s.command port 0x0401 runCounterRead)

/-! ### Digest accumulators and keys (R366, R374 to R378) -/

/-- The entry of Table 11.5. -/
def DigestAcc.entry (a : DigestAcc) : List Byte :=
  leBytes 32 (at' a.prov.toNat 192 + at' a.sum.toNat 128 + at' a.firings.toNat 80 + at' a.tag.toNat 64 + at' a.fails.toNat 48
    + at' a.poisons.toNat 32 + at' a.saggar.toNat 20 + at' (b2n a.sat) 1 + b2n a.isOpen)

/-- The open accumulator of a saggar under a tag. -/
def State.digestUnder (s : State) (sag tag : Nat) : Option (Nat × DigestAcc) :=
  s.kiln.digests.find? (fun e => e.2.isOpen && e.2.saggar.toNat == sag && e.2.tag.toNat == tag)

/-- DIGEST_OPEN's own part: the lowest accumulator that is not open (R374). -/
def runDigestOpen (s : State) (q : Req) : Reply :=
  let tag := q.num 0 2
  if tag = 0xFFFF || (s.digestUnder q.saggar tag).isSome then .refuse s erInvalid 32
  else if qDigest (s.cfg.quota q.saggar) ≤ s.kiln.openDigests q.saggar then .refuse s erLimit 0
  else match (List.range 4096).find? (fun i => !(tget ({} : DigestAcc) s.kiln.digests i).isOpen) with
  | none => .refuse s erLimit 0
  | some i =>
    .ok (s.modKiln (fun k => { k with
      openings := k.openings + 1
      digests := tset {} k.digests i { prov := BitVec.ofNat 64 (q.num 8 8), tag := BitVec.ofNat 16 tag, saggar := BitVec.ofNat 12 q.saggar,
                                       isOpen := true, opening := k.openings + 1 } })) [] true

/-- DIGEST_OPEN. -/
def execDigestOpen (port : Nat) (s : State) : Host.Outcome State Fault Refusal := .next (s.command port 0x0501 runDigestOpen)

/-- An accumulator restarted (R377). -/
def DigestAcc.restart (a : DigestAcc) : DigestAcc := { a with sum := 0, firings := 0, fails := 0, poisons := 0, sat := false }

/-- DIGEST_READ's own part. -/
def runDigestRead (s : State) (q : Req) : Reply :=
  if 1 < q.num 2 1 then .refuse s erInvalid 34
  else match s.digestUnder q.saggar (q.num 0 2) with
  | none => .refuse s erNotFound 0
  | some (i, a) =>
    if q.num 2 1 = 1 then .ok (s.modKiln (fun k => { k with digests := tmod {} k.digests i DigestAcc.restart })) a.entry true
    else .ok s a.entry false

/-- DIGEST_READ. -/
def execDigestRead (port : Nat) (s : State) : Host.Outcome State Fault Refusal := .next (s.command port 0x0502 runDigestRead)

/-- DIGEST_CLOSE's own part. -/
def runDigestClose (s : State) (q : Req) : Reply :=
  match s.digestUnder q.saggar (q.num 0 2) with
  | none => .refuse s erNotFound 0
  | some (i, a) => .ok (s.modKiln (fun k => { k with digests := tset {} k.digests i {} })) a.entry true

/-- DIGEST_CLOSE. -/
def execDigestClose (port : Nat) (s : State) : Host.Outcome State Fault Refusal := .next (s.command port 0x0503 runDigestClose)

/-- KEY_READ's own part. -/
def runKeyRead (s : State) (_ : Req) : Reply :=
  .ok s (leBytes 8 s.cfg.reproKey.toNat ++ leBytes 8 s.cfg.exactKey.toNat ++ leBytes 8 s.cfg.shape.toNat ++ leBytes 4 s.cfg.activeGen.toNat
    ++ padTo 16 (reproImage s) ++ exactImage) false

/-- KEY_READ. -/
def execKeyRead (port : Nat) (s : State) : Host.Outcome State Fault Refusal := .next (s.command port 0x0504 runKeyRead)

/-! ### Energy, events, logs -/

/-- ENERGY_READ's own part. -/
def runEnergyRead (s : State) (q : Req) : Reply :=
  if 32 ≤ q.num 0 1 then .refuse s erInvalid 32 else .ok s (leBytes 32 (s.governorRecord (q.num 0 1)).toNat) false

/-- ENERGY_READ. -/
def execEnergyRead (port : Nat) (s : State) : Host.Outcome State Fault Refusal := .next (s.command port 0x0801 runEnergyRead)

/-- EVENT_SUBSCRIBE's own part: bits of reserved classes are dropped. A session of minor 0 or 1 may set the bit of class 0x06; its
queue still receives no such record (R440). -/
def runEventSubscribe (s : State) (q : Req) : Reply :=
  let mask := BitVec.ofNat 32 (q.num 0 4) &&& 0x7E
  .ok (s.modPort q.port (fun x => { x with mask := mask })) (leBytes 4 mask.toNat) true

/-- EVENT_SUBSCRIBE. -/
def execEventSubscribe (port : Nat) (s : State) : Host.Outcome State Fault Refusal := .next (s.command port 0x0802 runEventSubscribe)

/-- EVENT_READ's own part (R453). -/
def runEventRead (s : State) (q : Req) : Reply :=
  let most := q.num 0 1
  if most < 1 || 101 < most then .refuse s erInvalid 32
  else
    let x := s.port q.port
    let rs := x.evq.take most
    { st := s.modPort q.port (fun y => { y with evq := y.evq.drop most, evLost := 0 }), more := decide (most < x.evq.length), effect := true,
      data := leBytes 4 x.evLost.toNat ++ leBytes 4 rs.length ++ (rs.map (fun r => leBytes 40 r.toNat)).flatten }

/-- EVENT_READ. -/
def execEventRead (port : Nat) (s : State) : Host.Outcome State Fault Refusal := .next (s.command port 0x0803 runEventRead)

/-- FAULT_LOG_READ's own part. -/
def runFaultLogRead (s : State) (q : Req) : Reply :=
  let rest := s.faultLog.drop (q.num 0 2)
  let rs := rest.take 126
  { st := s, more := decide (126 < rest.length),
    data := leBytes 4 rs.length ++ leBytes 4 s.faultLog.length ++ (rs.map (fun r => leBytes 32 r.toNat)).flatten }

/-- FAULT_LOG_READ. -/
def execFaultLogRead (port : Nat) (s : State) : Host.Outcome State Fault Refusal := .next (s.command port 0x0804 runFaultLogRead)

/-- CONTROLLER_LOG_READ's own part (R465). -/
def runControllerLogRead (s : State) (_ : Req) : Reply := .ok s (leBytes 8 s.ctl.log.length ++ s.ctl.log.flatten) false

/-- CONTROLLER_LOG_READ. -/
def execControllerLogRead (port : Nat) (s : State) : Host.Outcome State Fault Refusal := .next (s.command port 0x0807 runControllerLogRead)

/-- MAINT_STATUS's own part. -/
def runMaintStatus (s : State) (_ : Req) : Reply :=
  let entry (a : Activity) : List Byte :=
    leBytes 1 a.code ++ leBytes 1 (b2n a.queued) ++ leBytes 1 a.port ++ leBytes 1 a.dieCode ++ leBytes 4 a.tag.toNat ++ leBytes 8 a.start.toNat
  let as := s.ctl.acts.take 253
  { st := s, more := decide (253 < s.ctl.acts.length), data := leBytes 8 as.length ++ (as.map entry).flatten }

/-- MAINT_STATUS. -/
def execMaintStatus (port : Nat) (s : State) : Host.Outcome State Fault Refusal := .next (s.command port 0x060A runMaintStatus)

/-! ### Accumulators (R183, R454) -/

/-- State, mode and contents of an exact accumulator: 0 HELD, 1 EMPTY, 2 NEVER_WRITTEN. -/
def exactDebug (st : Nat) (x : Sherd) : List Byte := leBytes 1 st ++ leBytes 7 1 ++ sherdBytes x.whole

/-- A bisque accumulator under debug. -/
def Bisque.debug (b : Bisque) : List Byte :=
  match b.st with
  | .neverWritten => exactDebug 2 {}
  | .empty => exactDebug 1 {}
  | .held => exactDebug 0 b.val

/-- An entry of a POSITION stack: its span and its value. -/
def stackEntry (a : Arith) (e : Nat × Elem) : List Byte := leBytes 8 e.1 ++ padTo 24 (partialBytes a (some e.2))

/-- An element of a kiln accumulator under debug. An exact element of several sherds gives its first. -/
def KAcc.debug (k : KAcc) (element : Nat) : List Byte :=
  let st := k.elems.getD element []
  let code := if !k.written then 2 else if st.isEmpty then 1 else 0
  if k.exact then exactDebug code ((st.head?.bind (fun e => e.2.sh.head?)).getD {})
  else
    let es := if k.written then st else []
    leBytes 8 code ++ leBytes 8 es.length ++ (es.map (stackEntry { op := k.op, inF := k.inFmt, tan := k.tanLog2 })).flatten

/-- DEBUG_ACC_READ's own part. -/
def runDebugAccRead (s : State) (q : Req) : Reply :=
  let i := q.num 4 1
  if 1 < q.num 0 1 then .refuse s erInvalid 32
  else if q.num 0 1 = 0 then
    let l := q.num 2 2
    if !s.leafExists l then .refuse s erInvalid 34
    else if 4 ≤ i then .refuse s erInvalid 36
    else
      let b := tget {} (s.leaf l).bisque i
      if !b.tags.isEmpty then .refuse s erBusy 5 else .ok s b.debug false
  else if 64 ≤ q.num 5 1 then .refuse s erInvalid 37
  else
    let k := s.kacc i
    if k.holder.isSome then .refuse s erBusy 5 else .ok s (k.debug (q.num 5 1)) false

/-- DEBUG_ACC_READ. -/
def execDebugAccRead (port : Nat) (s : State) : Host.Outcome State Fault Refusal := .next (s.command port 0x0805 runDebugAccRead)

end Sys2Proof.Machine
end

