-- ==== Sys2Proof/Machine/Maint.lean ====
section
/-! DEFINITION. The commands that start maintenance activities (R443, R445, R568 to R580): what each refuses and which activity it
adds. -/

namespace Sys2Proof.Machine
open Sys2Proof

/-- The activity that a request asks for. -/
def Req.act (q : Req) (code target twin : Nat) (dies : List Nat) (kiln : Bool) : Activity :=
  { id := 0, code := code, target := target, twin := twin, dies := dies, kiln := kiln, port := q.port, tag := q.tag, start := 0, queued := false }

/-- The reply of a maintenance start: 0 started, 1 queued (R445, R569). -/
def State.startReply (s : State) (a : Activity) : Reply :=
  match s.admitAct a with
  | none => .refuse s erBusy 4
  | some (t, queued) => .ok t.offer (leBytes 1 (b2n queued)) true

/-- The die slots of a mask. -/
def maskDies (m : Nat) : List Nat := (List.range 32).filter (fun d => bitOf m d)

/-- Whether a die slot mask names at least one die slot and no unbuilt one. -/
def State.maskOk (s : State) (m : Nat) : Bool := !(maskDies m).isEmpty && (maskDies m).all (fun d => decide (d < s.n))

/-! ### Calibration and scrub -/

/-- One activity for each die slot in turn; none when one is refused. -/
def State.admitAll (s : State) : List Activity → Option (State × Bool)
  | [] => some (s, false)
  | a :: rest => match s.admitAct a with
    | none => none
    | some (t, queued) => match State.admitAll t rest with
      | none => none
      | some (u, more) => some (u, queued || more)

/-- CALIBRATE's own part: byte 0 is 0 only when every die slot started (R568). -/
def runCalibrate (s : State) (q : Req) : Reply :=
  if !s.maskOk (q.num 0 4) then .refuse s erInvalid 32
  else match s.admitAll ((maskDies (q.num 0 4)).map (fun d => q.act 0x01 d 0 [d] false)) with
  | none => .refuse s erBusy 4
  | some (t, queued) => .ok t (leBytes 1 (b2n queued)) true

/-- CALIBRATE. -/
def execCalibrate (port : Nat) (s : State) : Host.Outcome State Fault Refusal := .next (s.command port 0x0601 runCalibrate)

/-- SCRUB's own part. -/
def runScrub (s : State) (q : Req) : Reply := s.startReply (q.act 0x02 0 0 [] false)

/-- SCRUB. -/
def execScrub (port : Nat) (s : State) : Host.Outcome State Fault Refusal := .next (s.command port 0x0602 runScrub)

/-! ### Twins and pairs (R572 to R574) -/

/-- Whether a number is the node index of a built node position (R446). -/
def State.nodeIndexOk (s : State) (ix : Nat) : Bool :=
  decide (ix < 4360) && s.nodeBuilt (qOf ix) && (ix / 4 % 2 == 0 || ix % 4 == 0)

/-- The activity on a node: its die slice, or the kiln. -/
def Req.nodeAct (q : Req) (code : Nat) : Activity :=
  let ix := q.num 0 4
  let d := if qOf ix < 33 then qOf ix - 1 else (qOf ix - 33) / 16
  q.act code ix (q.num 4 1) (if qOf ix = 0 then [] else [d]) (qOf ix == 0)

/-- Whether a twin is named whose sibling is out. -/
def State.siblingOut (s : State) (ix sel : Nat) : Bool :=
  match twinsOf sel with
  | [t] => (s.stat ix).isOut t.sibling
  | _ => false

/-- What refuses a command on a node for its operands: the offset. -/
def State.badNode (s : State) (q : Req) : Option Nat :=
  if !s.nodeIndexOk (q.num 0 4) then some 32 else if q.num 4 1 < 1 || 3 < q.num 4 1 then some 36 else none

/-- SELF_TEST's own part. -/
def runSelfTest (s : State) (q : Req) : Reply :=
  match s.badNode q with
  | some d => .refuse s erInvalid d
  | none =>
    let ix := q.num 0 4
    if s.siblingOut ix (q.num 4 1) || (q.num 4 1 == 3 && !(s.stat ix).pairOut) then .refuse s erInvalid 36
    else s.startReply (q.nodeAct 0x03)

/-- SELF_TEST. -/
def execSelfTest (port : Nat) (s : State) : Host.Outcome State Fault Refusal := .next (s.command port 0x0603 runSelfTest)

/-- NODE_OFFLINE's own part. -/
def runNodeOffline (s : State) (q : Req) : Reply :=
  match s.badNode q with
  | some d => .refuse s erInvalid d
  | none =>
    let ix := q.num 0 4
    if s.siblingOut ix (q.num 4 1) || (q.num 4 1 == 3 && ix / 4 % 2 == 1) then .refuse s erInvalid 36
    else s.startReply (q.nodeAct 0x04)

/-- NODE_OFFLINE. -/
def execNodeOffline (port : Nat) (s : State) : Host.Outcome State Fault Refusal := .next (s.command port 0x0604 runNodeOffline)

/-- NODE_ONLINE's own part. Every twin that is out is tested, whichever the request names. -/
def runNodeOnline (s : State) (q : Req) : Reply :=
  match s.badNode q with
  | some d => .refuse s erInvalid d
  | none => s.startReply (q.nodeAct 0x05)

/-- NODE_ONLINE. -/
def execNodeOnline (port : Nat) (s : State) : Host.Outcome State Fault Refusal := .next (s.command port 0x0605 runNodeOnline)

/-! ### Planes (R575, R576) -/

/-- The activity on a plane in the die slices of a mask; with every built die slot the kiln's pair is of it too. -/
def State.planeAct (s : State) (q : Req) (code : Nat) : Activity :=
  let ds := maskDies (q.num 4 4)
  q.act code (q.num 0 1) 0 ds (decide (ds.length = s.n))

/-- What refuses a command on a plane for its operands. -/
def State.badPlane (s : State) (q : Req) : Option Nat :=
  if 3 < q.num 0 1 then some 32 else if !s.maskOk (q.num 4 4) then some 36 else none

/-- Whether a plane is the only one in service for some leaf of some die slices. -/
def State.onlyPlane (s : State) (p : Nat) (ds : List Nat) : Bool :=
  ds.any (fun d => (dieLeaves d).any (fun l => s.pathUp l p && (List.range 4).all (fun x => x == p || !s.pathUp l x)))

/-- PLANE_OFFLINE's own part. -/
def runPlaneOffline (s : State) (q : Req) : Reply :=
  match s.badPlane q with
  | some d => .refuse s erInvalid d
  | none =>
    if s.onlyPlane (q.num 0 1) (maskDies (q.num 4 4)) then .refuse s erInvalid 32 else s.startReply (s.planeAct q 0x06)

/-- PLANE_OFFLINE. -/
def execPlaneOffline (port : Nat) (s : State) : Host.Outcome State Fault Refusal := .next (s.command port 0x0606 runPlaneOffline)

/-- PLANE_ONLINE's own part. -/
def runPlaneOnline (s : State) (q : Req) : Reply :=
  match s.badPlane q with
  | some d => .refuse s erInvalid d
  | none => s.startReply (s.planeAct q 0x07)

/-- PLANE_ONLINE. -/
def execPlaneOnline (port : Nat) (s : State) : Host.Outcome State Fault Refusal := .next (s.command port 0x0607 runPlaneOnline)

/-! ### Leaves (R577, R578) -/

/-- A command on a leaf. -/
def runOnLeaf (code : Nat) (s : State) (q : Req) : Reply :=
  let l := q.num 0 2
  if !s.leafExists l then .refuse s erInvalid 32 else s.startReply (q.act code l 0 [l / 256] false)

/-- LEAF_OFFLINE. -/
def execLeafOffline (port : Nat) (s : State) : Host.Outcome State Fault Refusal := .next (s.command port 0x0608 (runOnLeaf 0x08))

/-- LEAF_ONLINE. -/
def execLeafOnline (port : Nat) (s : State) : Host.Outcome State Fault Refusal := .next (s.command port 0x0609 (runOnLeaf 0x09))

end Sys2Proof.Machine
end

