-- ==== Sys2Proof/Machine/Firmware.lean ====
section
/-! DEFINITION. Firmware banks and activation (R455 to R460), background commands (R426), and the controller's exception path (R428, R461
to R466, R518). -/

namespace Sys2Proof.Machine
open Sys2Proof

/-! ### Banks -/

/-- The inactive bank: the one that the boot store does not record as active, also while its image serves its first 100 ms (R459). -/
def Controller.spare (c : Controller) : Bank := c.bank (!c.activeB)

/-- Changes the inactive bank. -/
def Controller.modSpare (c : Controller) (f : Bank → Bank) : Controller := c.modBank (!c.activeB) f

/-- The state code of a bank (Table 13.12). -/
def BankState.code : BankState → Nat
  | .empty => 0 | .staged => 1 | .verified => 2 | .active => 3 | .failed => 4

/-- A bank in FW_STATUS. -/
def Bank.status (b : Bank) : List Byte :=
  leBytes 1 b.st.code ++ [b.major, b.minor, 0] ++ leBytes 2 b.patch.toNat ++ leBytes 2 b.secVer.toNat ++ leBytes 8 0

/-- FW_STATUS's own part. -/
def runFwStatus (s : State) (_ : Req) : Reply :=
  .ok s (s.ctl.bankA.status ++ s.ctl.bankB.status ++ leBytes 1 (b2n s.ctl.activeB)) false

/-- FW_STATUS. -/
def execFwStatus (port : Nat) (s : State) : Host.Outcome State Fault Refusal := .next (s.command port 0x0704 runFwStatus)

/-! ### Background commands (R426) -/

/-- The reply of a background command: its response waits for BACKGROUND_COMMAND_DONE. -/
def Reply.background (s : State) (q : Req) (err detail : Nat) (data : List Byte) : Reply :=
  let bytes := responseBytes (s.port q.port).version q.code q.tag err detail false data
  { st := s.modCtlr (fun c => { c with background := some (q.port, q.tag, bytes) }), err := err, effect := true, later := true }

/-- FW_STAGE's own part (R457). A data length of 0, outside the range of Table 13.12, is an operand out of range (assumption log 103). -/
def runFwStage (s : State) (q : Req) : Reply :=
  if s.ctl.background.isSome then .refuse s erBusy 7
  else if q.num 4 2 == 0 then .refuse s erInvalid 36
  else if bankSize < q.num 0 4 + q.num 4 2 then .refuse s erInvalid 32
  else
    .background (s.modCtlr (fun c => c.modSpare (fun b =>
      { b with st := .staged, bytes := tsetRun 0 b.bytes (q.num 0 4) (bytesAt q.data 16 (q.num 4 2)) }))) q erOk 0 []

/-- FW_STAGE. -/
def execFwStage (port : Nat) (s : State) : Host.Outcome State Fault Refusal := .next (s.command port 0x0701 runFwStage)

/-- What FW_VERIFY finds wrong with the inactive bank: the detail of SIGNATURE. -/
def Controller.verifyFails (c : Controller) : Option Nat :=
  let img := c.spare.image
  if !imageForm img then some 2
  else if !imageSigned img then some 1
  else if numAt img 10 2 < (c.bank c.activeB).secVer.toNat then some 3
  else none

/-- FW_VERIFY's own part (R457). -/
def runFwVerify (s : State) (q : Req) : Reply :=
  if s.ctl.background.isSome then .refuse s erBusy 7
  else match s.ctl.verifyFails with
  | some d => .background (s.modCtlr (fun c => c.modSpare (fun b => { b with st := .failed }))) q erSignature d []
  | none =>
    let t := s.modCtlr (fun c => c.modSpare (fun b => b.named .verified))
    let b := t.ctl.spare
    .background t q erOk 0 ([b.major, b.minor] ++ leBytes 2 b.patch.toNat ++ leBytes 2 b.secVer.toNat)

/-- FW_VERIFY. -/
def execFwVerify (port : Nat) (s : State) : Host.Outcome State Fault Refusal := .next (s.command port 0x0702 runFwVerify)

/-- BACKGROUND_COMMAND_DONE. -/
def execBackgroundCommandDone (s : State) : Host.Outcome State Fault Refusal :=
  match s.ctl.background with
  | none => .next s
  | some (p, tag, bytes) => .next ((s.modCtlr (fun c => { c with background := none })).modPort p (fun x => x.finish tag bytes))

/-! ### Activation (R458 to R460) -/

/-- The PENDING requests of every port but one are answered BUSY, as the controller stops serving (R427). -/
def State.busyPending (s : State) (but : Option Nat) : State :=
  (List.range 18).foldl (fun a p => if (a.port p).st == .pending && but != some p then a.answerBusy p else a) s

/-- FW_ACTIVATE's own part: the activation starts; nothing that was taken is left to complete, for the controller takes one request
at a time and the matrix and the background check keep the others away. -/
def runFwActivate (s : State) (q : Req) : Reply :=
  let b := s.ctl.spare
  if b.st != .verified then .refuse s erNotVerified 0
  else if b.major.toNat != q.num 0 1 || b.minor.toNat != q.num 1 1 || b.patch.toNat != q.num 2 2 then .refuse s erInvalid 32
  else if s.ctl.background.isSome then .refuse s erBusy 7
  else match s.admitAct (q.act 0x0A 0 0 [] false) with
  | none => .refuse s erBusy 4
  | some (t, _) => .ok ((t.modCtlr (fun c => { c with phase := .switching })).busyPending (some q.port)) [] true

/-- FW_ACTIVATE. -/
def execFwActivate (port : Nat) (s : State) : Host.Outcome State Fault Refusal := .next (s.command port 0x0703 runFwActivate)

/-- What a new or restarted image does not keep (R434, R460): snapshots, L of every port, sessions of a version it does not support. -/
def State.afterRestart (s : State) : State :=
  let c := s.ctl
  let keeps (v : Byte × Byte) : Bool :=
    (c.runMajor == 2 && c.runMinor == 4) || Config.imageSupports c.runMajor c.runMinor c.runPatch v
  let t := s.modCtlr (fun c => { c with snaps := [] })
  (List.range 18).foldl (fun a p => a.modPort p (fun x =>
    { x with lastTag := none, stored := [], session := x.session.filter keeps })) t

/-- The boot store records a bank as active. -/
def Controller.records (c : Controller) (b : Bool) : Controller :=
  { (c.modBank b (fun x => { x with st := .active })).modBank (!b) Bank.demoted with activeB := b, confirm := none }

/-- The running activation is over. -/
def State.endActivation (s : State) (outcome : Nat) : State :=
  match s.ctl.acts.find? (fun a => a.code == 0x0A) with
  | some a => s.endAct a outcome
  | none => s

/-- The MAINT records of abandoned and dropped activities (R463). -/
def State.reportAbandoned (s : State) : State :=
  (s.ctl.abandoned.foldl (fun a x => a.maintEvent x 2) s).modCtlr (fun c => { c with abandoned := [] })

/-- The controller serves after an activation, a restart or the start-up sequence: the activation is over, what was abandoned is
reported, and the queue is examined (R463, R570). -/
def State.servesAgain (s : State) (kind cause outcome : Nat) : State :=
  (((s.serves kind cause).endActivation outcome).reportAbandoned.examineQueue).offer

/-- CONTROLLER_SERVES: step 9 (R562, R564). After an activation in a start-up without a valid image, the new image then serves. -/
def execControllerServes (s : State) : Host.Outcome State Fault Refusal :=
  if s.ctl.phase != .beforeServe then .next s
  else
    let t := (s.modCtlr (fun c => { c with booted := true })).servesAgain (if s.ctl.confirm.isSome then 3 else 2) 0 0
    .next (if s.ctl.noRecord then t.controllerEvent 6 0 else t)

/-- An image other than the one that ran starts: what a restart does not keep is lost, and the keys change with its version (R366,
R460). Where the start-up sequence has not ended once, it goes on from step 5 (R561). -/
def State.imageTakesOver (s : State) (b : Bank) : State :=
  let t := s.modCtlr (fun c => { c.runs b s.time with imageOk := true })
  if s.ctl.booted then t.afterRestart.rekey 2 else t.afterRestart.modCtlr (fun c => { c with phase := .readConfig })

/-- FW_ACTIVATION_SWITCH: the new image is checked and serves; one that fails its check leaves the switch to FW_FALLBACK. The boot store
records its bank later (R459). -/
def execFwActivationSwitch (s : State) : Host.Outcome State Fault Refusal :=
  if s.ctl.phase != .switching || !imageValid s.ctl.spare.image then .next s
  else
    let t := (s.modCtlr (fun c => { c with confirm := some (!c.activeB, s.time) })).imageTakesOver s.ctl.spare
    .next (if s.ctl.booted then t.servesAgain 3 0 0 else t)

/-- FW_BANK_CONFIRM: the new image has served for 100 ms. -/
def execFwBankConfirm (s : State) : Host.Outcome State Fault Refusal :=
  match s.ctl.confirm with
  | some (b, t) => .next (if s.ctl.phase == .serving && s.passed t 100000000 then s.modCtlr (fun c => c.records b) else s)
  | none => .next s

/-- Whether a new image has failed its check, or has faulted before the boot store recorded it. -/
def Controller.fallsBack (c : Controller) : Bool :=
  (c.phase == .switching && !imageValid c.spare.image) || (c.phase == .restarting && c.confirm.isSome)

/-- The cause of a fallback (Table 13.17): the failed check, or that of the fault. -/
def Controller.fallCause (c : Controller) : Nat :=
  if c.phase == .switching then 6 else numAt (c.log.getLast?.getD []) 0 1

/-- FW_FALLBACK: the previous image, which the boot store still records as active, is checked and serves; with neither image valid the
controller enters safe mode (R459, R466). -/
def execFwFallback (s : State) : Host.Outcome State Fault Refusal :=
  if !s.ctl.fallsBack then .next s
  else
    let t := s.modCtlr (fun c => { c.modSpare (fun x => { x with st := .failed }) with confirm := none })
    let old := s.ctl.bank s.ctl.activeB
    if !imageValid old.image then .next (t.safeMode 6)
    else
      let t := (t.modCtlr (fun c => { c with quietFallback := true })).imageTakesOver old
      .next (if s.ctl.booted then t.servesAgain 4 s.ctl.fallCause 1 else (t.controllerEvent 4 s.ctl.fallCause).endActivation 1)

/-! ### The exception path (R461 to R466) -/

/-- Cause codes (Table 13.17). -/
def ExcCause.code : ExcCause → Nat
  | .badStack => 1 | .onEmergency => 2 | .watchdog => 3 | .ramError => 4 | .request => 5 | .imageCheck => 6

/-- An exception record (Table 13.17): the exception itself counts as folded in. -/
def State.excRecord (s : State) (cause : ExcCause) (pc sp : Word) : List Byte :=
  leBytes 1 cause.code ++ leBytes 3 1 ++ leBytes 4 pc.toNat ++ leBytes 4 sp.toNat ++ [s.ctl.runMajor, s.ctl.runMinor]
    ++ leBytes 2 s.ctl.runPatch.toNat ++ leBytes 8 s.time.toNat ++ leBytes 40 0

/-- The ring with a record added: eight are kept. -/
def logAdd (log : List (List Byte)) (r : List Byte) : List (List Byte) := (log ++ [r]).drop (log.length + 1 - 8)

/-- The last record with one exception more. -/
def logFold : List (List Byte) → List (List Byte)
  | [] => []
  | [r] => [r.set 1 (BitVec.ofNat 8 (min 255 ((r.getD 1 0).toNat + 1)))]
  | r :: rs => r :: logFold rs

/-- Whether an activity is one that firmware steps through. -/
def Activity.stepped (a : Activity) : Bool := decide (4 ≤ a.code) && decide (a.code ≤ 0x0A)

/-- The activities at a stop of the controller (R463): those that hardware carries out go on, the others are abandoned, the queue is
dropped. -/
def State.abandonActs (s : State) : State :=
  let gone (a : Activity) : Bool := a.queued || a.stepped
  let tests (a : Activity) : List Nat := if a.queued then [] else if a.code = 5 then [a.target] else if a.code = 7 then a.testNodes else []
  let t := (s.ctl.acts.flatMap tests).foldl (fun b ix => b.testing ix false) s
  t.modCtlr (fun c => { c with acts := c.acts.filter (fun a => !gone a), abandoned := c.abandoned ++ c.acts.filter gone })

/-- A request in WORKING is answered MC_RESTARTED (R428), but for a commit that the kiln has, which COMMIT_SWAP answers. -/
def State.answerWorking (s : State) : State :=
  (List.range 18).foldl (fun a p => a.modPort p (fun x =>
    if x.st == .working && !s.cfg.swaps.any (fun w => w.2.1 == p && w.2.2 == x.curTag) then
      x.show x.curTag (responseBytes x.version (x.request p).code x.curTag erMcRestarted (b2n (x.lastEffect == some x.curTag)) false [])
    else x)) s

/-- MC_FAULT rises (R462 step 3, R518). -/
def State.raiseFault (s : State) (cause : Nat) : State :=
  let t := s.modCtlr (fun c => { c with mcFault := true, onEmergency := true })
  ((List.range 18).foldl (fun a p => a.modPort p (fun x => { x with intStatus := setBit x.intStatus mbMcFault })) t).controllerEvent 1 cause

/-- Where the controller goes: a restart, or the start-up sequence again when it has not been through it. -/
def CtlPhase.afterFault : CtlPhase → CtlPhase
  | .readImage | .readConfig | .selfTest | .firstPass | .firstCommit | .beforeServe => .readImage
  | .safe => .safe
  | _ => .restarting

/-- Step 5 of R462 begins: the active image is reloaded, and the watchdog runs anew. -/
def Controller.reloads (c : Controller) (now : Quad) : Controller :=
  { c with imageOk := false, triedBoth := false, tryB := c.activeB, wdFrom := now }

/-- The hardware path of R462, up to the image's reload. `recent` are the restarts of the last 10 s. In the start-up sequence an image
that the boot store has not recorded gives way to the recorded one (R459, R561). -/
def State.hardwarePath (s : State) (cause : ExcCause) (pc sp : Word) : State :=
  let recent := s.ctl.restarts.filter (fun t => !s.passed t 10000000000) ++ [s.time]
  let t := s.modCtlr (fun c => { c with log := logAdd c.log (s.excRecord cause pc sp) })
  let t := t.raiseFault cause.code
  let t := t.modCtlr (fun c => { c.reloads s.time with
    phase := c.phase.afterFault, restarts := recent, background := none,
    confirm := if c.phase.afterFault == .readImage then none else c.confirm })
  let t := (t.abandonActs.answerWorking.busyPending none).afterRestart
  if 3 ≤ recent.length then t.safeMode cause.code else t

/-- An exception that takes the hardware path. A second one on the path, before the image has restarted, resets the core, is folded into
the last record, and starts the reload again. -/
def State.controllerFaults (s : State) (cause : ExcCause) (pc sp : Word) : State :=
  match s.ctl.phase with
  | .inReset | .zeroing => s
  | _ =>
    if s.ctl.onEmergency then s.modCtlr (fun c => { c.reloads s.time with log := logFold c.log })
    else s.hardwarePath cause pc sp

/-- Whether the stack pointer is invalid for an exception (R461). -/
def Controller.stackBad (c : Controller) (sp : Word) : Bool :=
  decide (sp.toNat % 8 ≠ 0) || decide (c.stackHigh.toNat < sp.toNat) || decide (sp.toNat < c.stackLow.toNat + Config.excFrame)

/-- Which exception takes the hardware path, and with what cause; none for one that enters the firmware's handler (R461, Table
13.17). -/
def Controller.excCause (c : Controller) (kind : ExcKind) (sp : Word) : Option ExcCause :=
  match kind with
  | .ramError => some .ramError
  | .request => some .request
  | .core => if c.onEmergency then some .onEmergency else if c.stackBad sp then some .badStack else none

/-- CONTROLLER_EXCEPTION: `pc` and `sp` are the core's at the exception. What the firmware's handler then does shows at the interface
by the commands of the rows alone. -/
def execControllerException (kind : ExcKind) (pc sp : Word) (s : State) : Host.Outcome State Fault Refusal :=
  match s.ctl.excCause kind sp with
  | some cause => .next (s.controllerFaults cause pc sp)
  | none => .next s

/-- WATCHDOG_EXPIRY: 10 ms after its last restart, which is no earlier than the start of the image or its reload (R464). -/
def execWatchdogExpiry (pc sp : Word) (s : State) : Host.Outcome State Fault Refusal :=
  .next (if s.timedOut s.ctl.wdFrom 10000000 then s.controllerFaults .watchdog pc sp else s)

/-- CONTROLLER_RESTART_DONE: the image has passed its check and serves again. An image of another version than the one that ran changes
the keys (R364, R366). -/
def execControllerRestartDone (s : State) : Host.Outcome State Fault Refusal :=
  if s.ctl.phase != .restarting || !s.ctl.imageOk || s.ctl.confirm.isSome then .next s
  else .next ((s.afterRestart.rekey 2).servesAgain 2 0 2)

end Sys2Proof.Machine
end

