-- ==== Sys2Proof/Machine/Smb.lean ====
section
/-! DEFINITION. The SMBus target and Host Notify (R527 to R531). A row is one whole transaction; `reply` is what it returned on the
bus, none when the target did not acknowledge, and `pecOut` the PEC byte that the target sends after it to a host that clocks on. -/

namespace Sys2Proof.Machine
open Sys2Proof

/-- One byte through the PEC's CRC-8, x^8 + x^2 + x + 1 (PRESUMED from SMBus, assumption log 100). -/
def pecStep (c b : Byte) : Byte := (List.range 8).foldl (fun a _ => if a.msb then (a <<< 1) ^^^ 0x07 else a <<< 1) (c ^^^ b)

/-- The PEC byte of the bytes of a transaction, its addresses and its byte counts among them (assumption log 100). -/
def pecOf (bytes : List Byte) : Byte := bytes.foldl pecStep 0

/-- The block's 7-bit address. -/
def State.smbAddress (s : State) : Byte := BitVec.ofNat 8 (0x58 + s.straps.smbAddr.toNat)

/-- The address byte of a write, and of a read. -/
def State.smbAddr (s : State) (read : Bool) : Byte := BitVec.ofNat 8 (2 * s.smbAddress.toNat + b2n read)

/-- Whether a PEC byte, where the transaction ends with one, is that of its bytes (R528). -/
def State.pecOk (s : State) (pec : Option Byte) (bytes : List Byte) : Bool :=
  pec.all (fun p => p == pecOf (s.smbAddr false :: bytes))

/-- What a transaction returns. While the block is in reset the target does not acknowledge (R514). -/
def State.smbReply (s : State) (r : Option (List Byte)) : State := { s with smb := { s.smb with reply := r } }

/-- A transaction that the target does not acknowledge. -/
def State.smbNack (s : State) : State := s.smbReply none

/-- The data that a transaction reads, with the bytes that it wrote first and those that precede the data, and the PEC byte after them
all. -/
def State.smbRead (s : State) (wrote counts data : List Byte) : State :=
  { s with smb := { s.smb with reply := some data, pecOut := pecOf (s.smbAddr false :: wrote ++ s.smbAddr true :: counts ++ data) } }

/-- SMB_BLK_VERSION: a Block Read of 4 bytes. -/
def execSmbBlkVersion (s : State) : Host.Outcome State Fault Refusal :=
  if s.awake then .next (s.smbRead [0x00] [4] (leBytes 4 s.blkVersion.toNat)) else .next s.smbNack

/-- The status byte (Table 16.6). -/
def State.smbStatusByte (s : State) : Byte :=
  BitVec.ofNat 8 (b2n (s.ctl.phase == .serving) + at' (b2n s.ctl.mcFault) 1 + at' (b2n (s.ctl.phase == .safe)) 2
    + at' (b2n s.smb.notifyFailed) 3 + at' (b2n s.smb.notifyEn) 4 + at' (b2n s.straps.debug) 5)

/-- SMB_STATUS. -/
def execSmbStatus (s : State) : Host.Outcome State Fault Refusal :=
  if s.awake then .next (s.smbRead [0x01] [] [s.smbStatusByte]) else .next s.smbNack

/-- SMB_NOTIFY_CTRL: a byte with another bit set is not acknowledged. `pec` is the PEC byte that the transaction ends with, if any. -/
def execSmbNotifyCtrl (data : Byte) (pec : Option Byte) (s : State) : Host.Outcome State Fault Refusal :=
  if !s.awake || !s.pecOk pec [0x02, data] || data.toNat &&& 0xF6 != 0 then .next s.smbNack
  else .next { s with smb := { s.smb with
    reply := some [], notifyEn := bitOf data.toNat 0, notifyFailed := s.smb.notifyFailed && !bitOf data.toNat 3 } }

/-- Whether the data of an MBX_WRITE keep to Table 16.6. -/
def mbxWriteOk (data : List Byte) : Bool :=
  decide (6 ≤ data.length) && decide (data.length ≤ 250) && (data.length - 2) % 4 == 0 && numAt data 0 2 % 4 == 0

/-- The 32-bit accesses of an MBX_WRITE: offsets and words. -/
def mbxWords (data : List Byte) : List (Nat × Word) :=
  (List.range ((data.length - 2) / 4)).map (fun i => (numAt data 0 2 + 4 * i, BitVec.ofNat 32 (numAt data (2 + 4 * i) 4)))

/-- SMB_MBX_WRITE: `data` are the bytes of the block, the offset first. -/
def execSmbMbxWrite (data : List Byte) (pec : Option Byte) (s : State) : Host.Outcome State Fault Refusal :=
  if !s.awake || !s.pecOk pec (0x10 :: BitVec.ofNat 8 data.length :: data) || !mbxWriteOk data then .next s.smbNack
  else .next ((mbxWords data).foldl (fun a e => a.windowWrite 16 e.1 e.2) (s.smbReply (some [])))

/-- Whether the write part of an MBX_READ keeps to Table 16.6. -/
def mbxReadOk (data : List Byte) : Bool :=
  let n := numAt data 2 1
  data.length == 3 && decide (4 ≤ n) && decide (n ≤ 252) && n % 4 == 0 && numAt data 0 2 % 4 == 0

/-- SMB_MBX_READ: `data` is the write part, `count` the byte count that it was sent with, which it has to match. The one PEC byte of a
process call follows the read part, and the target sends it. -/
def execSmbMbxRead (data : List Byte) (count : Nat) (s : State) : Host.Outcome State Fault Refusal :=
  if !s.awake || count != data.length || !mbxReadOk data then .next s.smbNack
  else
    let words := (List.range (numAt data 2 1 / 4)).map (fun i => leBytes 4 (s.windowRead 16 (numAt data 0 2 + 4 * i)).toNat)
    .next (s.smbRead (0x11 :: 3 :: data) [BitVec.ofNat 8 (numAt data 2 1)] words.flatten)

/-- SMB_TIMEOUT: the transaction is abandoned with no effect. -/
def execSmbTimeout (s : State) : Host.Outcome State Fault Refusal := .next s.smbNack

/-- The row that a transaction with a command code and written bytes is; none for a code that Table 16.6 does not list, which the target
does not acknowledge (R528). -/
def smbRow (code : Byte) (data : List Byte) (pec : Option Byte) : Option Instr :=
  match code.toNat with
  | 0x00 => some .smbBlkVersion
  | 0x01 => some .smbStatus
  | 0x02 => some (.smbNotifyCtrl (data.getD 0 0) pec)
  | 0x10 => some (.smbMbxWrite data pec)
  | 0x11 => some (.smbMbxRead data data.length)
  | _ => none

/-! ### Host Notify (R529, R530) -/

/-- One attempt: a message with the causes that stand now; it goes through, or fails once more. -/
def State.notify (s : State) (r : NotifyResult) : State :=
  match r with
  | .acked =>
    { s with smb := { s.smb with running := false, attempts := 0, sent := some (s.smbAddress, (s.port 16).intStatus.setWidth 16) } }
  | .nack | .lostArbitration =>
    let t := { s with smb := { s.smb with attempts := s.smb.attempts + 1, since := s.time } }
    if t.smb.attempts < 4 then t else { t.bump 0x0C with smb := { t.smb with running := false, attempts := 0, notifyFailed := true } }

/-- HOST_NOTIFY_ATTEMPT: the first attempt of a sequence. -/
def execHostNotifyAttempt (r : NotifyResult) (s : State) : Host.Outcome State Fault Refusal :=
  if s.awake && s.smb.running && s.smb.attempts == 0 then .next (s.notify r) else .next s

/-- HOST_NOTIFY_RETRY: 1 ms after a failed attempt. Without the reference the sender times it. -/
def execHostNotifyRetry (r : NotifyResult) (s : State) : Host.Outcome State Fault Refusal :=
  if s.awake && s.smb.running && s.smb.attempts != 0 && s.timedOut s.smb.since 1000000 then
    .next (s.notify r)
  else .next s

end Sys2Proof.Machine
end

