-- ==== Sys2Proof/Machine/TestTrace.lean ====
section
/-! DEFINITION. The test port (R523 to R526) and the trace port (R519 to R522). A row of the test port is one instruction with one scan
of its data register: Capture-DR, the bits shifted in, Update-DR. `dr` is what the scan shifted out. -/

namespace Sys2Proof.Machine
open Sys2Proof

/-- The low `n` bits of a number, least significant first, as they leave TDO. -/
def bitsOf (n v : Nat) : List Bool := (List.range n).map (bitOf v)

/-- An instruction selected, its data register captured. Only EXTEST drives the pins from the boundary register. -/
def State.scan (s : State) (ir : Nat) (dr : List Bool) : State :=
  { s with test := { s.test with ir := BitVec.ofNat 8 ir, dr := dr, driving := false } }

/-- EXTEST: the pins are captured, what is shifted in is driven. -/
def execExtest (pins din : List Bool) (s : State) : Host.Outcome State Fault Refusal :=
  let t := s.scan 0x00 pins
  .next { t with test := { t.test with boundary := din, driving := true } }

/-- SAMPLE/PRELOAD. -/
def execSamplePreload (pins din : List Bool) (s : State) : Host.Outcome State Fault Refusal :=
  let t := s.scan 0x02 pins
  .next { t with test := { t.test with boundary := din } }

/-- The identification code (R524). -/
def State.idcode (s : State) : Nat :=
  at' (slice s.blkVersion.toNat 16 4) 28 + at' 0x0C08 12 + at' s.straps.mfrId.toNat 1 + 1

/-- IDCODE. -/
def execIdcode (s : State) : Host.Outcome State Fault Refusal := .next (s.scan 0x01 (bitsOf 32 s.idcode))

/-- BYPASS, by its own code or by any that selects the bypass register: one bit, captured 0. -/
def execBypass (s : State) : Host.Outcome State Fault Refusal := .next (s.scan 0xFF [false])

/-- CX_VERSION. -/
def execCxVersion (s : State) : Host.Outcome State Fault Refusal := .next (s.scan 0x20 (bitsOf 32 s.blkVersion.toNat))

/-- What CX_MBX captures: whether the operation has completed, and the data of the last read. -/
def TestPort.mbxWord (x : TestPort) : Nat := at' (b2n x.mbxDone) 62 + x.mbxData.toNat

/-- An operation on port 17's window (R525). -/
def State.mbxOp (s : State) (op off : Nat) (v : Word) : State :=
  match op with
  | 1 =>
    let t := s.windowWrite 17 off v
    { t with test := { t.test with mbxDone := true } }
  | 2 => { s with test := { s.test with mbxDone := true, mbxData := s.windowRead 17 off } }
  | _ => s

/-- CX_MBX: the operation completes with its row. -/
def execCxMbx (din : BitVec 64) (s : State) : Host.Outcome State Fault Refusal :=
  let t := s.scan 0x21 (bitsOf 64 s.test.mbxWord)
  let v := din.toNat
  .next (if s.awake then t.mbxOp (slice v 62 2) (4 * slice v 32 14) (BitVec.ofNat 32 v) else t)

/-- CX_RESET: the key asserts block reset, whose end is BLOCK_RESET_END; what Capture-DR loads is not stated. -/
def execCxReset (din : Word) (s : State) : Host.Outcome State Fault Refusal :=
  if din = 0xC0800000 then .next (s.assertReset .cxReset)
  else .next ((s.scan 0x22 ((List.range 4).flatMap (fun i => bitsOf 8 (Config.openByte s.tick i).toNat))).tock)

/-- The bits of CX_TRACE_CFG that are not reserved (Table 16.3). -/
def traceMask : Word := 0xCFFF037E

/-- CX_TRACE_CFG: `din` is none when the scan does not reach Update-DR. -/
def execCxTraceCfg (din : Option Word) (s : State) : Host.Outcome State Fault Refusal :=
  let t := s.scan 0x23 (bitsOf 32 s.trace.cfg.toNat)
  match din with
  | none => .next t
  | some v => .next (if s.awake then { t with trace := { t.trace with cfg := v &&& traceMask } } else t)

/-- The sampled straps (Table 16.4). -/
def Straps.word (x : Straps) : Nat :=
  at' x.ndieM1.toNat 27 + at' (b2n x.debug) 26 + at' x.smbAddr.toNat 23 + at' x.mfrId.toNat 12

/-- CX_STRAPS. -/
def execCxStraps (s : State) : Host.Outcome State Fault Refusal := .next (s.scan 0x24 (bitsOf 32 s.straps.word))

/-- A port counter (Table 16.5); a code not listed reads zero. -/
def State.portCounter (s : State) (code : Nat) : BitVec 56 := tget 0 s.counters code

/-- CX_PORT_CNT: the counter of the code given before is captured, the next code taken. -/
def execCxPortCnt (din : BitVec 64) (s : State) : Host.Outcome State Fault Refusal :=
  let c := s.test.cntCode.toNat
  let t := s.scan 0x25 (bitsOf 64 (at' (s.portCounter c).toNat 8 + c))
  .next { t with test := { t.test with cntCode := din.setWidth 8 } }

/-- TEST_PORT_RESET: the test port alone; the trace configuration is the block's. -/
def execTestPortReset (s : State) : Host.Outcome State Fault Refusal := .next { s with test := {} }

/-- The number that bits spell, least significant first. -/
def ofBits : List Bool → Nat
  | [] => 0
  | b :: bs => b2n b + 2 * ofBits bs

/-- The row that a scan is, under the instruction code that stands, with the pins as they are and the bits shifted in: BYPASS for every
code that Table 16.4 does not list. `update` tells whether the scan reaches Update-DR. -/
def tapRow (ir : Byte) (pins din : List Bool) (update : Bool) : Instr :=
  match ir.toNat with
  | 0x00 => .extest pins din
  | 0x01 => .idcode
  | 0x02 => .samplePreload pins din
  | 0x20 => .cxVersion
  | 0x21 => .cxMbx (BitVec.ofNat 64 (ofBits din))
  | 0x22 => .cxReset (BitVec.ofNat 32 (ofBits din))
  | 0x23 => .cxTraceCfg (if update then some (BitVec.ofNat 32 (ofBits din)) else none)
  | 0x24 => .cxStraps
  | 0x25 => .cxPortCnt (BitVec.ofNat 64 (ofBits din))
  | _ => .bypass

/-! ### The trace port -/

/-- The LOST record. -/
def Trace.lost (t : Trace) : BitVec 320 := eventRecord t.seq 0x12 (bodyOf [(t.dropped.toNat, 0, 4)])

/-- The transfers of a record: bytes 2i and 2i + 1 on TRC_D, the first in its low half, and TRC_CTL, high during the first (R519). -/
def trcTransfers (r : BitVec 320) : List (BitVec 16 × Bool) :=
  (List.range 20).map (fun i => (BitVec.ofNat 16 (slice r.toNat (16 * i) 16), i == 0))

/-- The trace with its next record sent. -/
def Trace.send (t : Trace) : Trace :=
  if t.dropped != 0 then { t with out := trcTransfers t.lost, seq := t.seq + 1, dropped := 0 }
  else match t.queue with
    | [] => t
    | r :: rs => { t with out := trcTransfers r, queue := rs }

/-- TRACE_RECORD_SEND: nothing is sent while the trace is off or the reference absent. -/
def execTraceRecordSend (s : State) : Host.Outcome State Fault Refusal :=
  if s.awake && bitOf s.trace.cfg.toNat 31 && !s.refLost then .next { s with trace := s.trace.send } else .next s

end Sys2Proof.Machine
end

