-- ==== Sys2Proof/Machine/GatewayPort.lean ====
section
/-! DEFINITION. The gateway port (R532 to R541): the window's stores, sending, receiving, collisions. -/

namespace Sys2Proof.Machine
open Sys2Proof

/-! ### Headers and flits (Tables 16.7 and 16.8) -/

/-- dst_pkg. -/
def hDst (h : Nat) : Nat := slice h 112 16
/-- src_pkg. -/
def hSrc (h : Nat) : Nat := slice h 96 16
/-- group. -/
def hGroup (h : Nat) : Nat := slice h 76 20
/-- The key of a transfer: src_pkg, group and tag (R538). -/
def hKey (h : Nat) : Nat := slice h 52 60
/-- box. -/
def hBox (h : Nat) : Nat := slice h 44 8
/-- flit_index. -/
def hFlit (h : Nat) : Nat := slice h 38 6
/-- last_index. -/
def hLast (h : Nat) : Nat := slice h 32 6
/-- last_bytes. -/
def hLastBytes (h : Nat) : Nat := slice h 25 7
/-- The fields that a box records beside the key: last_index, last_bytes, content, in_fmt and count. -/
def hRecord (h : Nat) : Nat × Nat := (slice h 25 13, slice h 5 19)
/-- The header that a box records: flit_index is zero, and the reserved bits read as zero whatever came in them (R17). What an inbound
flit's reserved bits do beyond that R538 does not say: they are ignored (assumption log 83). -/
def boxHeader (h : Nat) : Nat := at' (slice h 44 84) 44 + at' (slice h 25 13) 25 + at' (slice h 5 19) 5
/-- The reserved bits of a header. -/
def hReserved (h : Nat) : Nat := slice h 0 5 + slice h 24 1

/-- The header of a transfer of `n` bytes from a package, less flit_index: the fields that the port fills (R536). -/
def fillHeader (h src n : Nat) : Nat :=
  let last := (n - 1) / 64
  at' (hDst h) 112 + at' src 96 + at' (slice h 44 52) 44 + at' last 32 + at' (n - 64 * last) 25 + slice h 0 25

/-- A gateway flit of a header and a payload (R533). -/
def gwFlit (h : Nat) (payload : List Byte) : BitVec 664 :=
  let body := leBytes 16 h ++ padTo 64 payload
  BitVec.ofNat 664 (ofLe (body ++ leBytes 3 (crc24 body)))

/-- The bytes of a gateway flit. -/
def gwBytes (f : BitVec 664) : List Byte := leBytes 83 f.toNat

/-! ### Buffers, boxes and accesses (R535) -/

/-- A transmit buffer. -/
def State.txBuf (s : State) (b : Nat) : TxBuf := tget {} s.gw.tx b
/-- Changes a transmit buffer. -/
def State.modTx (s : State) (b : Nat) (f : TxBuf → TxBuf) : State := { s with gw := { s.gw with tx := tmod {} s.gw.tx b f } }
/-- A receive box. -/
def State.rxBox (s : State) (x : Nat) : RxBox := tget {} s.gw.box x
/-- Changes a receive box. -/
def State.modBox (s : State) (x : Nat) (f : RxBox → RxBox) : State := { s with gw := { s.gw with box := tmod {} s.gw.box x f } }

/-- Whether the rank of a physical index is a member of a group that is valid in an active set. -/
def State.gwMember (s : State) (who : BitVec 16) (g : Nat) : Bool :=
  let r := s.cfg.rankOf who.toNat
  r != 0xFFFF && (s.cfg.groupSaggar g).isSome && (s.cfg.members g).contains r

/-- A refused access is counted. -/
def State.gwRefuse (s : State) : State := s.bump 0x07

/-- GW_TX_STATUS (Table 16.10). -/
def TxBuf.status (t : TxBuf) : Word := BitVec.ofNat 32 (at' t.owner.toNat 16 + at' t.result.toNat 4 + t.st.toNat)
/-- GW_BOX_STATE (Table 16.10). -/
def RxBox.status (x : RxBox) : Word := BitVec.ofNat 32 (at' x.got.length 24 + at' x.length 8 + x.st.toNat)
/-- GW_STATUS (Table 16.9). -/
def Gateway.status (g : Gateway) : Word :=
  BitVec.ofNat 32 (at' (g.rank.elim 0 (·.toNat)) 16 + at' (b2n g.rank.isSome) 15 + b2n g.hold.isSome)

/-! ### Sending (R536, R537) -/

/-- GW_TX_HDR: the membership checked is that of the group in the header stored. -/
def execGwTxHdr (who : BitVec 16) (buf : Nat) (hdr : BitVec 128) (s : State) : Host.Outcome State Fault Refusal :=
  if !s.awake || 64 ≤ buf then .next s
  else if !s.gwMember who (hGroup hdr.toNat) then .next s.gwRefuse
  else
    let t := s.txBuf buf
    if t.st = 0 then .next (s.modTx buf (fun t => { t with hdr := hdr, owner := who, st := 1, result := 0, since := s.time }))
    else if t.st = 1 && t.owner == who then .next (s.modTx buf (fun t => { t with hdr := hdr }))
    else .next s

/-- Whether a store to the window is 4, 8 or 16 B wide and aligned (R535). -/
def gwAligned (off n : Nat) : Bool := (n == 4 || n == 8 || n == 16) && off % n == 0

/-- TRANSMIT_DATA. -/
def execTransmitData (who : BitVec 16) (buf off : Nat) (data : List Byte) (s : State) : Host.Outcome State Fault Refusal :=
  let t := s.txBuf buf
  if !s.awake || 64 ≤ buf || 4096 < off + data.length || !gwAligned off data.length then .next s
  else if !s.gwMember who (hGroup t.hdr.toNat) then .next s.gwRefuse
  else if t.st = 1 && t.owner == who then .next (s.modTx buf (fun t => { t with data := tsetRun 0 t.data off data }))
  else .next s

/-- Whether a transfer is invalid at its GO: `v` is the word written. -/
def goInvalid (h : Nat) (v : Word) : Bool :=
  let n := slice v.toNat 0 13
  decide (n < 1) || decide (4096 < n) || slice v.toNat 13 19 != 0 || decide (slice h 20 4 < 1) || decide (3 < slice h 20 4)
    || decide (64 < slice h 5 7) || hReserved h != 0 || decide (4095 < hDst h)

/-- What a GO of the owner gives: a result, none when the transfer is sent. -/
def State.goResult (s : State) (t : TxBuf) (v : Word) : Option (BitVec 4) :=
  if s.gw.rank.isNone then some 5
  else if !s.gwMember t.owner (hGroup t.hdr.toNat) then some 2
  else if goInvalid t.hdr.toNat v then some 3
  else none

/-- GW_TX_GO: the owner's is decided by R536, another core's is ignored. An access without membership that R536 does not decide is refused
(R535). -/
def execGwTxGo (who : BitVec 16) (buf : Nat) (v : Word) (s : State) : Host.Outcome State Fault Refusal :=
  let t := s.txBuf buf
  if !s.awake || 64 ≤ buf then .next s
  else if t.owner != who || t.st != 1 then .next (if s.gwMember who (hGroup t.hdr.toNat) then s else s.gwRefuse)
  else match s.goResult t v with
  | some r => .next (s.modTx buf (fun t => { t with st := 0, result := r }))
  | none =>
    let n := slice v.toNat 0 13
    let src := s.gw.rank.elim 0 (·.toNat)
    .next (s.modTx buf (fun t => { t with
      st := 2, length := n, sent := 0, hdr := BitVec.ofNat 128 (fillHeader t.hdr.toNat src n) }))

/-! ### Receiving (R538, R540) -/

/-- Whether every flit of a box's transfer has come. -/
def RxBox.complete (x : RxBox) : Bool := (List.range (hLast x.hdr.toNat + 1)).all x.got.contains

/-- A flit stored in a box; the box becomes READY when it is the last. -/
def RxBox.store (x : RxBox) (h : Nat) (payload : List Byte) (now : Quad) : RxBox :=
  let y := { x with data := tsetRun 0 x.data (64 * hFlit h) payload, got := x.got ++ [hFlit h], since := now }
  if y.complete then { y with st := 2, length := 64 * hLast h + hLastBytes h } else y

/-- A flit taken into the receive path: discarded and counted, stored, or held on a collision. -/
def State.gwReceive (s : State) (f : BitVec 664) : State :=
  let bs := gwBytes f
  let h := numAt bs 0 16
  let payload := bytesAt bs 16 64
  let x := s.rxBox (hBox h)
  if numAt bs 80 3 != crc24 (bs.take 80) then s.bump 0x03
  else if s.gw.rank.all (fun r => r.toNat != hDst h) then s.bump 0x04
  else if x.st = 0 then
    s.modBox (hBox h) (fun _ => ({ hdr := BitVec.ofNat 128 (boxHeader h), st := 1 } : RxBox).store h payload s.time)
  else if hKey x.hdr.toNat != hKey h then { s with gw := { s.gw with hold := some f, since := s.time } }
  else if x.st != 1 then s.bump 0x06
  else if hRecord x.hdr.toNat != hRecord h then s.modBox (hBox h) (fun x => { x with st := 3 })
  else if x.got.contains (hFlit h) then s.bump 0x06
  else s.modBox (hBox h) (fun x => x.store h payload s.time)

/-- GW_RX_FLIT: while a collision holds a flit, GW_RX_READY is low and no flit comes. -/
def execGwRxFlit (flit : BitVec 664) (s : State) : Host.Outcome State Fault Refusal :=
  if !s.awake || s.gw.hold.isSome then .next s else .next ((s.bump 0x02).gwReceive flit)

/-- The next flit of a buffer that is SENDING. -/
def TxBuf.next (t : TxBuf) : BitVec 664 :=
  gwFlit (t.hdr.toNat + at' t.sent 38) (tgetRun 0 t.data (64 * t.sent) (min 64 (t.length - 64 * t.sent)))

/-- A buffer after a flit of it has been accepted. -/
def TxBuf.accepted (t : TxBuf) : TxBuf :=
  if t.length ≤ 64 * (t.sent + 1) then { t with sent := t.sent + 1, st := 0, result := 1 } else { t with sent := t.sent + 1 }

/-- GW_TX_FLIT_ACCEPT: the SNI takes the flit, or the receive path when it is for this package; there a collision hold keeps it back
(R537). -/
def execGwTxFlitAccept (buf : Nat) (s : State) : Host.Outcome State Fault Refusal :=
  let t := s.txBuf buf
  if !s.awake || 64 ≤ buf || t.st != 2 then .next s
  else if hDst t.hdr.toNat = hSrc t.hdr.toNat then
    if s.gw.hold.isSome then .next s else .next ((s.modTx buf TxBuf.accepted).gwReceive t.next)
  else
    let u := (s.modTx buf TxBuf.accepted).bump 0x01
    .next { u with gw := { u.gw with out := some t.next } }

/-- GW_CLAIM_EXPIRE: no GO for 1 ms. -/
def execGwClaimExpire (buf : Nat) (s : State) : Host.Outcome State Fault Refusal :=
  let t := s.txBuf buf
  if s.awake && t.st == 1 && s.timedOut t.since 1000000 then .next (s.modTx buf (fun t => { t with st := 0, result := 4 })) else .next s

/-- GW_BOX_STALE: no flit for 10 ms. -/
def execGwBoxStale (box : Nat) (s : State) : Host.Outcome State Fault Refusal :=
  let x := s.rxBox box
  if s.awake && x.st == 1 && s.timedOut x.since 10000000 then .next (s.modBox box (fun x => { x with st := 4 })) else .next s

/-- GW_COLLIDE_EXPIRE: the held flit is discarded after 1 ms, and the next is accepted. -/
def execGwCollideExpire (s : State) : Host.Outcome State Fault Refusal :=
  if s.awake && s.gw.hold.isSome && s.timedOut s.gw.since 1000000 then
    .next { s.bump 0x05 with gw := { s.gw with hold := none } }
  else .next s

/-- GW_BOX_FREE: writing 1 empties the box; a flit held for it goes in (R539, R540). -/
def execGwBoxFree (who : BitVec 16) (box : Nat) (v : Word) (s : State) : Host.Outcome State Fault Refusal :=
  if !s.awake || 256 ≤ box then .next s
  else if !s.gwMember who (hGroup (s.rxBox box).hdr.toNat) then .next s.gwRefuse
  else if !bitOf v.toNat 0 then .next s
  else
    let t := s.modBox box (fun _ => {})
    match s.gw.hold with
    | some f =>
      if hBox (numAt (gwBytes f) 0 16) = box then .next ({ t with gw := { t.gw with hold := none } }.gwReceive f) else .next t
    | none => .next t

/-! ### The package rank (R534) -/

/-- GW_PKG_RANK_SAMPLE: valid rises; a change of rank while it stays high is ignored. -/
def execGwPkgRankSample (rank : BitVec 16) (s : State) : Host.Outcome State Fault Refusal :=
  if s.awake && s.gw.rank.isNone then .next { s with gw := { s.gw with rank := some rank } } else .next s

/-- GW_PKG_RANK_VALID_FALL. -/
def execGwPkgRankValidFall (s : State) : Host.Outcome State Fault Refusal :=
  if s.awake then .next { s with gw := { s.gw with rank := none } } else .next s

/-! ### Loads from the window (Table 16.9) -/

/-- A byte of a box's data; that of a DAMAGED or STALE box is not defined (R539). -/
def State.boxByte (s : State) (x off : Nat) : Byte :=
  let b := s.rxBox x
  if b.st = 3 || b.st = 4 then Config.openByte s.tick off else tget 0 b.data off

/-- Whether an agent may read a box or its registers; the state of an EMPTY box by any member of some group. -/
def State.mayBox (s : State) (who : BitVec 16) (x : Nat) (state : Bool) : Bool :=
  s.gwMember who (hGroup (s.rxBox x).hdr.toNat)
    || (state && (s.rxBox x).st == 0 && s.cfg.allGroups.any (fun e => s.gwMember who e.2.1))

/-- A word of the gateway window as an agent loads it; none where the agent may not. A write-only area and what Table 16.9 does not list
read as zero. -/
def State.gwWord (s : State) (who : BitVec 16) (off : Nat) : Option Word :=
  let ok (b : Bool) (v : Word) : Option Word := if b then some v else none
  let tx (b : Nat) (v : Word) : Option Word := ok (s.gwMember who (hGroup (s.txBuf b).hdr.toNat)) v
  if off < 0x40000 then tx (off / 4096) 0
  else if off < 0x41000 then
    let b := (off - 0x40000) / 64
    if off % 64 < 0x14 then tx b 0 else if off % 64 = 0x14 then tx b (s.txBuf b).status else some 0
  else if 0x50000 ≤ off ∧ off < 0x52000 then
    let x := (off - 0x50000) / 32
    let o := off % 32
    if o < 16 then ok (s.mayBox who x false) (BitVec.ofNat 32 (slice (s.rxBox x).hdr.toNat (8 * o) 32))
    else if o = 0x10 then ok (s.mayBox who x true) (s.rxBox x).status
    else if o = 0x14 then ok (s.mayBox who x false) 0
    else some 0
  else if off = 0x60000 then some s.gw.status
  else if 0x100000 ≤ off ∧ off < 0x200000 then
    let x := (off - 0x100000) / 4096
    ok (s.mayBox who x false) (BitVec.ofNat 32 (ofLe ((upFrom (off % 4096) 4).map (s.boxByte x))))
  else some 0

/-- A load of `n` bytes from the gateway window: what it returns, and the state after it, for a refused one is counted (R535). A load of
another width or alignment returns zero. -/
def State.gwLoad (s : State) (who : BitVec 16) (off n : Nat) : Nat × State :=
  if !s.awake || !gwAligned off n then (0, s)
  else
    let ws := (List.range (n / 4)).map (fun i => s.gwWord who (off + 4 * i))
    if ws.all Option.isSome then (ofLe (ws.flatMap (fun w => leBytes 4 (w.elim 0 (·.toNat)))), s) else (0, s.gwRefuse)

end Sys2Proof.Machine
end

