-- ==== Sys2Proof/Machine/Dispatch.lean ====
section
/-! DEFINITION. The dispatch: one arm per command, each a direct call of that command's meaning. -/

namespace Sys2Proof.Machine
open Sys2Proof

/-- The effect of a command on everything but the queue. -/
def exec (i : Instr) (s : State) : Host.Outcome State Fault Refusal :=
  match i with
  | .blockResetAssert src => Sys2Proof.Machine.execBlockResetAssert src s
  | .blockResetEnd straps => Sys2Proof.Machine.execBlockResetEnd straps s
  | .sramZeroed => Sys2Proof.Machine.execSramZeroed s
  | .imageCheck img => Sys2Proof.Machine.execImageCheck img s
  | .configRecordLoad record => Sys2Proof.Machine.execConfigRecordLoad record s
  | .startupSelfTestDone failed => Sys2Proof.Machine.execStartupSelfTestDone failed s
  | .firstGlobalCommit => Sys2Proof.Machine.execFirstGlobalCommit s
  | .controllerServes => Sys2Proof.Machine.execControllerServes s
  | .refclkEdge => Sys2Proof.Machine.execRefclkEdge s
  | .refLost => Sys2Proof.Machine.execRefLost s
  | .refReturn => Sys2Proof.Machine.execRefReturn s
  | .paceLock => Sys2Proof.Machine.execPaceLock s
  | .paceSwitch => Sys2Proof.Machine.execPaceSwitch s
  | .lpEnable leaf v => Sys2Proof.Machine.execLpEnable leaf v s
  | .lpDisable leaf v => Sys2Proof.Machine.execLpDisable leaf v s
  | .lpReset leaf v => Sys2Proof.Machine.execLpReset leaf v s
  | .lpResetDone leaf => Sys2Proof.Machine.execLpResetDone leaf s
  | .lpDoorbell leaf v => Sys2Proof.Machine.execLpDoorbell leaf v s
  | .lpCqHeadWrite leaf v => Sys2Proof.Machine.execLpCqHeadWrite leaf v s
  | .lpIntStatusClear leaf v => Sys2Proof.Machine.execLpIntStatusClear leaf v s
  | .registerWrite blk off wide v => Sys2Proof.Machine.execRegisterWrite blk off wide v s
  | .lpPush leaf off wide data => Sys2Proof.Machine.execLpPush leaf off wide data s
  | .tileDrain leaf slot fmt data => Sys2Proof.Machine.execTileDrain leaf slot fmt data s
  | .tileLanded leaf slot tile => Sys2Proof.Machine.execTileLanded leaf slot tile s
  | .takeDescriptor leaf words segs => Sys2Proof.Machine.execTakeDescriptor leaf words segs s
  | .ragTailProbe leaf slot fault => Sys2Proof.Machine.execRagTailProbe leaf slot fault s
  | .sendArm leaf => Sys2Proof.Machine.execSendArm leaf s
  | .bisqueClear leaf => Sys2Proof.Machine.execBisqueClear leaf s
  | .bisqueLoad leaf r => Sys2Proof.Machine.execBisqueLoad leaf r s
  | .bisqueAddSum leaf x => Sys2Proof.Machine.execBisqueAddSum leaf x s
  | .bisqueAddSumsq leaf x => Sys2Proof.Machine.execBisqueAddSumsq leaf x s
  | .bisqueAddDot leaf x y => Sys2Proof.Machine.execBisqueAddDot leaf x y s
  | .bisqueAddSherd leaf r => Sys2Proof.Machine.execBisqueAddSherd leaf r s
  | .bisqueStore leaf bad => Sys2Proof.Machine.execBisqueStore leaf bad s
  | .chunkReadDone leaf slot area chunk r => Sys2Proof.Machine.execChunkReadDone leaf slot area chunk r s
  | .chunkWriteDone leaf slot chunk ok => Sys2Proof.Machine.execChunkWriteDone leaf slot chunk ok s
  | .armMerge node input => Sys2Proof.Machine.execArmMerge node input s
  | .armAtKiln input => Sys2Proof.Machine.execArmAtKiln input s
  | .grant => Sys2Proof.Machine.execGrant s
  | .grantReceive leaf => Sys2Proof.Machine.execGrantReceive leaf s
  | .redealGrantReceive leaf => Sys2Proof.Machine.execRedealGrantReceive leaf s
  | .leafFlitSend leaf plane => Sys2Proof.Machine.execLeafFlitSend leaf plane s
  | .nodeFlitArrive node dir input err h => Sys2Proof.Machine.execNodeFlitArrive node dir input err h s
  | .twinResidueFire node f => Sys2Proof.Machine.execTwinResidueFire node f s
  | .bridgeFlitReceive key err => Sys2Proof.Machine.execBridgeFlitReceive key err s
  | .linkNakReceive key err => Sys2Proof.Machine.execLinkNakReceive key err s
  | .linkNakRepeat key => Sys2Proof.Machine.execLinkNakRepeat key s
  | .bridgeRetryExhausted key => Sys2Proof.Machine.execBridgeRetryExhausted key s
  | .stageConeExpiry h => Sys2Proof.Machine.execStageConeExpiry h s
  | .lossRegister => Sys2Proof.Machine.execLossRegister s
  | .redealResourceFree => Sys2Proof.Machine.execRedealResourceFree s
  | .overflowReplay setter => Sys2Proof.Machine.execOverflowReplay setter s
  | .firingEnd group seq => Sys2Proof.Machine.execFiringEnd group seq s
  | .endReceive leaf => Sys2Proof.Machine.execEndReceive leaf s
  | .resultFlitReceive leaf plane err => Sys2Proof.Machine.execResultFlitReceive leaf plane err s
  | .completionRecordWrite leaf slot w => Sys2Proof.Machine.execCompletionRecordWrite leaf slot w s
  | .setterRestEnd setter => Sys2Proof.Machine.execSetterRestEnd setter s
  | .firingConeExpiry group seq => Sys2Proof.Machine.execFiringConeExpiry group seq s
  | .barrierArrive group => Sys2Proof.Machine.execBarrierArrive group s
  | .barrierRelease leaf ok => Sys2Proof.Machine.execBarrierRelease leaf ok s
  | .leafFailureRegister leaf => Sys2Proof.Machine.execLeafFailureRegister leaf s
  | .configWordUncorrectable w copy otherBad rewriteBad => Sys2Proof.Machine.execConfigWordUncorrectable w copy otherBad rewriteBad s
  | .memoryUncorrectable e => Sys2Proof.Machine.execMemoryUncorrectable e s
  | .scrubPeriodic finds => Sys2Proof.Machine.execScrubPeriodic finds s
  | .pyroPassStart die => Sys2Proof.Machine.execPyroPassStart die s
  | .pyroPassComplete die echoes => Sys2Proof.Machine.execPyroPassComplete die echoes s
  | .pyroPassAbandon die => Sys2Proof.Machine.execPyroPassAbandon die s
  | .loadCorrection die => Sys2Proof.Machine.execLoadCorrection die s
  | .trimEpochFlip die => Sys2Proof.Machine.execTrimEpochFlip die s
  | .trimStaleSet die => Sys2Proof.Machine.execTrimStaleSet die s
  | .tempSample die temp => Sys2Proof.Machine.execTempSample die temp s
  | .quietHoldStart die => Sys2Proof.Machine.execQuietHoldStart die s
  | .quietHoldEnd die => Sys2Proof.Machine.execQuietHoldEnd die s
  | .activityEstimate die tests => Sys2Proof.Machine.execActivityEstimate die tests s
  | .governorSlot die v rLink => Sys2Proof.Machine.execGovernorSlot die v rLink s
  | .wakeSlot die => Sys2Proof.Machine.execWakeSlot die s
  | .wakeRampEnd die seg => Sys2Proof.Machine.execWakeRampEnd die seg s
  | .parkRampEnd die seg => Sys2Proof.Machine.execParkRampEnd die seg s
  | .parkDue die seg => Sys2Proof.Machine.execParkDue die seg s
  | .commitSwap => Sys2Proof.Machine.execCommitSwap s
  | .saggarDestroyEffect saggar => Sys2Proof.Machine.execSaggarDestroyEffect saggar s
  | .mbxRing port v => Sys2Proof.Machine.execMbxRing port v s
  | .mbxPortReset port v => Sys2Proof.Machine.execMbxPortReset port v s
  | .mbxIntStatusClear port v => Sys2Proof.Machine.execMbxIntStatusClear port v s
  | .hello port => Sys2Proof.Machine.execHello port s
  | .goodbye port => Sys2Proof.Machine.execGoodbye port s
  | .saggarCreate port => Sys2Proof.Machine.execSaggarCreate port s
  | .saggarDestroy port => Sys2Proof.Machine.execSaggarDestroy port s
  | .saggarList port => Sys2Proof.Machine.execSaggarList port s
  | .shadowWrite port => Sys2Proof.Machine.execShadowWrite port s
  | .shadowRead port => Sys2Proof.Machine.execShadowRead port s
  | .commit port => Sys2Proof.Machine.execCommit port s
  | .discard port => Sys2Proof.Machine.execDiscard port s
  | .stateRead port => Sys2Proof.Machine.execStateRead port s
  | .snapshot port => Sys2Proof.Machine.execSnapshot port s
  | .snapshotRelease port => Sys2Proof.Machine.execSnapshotRelease port s
  | .firingQuery port => Sys2Proof.Machine.execFiringQuery port s
  | .firingAbort port => Sys2Proof.Machine.execFiringAbort port s
  | .counterRead port => Sys2Proof.Machine.execCounterRead port s
  | .digestOpen port => Sys2Proof.Machine.execDigestOpen port s
  | .digestRead port => Sys2Proof.Machine.execDigestRead port s
  | .digestClose port => Sys2Proof.Machine.execDigestClose port s
  | .keyRead port => Sys2Proof.Machine.execKeyRead port s
  | .calibrate port => Sys2Proof.Machine.execCalibrate port s
  | .scrub port => Sys2Proof.Machine.execScrub port s
  | .selfTest port => Sys2Proof.Machine.execSelfTest port s
  | .nodeOffline port => Sys2Proof.Machine.execNodeOffline port s
  | .nodeOnline port => Sys2Proof.Machine.execNodeOnline port s
  | .planeOffline port => Sys2Proof.Machine.execPlaneOffline port s
  | .planeOnline port => Sys2Proof.Machine.execPlaneOnline port s
  | .leafOffline port => Sys2Proof.Machine.execLeafOffline port s
  | .leafOnline port => Sys2Proof.Machine.execLeafOnline port s
  | .maintStatus port => Sys2Proof.Machine.execMaintStatus port s
  | .maintActivityEnd id found => Sys2Proof.Machine.execMaintActivityEnd id found s
  | .fwStage port => Sys2Proof.Machine.execFwStage port s
  | .fwVerify port => Sys2Proof.Machine.execFwVerify port s
  | .backgroundCommandDone => Sys2Proof.Machine.execBackgroundCommandDone s
  | .fwActivate port => Sys2Proof.Machine.execFwActivate port s
  | .fwActivationSwitch => Sys2Proof.Machine.execFwActivationSwitch s
  | .fwBankConfirm => Sys2Proof.Machine.execFwBankConfirm s
  | .fwFallback => Sys2Proof.Machine.execFwFallback s
  | .fwStatus port => Sys2Proof.Machine.execFwStatus port s
  | .energyRead port => Sys2Proof.Machine.execEnergyRead port s
  | .eventSubscribe port => Sys2Proof.Machine.execEventSubscribe port s
  | .eventRead port => Sys2Proof.Machine.execEventRead port s
  | .faultLogRead port => Sys2Proof.Machine.execFaultLogRead port s
  | .debugAccRead port => Sys2Proof.Machine.execDebugAccRead port s
  | .debugTablePoke port => Sys2Proof.Machine.execDebugTablePoke port s
  | .controllerLogRead port => Sys2Proof.Machine.execControllerLogRead port s
  | .controllerException kind pc sp => Sys2Proof.Machine.execControllerException kind pc sp s
  | .watchdogExpiry pc sp => Sys2Proof.Machine.execWatchdogExpiry pc sp s
  | .controllerRestartDone => Sys2Proof.Machine.execControllerRestartDone s
  | .smbBlkVersion => Sys2Proof.Machine.execSmbBlkVersion s
  | .smbStatus => Sys2Proof.Machine.execSmbStatus s
  | .smbNotifyCtrl data pec => Sys2Proof.Machine.execSmbNotifyCtrl data pec s
  | .smbMbxWrite data pec => Sys2Proof.Machine.execSmbMbxWrite data pec s
  | .smbMbxRead data count => Sys2Proof.Machine.execSmbMbxRead data count s
  | .smbTimeout => Sys2Proof.Machine.execSmbTimeout s
  | .hostNotifyAttempt r => Sys2Proof.Machine.execHostNotifyAttempt r s
  | .hostNotifyRetry r => Sys2Proof.Machine.execHostNotifyRetry r s
  | .extest pins din => Sys2Proof.Machine.execExtest pins din s
  | .idcode => Sys2Proof.Machine.execIdcode s
  | .samplePreload pins din => Sys2Proof.Machine.execSamplePreload pins din s
  | .bypass => Sys2Proof.Machine.execBypass s
  | .cxVersion => Sys2Proof.Machine.execCxVersion s
  | .cxMbx din => Sys2Proof.Machine.execCxMbx din s
  | .cxReset din => Sys2Proof.Machine.execCxReset din s
  | .cxTraceCfg din => Sys2Proof.Machine.execCxTraceCfg din s
  | .cxStraps => Sys2Proof.Machine.execCxStraps s
  | .cxPortCnt din => Sys2Proof.Machine.execCxPortCnt din s
  | .testPortReset => Sys2Proof.Machine.execTestPortReset s
  | .traceRecordSend => Sys2Proof.Machine.execTraceRecordSend s
  | .gwPkgRankSample rank => Sys2Proof.Machine.execGwPkgRankSample rank s
  | .gwTxHdr who buf hdr => Sys2Proof.Machine.execGwTxHdr who buf hdr s
  | .transmitData who buf off data => Sys2Proof.Machine.execTransmitData who buf off data s
  | .gwTxGo who buf v => Sys2Proof.Machine.execGwTxGo who buf v s
  | .gwTxFlitAccept buf => Sys2Proof.Machine.execGwTxFlitAccept buf s
  | .gwClaimExpire buf => Sys2Proof.Machine.execGwClaimExpire buf s
  | .gwRxFlit flit => Sys2Proof.Machine.execGwRxFlit flit s
  | .gwBoxStale box => Sys2Proof.Machine.execGwBoxStale box s
  | .gwCollideExpire => Sys2Proof.Machine.execGwCollideExpire s
  | .gwBoxFree who box v => Sys2Proof.Machine.execGwBoxFree who box v s
  | .depositResponse id code data => Sys2Proof.Machine.execDepositResponse id code data s
  | .depositRequestAccept waited => Sys2Proof.Machine.execDepositRequestAccept waited s
  | .gwPkgRankValidFall => Sys2Proof.Machine.execGwPkgRankValidFall s
  | .controlPathDownwardMessage node => Sys2Proof.Machine.execControlPathDownwardMessage node s
  | .leafPortFailureSignal leaf => Sys2Proof.Machine.execLeafPortFailureSignal leaf s

end Sys2Proof.Machine
end

