-- ==== Sys2Proof/Safety.lean ====
section
/-! DEFINITION. What a run that keeps the block's own promises looks like, in the terms the statements use: how far one state
may differ from another, what every step must keep, and when the controller runs a mailbox command. -/

namespace Sys2Proof
open Machine

/-! ### How far two states may differ -/

/-- Of a port, nothing but its event queue and the interrupt cause of that queue. -/
def samePort (p q : Port) : Prop :=
  q = { p with evq := q.evq, evSeq := q.evSeq, evLost := q.evLost, intStatus := q.intStatus }

/-- `t` is `s` but for leaf port `l`. -/
def leafOnly (s t : State) (l : Nat) : Prop := t = { s with leaves := t.leaves } ∧ ∀ k, k ≠ l → t.leaf k = s.leaf k

/-- `t` is `s` but for records offered to the hosts and to the trace: the ports' event queues, the Host Notify sequence that
an interrupt starts, the trace queue and the port counters. -/
structure recordsOnly (s t : State) : Prop where
  eq    : t = { s with ports := t.ports, smb := t.smb, trace := t.trace, counters := t.counters }
  ports : tableWf {} s.ports = true → tableWf {} t.ports = true ∧ ∀ p, samePort (s.port p) (t.port p)

/-- `t` is `s` but for fault events and the other records. -/
structure faultsOnly (s t : State) : Prop where
  eq : t = { s with faultLog := t.faultLog, ports := t.ports, smb := t.smb, trace := t.trace, counters := t.counters }

/-- `t` is `s` but for what the kiln does when it ends firings and offers what came free to the waiting ones: the kiln, the
control nodes (end messages), the datapath nodes (slots), the deposit port, the wake requests of the die slices, and records. -/
structure kilnOnly (s t : State) : Prop where
  eq : t = { s with kiln := t.kiln, ctls := t.ctls, nodes := t.nodes, dep := t.dep, dies := t.dies, tick := t.tick,
                    faultLog := t.faultLog, ports := t.ports, smb := t.smb, trace := t.trace, counters := t.counters }

/-! ### What every step keeps -/

/-- The canonical form of the state: every register bank, the counts of the cluster nodes and the
scratchpads are tables with rising keys and no listed default, no two
firings of the kiln share the model's own number, the fault log holds at most 1,024 events (R419) and the trace queue at most 256
records (R522). -/
structure canonical (s : State) : Prop where
  leaves   : tableWf {} s.leaves = true
  links    : tableWf {} s.links = true
  nodes    : tableWf {} s.nodes = true
  ctls     : tableWf {} s.ctls = true
  dies     : tableWf {} s.dies = true
  ports    : tableWf {} s.ports = true
  counters : tableWf 0 s.counters = true
  saggars  : tableWf {} s.cfg.saggars = true
  counts   : ∀ k, tableWf 0 (s.ctlNode k).counts = true
  scratch  : ∀ l, tableWf 0 (s.leaf l).scratch = true
  fresh    : ∀ f ∈ s.kiln.firings, f.uid < s.kiln.nextUid
  single   : (s.kiln.firings.map (·.uid)).Nodup
  faultLog : s.faultLog.length ≤ 1024
  trace    : s.trace.queue.length ≤ 256

/-! ### Mailbox commands -/

/-- The controller is to take a request of this command code at this port next, in service or, for a command that it accepts there, in
safe mode, and the request passes every check that all commands share (R426 to R443, R466). -/
def ready (s : State) (p code : Nat) (q : Req) : Prop :=
  s.servesCommand p code = true ∧ s.nextPort = some p ∧ s.cfg.swaps = [] ∧ (s.port p).request p = q ∧ q.code = code
    ∧ s.verdict q = .pass

/-- The state in which a command of port `p` runs: the controller has taken the request of that port. -/
def served (s : State) (p : Nat) : State := { s with ctl := { s.ctl with lastPort := p } }

/-- The response of version `v` to a request stands in the port's response area, its state is DONE, its cause `done` is set; the
controller goes on to the next request (R426). -/
def shown (s : State) (q : Req) (v : Byte × Byte) (err detail : Nat) (more : Bool) (data : List Byte) : State :=
  (s.setPort q.port { s.port q.port with
    resp := tsetRun 0 (s.port q.port).resp 0 (responseBytes v q.code q.tag err detail more data), st := .done, curTag := q.tag,
    intStatus := setBit (s.port q.port).intStatus mbDone }).nextRequest

/-- A request that passed the tag check is answered: its tag and response are kept too, and MBX_LAST_EFFECT takes the tag when the
command has had an effect (R434, R436). The controller goes on to the next request (R426). -/
def answer (s : State) (q : Req) (v : Byte × Byte) (err detail : Nat) (more : Bool) (data : List Byte) (effect : Bool) : State :=
  let b := responseBytes v q.code q.tag err detail more data
  (s.setPort q.port { s.port q.port with
    resp := tsetRun 0 (s.port q.port).resp 0 b, st := .done, curTag := q.tag, intStatus := setBit (s.port q.port).intStatus mbDone,
    lastTag := some q.tag, stored := b, lastEffect := if effect then some q.tag else (s.port q.port).lastEffect }).nextRequest

/-- A request whose response comes later: its port is WORKING, and the controller goes on to the next request (R426). -/
def working (s : State) (q : Req) (effect : Bool) : State :=
  (s.setPort q.port { s.port q.port with
    st := .working, curTag := q.tag, lastTag := some q.tag, stored := [],
    lastEffect := if effect then some q.tag else (s.port q.port).lastEffect }).nextRequest

/-- The port and the command code of a row that carries out a mailbox command (Table 13.12). -/
def commandRow : Instr → Option (Nat × Nat)
  | .hello p => some (p, 0x0001)
  | .goodbye p => some (p, 0x0002)
  | .saggarCreate p => some (p, 0x0101)
  | .saggarDestroy p => some (p, 0x0102)
  | .saggarList p => some (p, 0x0103)
  | .shadowWrite p => some (p, 0x0111)
  | .shadowRead p => some (p, 0x0112)
  | .commit p => some (p, 0x0113)
  | .discard p => some (p, 0x0114)
  | .stateRead p => some (p, 0x0201)
  | .snapshot p => some (p, 0x0202)
  | .snapshotRelease p => some (p, 0x0203)
  | .firingQuery p => some (p, 0x0301)
  | .firingAbort p => some (p, 0x0302)
  | .counterRead p => some (p, 0x0401)
  | .digestOpen p => some (p, 0x0501)
  | .digestRead p => some (p, 0x0502)
  | .digestClose p => some (p, 0x0503)
  | .keyRead p => some (p, 0x0504)
  | .calibrate p => some (p, 0x0601)
  | .scrub p => some (p, 0x0602)
  | .selfTest p => some (p, 0x0603)
  | .nodeOffline p => some (p, 0x0604)
  | .nodeOnline p => some (p, 0x0605)
  | .planeOffline p => some (p, 0x0606)
  | .planeOnline p => some (p, 0x0607)
  | .leafOffline p => some (p, 0x0608)
  | .leafOnline p => some (p, 0x0609)
  | .maintStatus p => some (p, 0x060A)
  | .fwStage p => some (p, 0x0701)
  | .fwVerify p => some (p, 0x0702)
  | .fwActivate p => some (p, 0x0703)
  | .fwStatus p => some (p, 0x0704)
  | .energyRead p => some (p, 0x0801)
  | .eventSubscribe p => some (p, 0x0802)
  | .eventRead p => some (p, 0x0803)
  | .faultLogRead p => some (p, 0x0804)
  | .debugAccRead p => some (p, 0x0805)
  | .debugTablePoke p => some (p, 0x0806)
  | .controllerLogRead p => some (p, 0x0807)
  | _ => none

/-- The row answers the request with an error and changes nothing else. -/
def refuses (s : State) (p : Nat) (q : Req) (i : Instr) (err detail : Nat) : Prop :=
  exec i s = .next (answer (served s p) q (s.port p).version err detail false [] false)

/-- A maintenance command of port `p` whose operands pass asks for activity `a`: it is answered OK with byte 0 at 1 when the activity
is queued (R445), or BUSY when the matrix refuses it (R569). -/
def starts (s : State) (p : Nat) (q : Req) (i : Instr) (a : Activity) : Prop :=
  (∀ t queued, (served s p).admitAct a = some (t, queued) →
    exec i s = .next (answer t.offer q (s.port p).version 0 0 false (leBytes 1 (b2n queued)) true))
  ∧ ((served s p).admitAct a = none → exec i s = .next (answer (served s p) q (s.port p).version erBusy 4 false [] false))

end Sys2Proof
end

