-- ==== Sys2Proof/Certificates/Slice0/Obligations.lean ====
section
/-! DEFINITION. The statements for the provers. Each docstring names the rules of the spec that the statement formalises, or says
what it is derived from. -/

open Sys2Proof
open Sys2Proof.Machine

/-! ### The queue, reset and start-up -/

/-- O1. A step takes the command at the front and runs it on the state with the queue's rest; with no command the block idles
(the model's own queue: assumption log 1). -/
def Obligations.StepRunsFront : Prop :=
  (∀ (c : Instr) (rest : List Instr) (s : State), s.pending = c :: rest → step s = exec c { s with pending := rest })
    ∧ ∀ s : State, s.pending = [] → step s = .next s

/-- O2. What stands in the registers after block reset where the spec gives the value. -/
def Obligations.ResetValues : Prop :=
  State.reset.time = 0 ∧ State.reset.ctl.phase = .inReset ∧ State.reset.cfg.active.policy = 0x110000004#128
    ∧ State.reset.cfg.shadow.policy = 0x110000004#128 ∧ State.reset.cfg.activeGen = 0 ∧ State.reset.faultLog = []
    ∧ State.reset.kiln.firings = [] ∧ State.reset.kiln.lastFn = 0
    ∧ (∀ l, lpCtrl (State.reset.leaf l) = 0x00000C00#32 ∧ (State.reset.leaf l).ringLog2 = 8 ∧ (State.reset.leaf l).rank = 0xFFFF
        ∧ (State.reset.leaf l).intStatus = 0 ∧ (State.reset.leaf l).intEnable = 0 ∧ (State.reset.leaf l).taken = []
        ∧ ∀ i, (tget {} (State.reset.leaf l).bisque i).st = .neverWritten)
    ∧ (∀ p, (State.reset.port p).st = .idle ∧ (State.reset.port p).session = none ∧ (State.reset.port p).lastEffect = none
        ∧ (State.reset.port p).intStatus = 0)
    ∧ (∀ d, (State.reset.die d).trimStale = true ∧ ∀ g, (State.reset.die d).seg g = .parked)
    ∧ ∀ k, (State.reset.kacc k).written = false ∧ (State.reset.kacc k).owner = none

/-- O3. BLOCK_RESET_ASSERT from any source returns every register to its reset value and zeroes every memory, and the source stays
asserted. BLOCK_RESET_END with a die count of at least four releases every source, samples the straps, starts block time at 0 and begins
zeroing; a smaller count holds the block in reset, and one given to a block that is not in reset changes nothing. The block handle is a free
value (R441).
The model's own choices behind it: that the boot store (bankA, bankB, activeB) survives block reset is the model's choice of assumption log 59,
and that the cores' scratchpads do is that of log 2 and 87; that the waiting commands are kept is that of log 1; the counters of the free values,
tick and handles, are the model's own (log 10); the reset values that the spec does not give are those of log 14. -/
def Obligations.BlockReset : Prop :=
  (∀ (src : ResetSource) (s : State), ∃ t, exec (.blockResetAssert src) s = .next t
    ∧ t = { State.reset with
              leaves := t.leaves, pending := s.pending, tick := s.tick, handles := s.handles,
              pwrokLow := s.pwrokLow || src == .pwrok, rstLow := s.rstLow || src == .rstN, cxReset := s.cxReset || src == .cxReset,
              ctl := { bankA := s.ctl.bankA, bankB := s.ctl.bankB, activeB := s.ctl.activeB } }
    ∧ (canonical s → ∀ l, t.leaf l = { scratch := (s.leaf l).scratch }))
  ∧ ∀ (x : Straps) (s : State),
    (s.ctl.phase = .inReset →
      (3 ≤ x.ndieM1.toNat → ∃ t, exec (.blockResetEnd x) s = .next t
        ∧ t = { s with pwrokLow := false, rstLow := false, cxReset := false, straps := x, time := 0, tick := s.tick + 1,
                       ctl := { s.ctl with phase := .zeroing, tryB := s.ctl.activeB, blockHandle := t.ctl.blockHandle } })
      ∧ (x.ndieM1.toNat < 3 → exec (.blockResetEnd x) s = .next s))
    ∧ (s.ctl.phase ≠ .inReset → exec (.blockResetEnd x) s = .next s)

/-- O4. SRAM_ZEROED hands over to the boot ROM. IMAGE_CHECK, at start-up and at a restart, starts the bank's image where it is good, tries
the other bank after a first bad one, and enters safe mode after a second (the verdict on the signature is a free value: assumption log 11).
The model's own choices behind it: that a bank whose bytes the state holds is read from them, and that `img` is what an unwritten bank of
the boot store held before, is that of log 59; what a row does where its step is not due is that of log 4. -/
def Obligations.BootImage : Prop :=
  (∀ s : State, (s.ctl.phase = .zeroing →
      exec .sramZeroed s = .next { s with ctl := { s.ctl with phase := .readImage, tryB := s.ctl.activeB, triedBoth := false } })
    ∧ (s.ctl.phase ≠ .zeroing → exec .sramZeroed s = .next s))
  ∧ ∀ (img : List Byte) (b : Bank) (s : State), b = (s.ctl.bank s.ctl.tryB).fetched img →
    ((s.ctl.phase = .readImage ∨ (s.ctl.phase = .restarting ∧ s.ctl.imageOk = false ∧ s.ctl.confirm = none)) →
      ((s.ctl.bank s.ctl.tryB).bytes ≠ [] → b = s.ctl.bank s.ctl.tryB)
      ∧ (imageValid b.image = true → ∃ t, exec (.imageCheck img) s = .next t ∧ t = { s with ctl := t.ctl }
        ∧ t.ctl.phase = (if s.ctl.phase = .readImage then .readConfig else .restarting)
        ∧ t.ctl.imageOk = true ∧ t.ctl.activeB = s.ctl.tryB ∧ t.ctl.bank s.ctl.tryB = b.named .active
        ∧ t.ctl.runMajor = (b.named .active).major ∧ t.ctl.runMinor = (b.named .active).minor ∧ t.ctl.runPatch = (b.named .active).patch
        ∧ (s.ctl.tryB ≠ s.ctl.activeB → t.ctl.quietFallback = true) ∧ (s.ctl.tryB = s.ctl.activeB → t.ctl.quietFallback = s.ctl.quietFallback))
      ∧ (imageValid b.image = false → s.ctl.triedBoth = false → ∃ t, exec (.imageCheck img) s = .next t ∧ t = { s with ctl := t.ctl }
        ∧ t.ctl.tryB = !s.ctl.tryB ∧ t.ctl.triedBoth = true ∧ t.ctl.phase = s.ctl.phase ∧ t.ctl.activeB = s.ctl.activeB
        ∧ t.ctl.bank s.ctl.tryB = b ∧ t.ctl.bank (!s.ctl.tryB) = s.ctl.bank (!s.ctl.tryB))
      ∧ (imageValid b.image = false → s.ctl.triedBoth = true → ∃ t, exec (.imageCheck img) s = .next t ∧ t.ctl.phase = .safe
        ∧ t.ctl.activeB = s.ctl.activeB ∧ recordsOnly { s with ctl := t.ctl } t))
    ∧ (s.ctl.phase ≠ .readImage → (s.ctl.phase ≠ .restarting ∨ s.ctl.imageOk = true ∨ s.ctl.confirm ≠ none) →
      exec (.imageCheck img) s = .next s)

/-- O5. CONFIG_RECORD_LOAD takes the record's values into the shadow global set when the record is good and the defaults when it
is not, and sets the bits of the leaves already failed again; STARTUP_SELF_TEST_DONE ends the self-test: the first passes follow, or the first
commit where they are already done.
The model's own choices behind it: the mask of the policy's reserved bits, and what a repeated step does with the leaves that failed before,
are those of assumption log 59; what a row does where its step is not due is that of log 4. -/
def Obligations.StartupConfig : Prop :=
  (∀ (r : List Byte) (s : State), s.ctl.phase = .readConfig →
    ∃ t, exec (.configRecordLoad r) s = .next t ∧ t = { s with ctl := t.ctl, cfg := t.cfg }
      ∧ t.ctl = { s.ctl with
          noRecord := !recordOk s.n r
          phase := if s.ctl.selfTested = true then (if s.passesDone = true then .firstCommit else .firstPass) else .selfTest }
      ∧ (recordOk s.n r = true → t.cfg = { s.cfg with shadow := GlobalSet.markFailed { s.cfg.shadow with
          policy := BitVec.ofNat 128 (numAt r 8 16 &&& policyMask), disabled := BitVec.ofNat 8192 (numAt r 24 1024),
          budget := (List.range 32).foldl (fun t d => tset 1000 t d (BitVec.ofNat 16 (numAt r (1048 + 2 * d) 2))) [] } s.kiln.failedLeaves })
      ∧ (recordOk s.n r = false → t.cfg = { s.cfg with shadow := GlobalSet.markFailed { s.cfg.shadow with
          policy := 0x110000004#128, disabled := 0, budget := [] } s.kiln.failedLeaves }))
  ∧ (∀ (r : List Byte) (s : State), s.ctl.phase ≠ .readConfig → exec (.configRecordLoad r) s = .next s)
  ∧ (∀ (ps : List Part) (s : State), s.ctl.phase ≠ .selfTest → exec (.startupSelfTestDone ps) s = .next s)
  ∧ (∀ (ps : List Part) (s : State), s.ctl.phase = .selfTest → ∃ t, exec (.startupSelfTestDone ps) s = .next t
      ∧ t.ctl = { s.ctl with selfTested := true, phase := if t.passesDone then .firstCommit else .firstPass }
      ∧ t.pending = s.pending ∧ t.time = s.time ∧ t.cfg.active = s.cfg.active)
  ∧ ∀ (l : Nat) (s : State), s.ctl.phase = .selfTest → canonical s → s.leafExists l = true → (s.leaf l).failed = false →
    ∃ t, exec (.startupSelfTestDone [.leaf l]) s = .next t
      ∧ t.leaf l = { s.leaf l with failed := true, failReported := true, failCounted := true, enable := false,
                                   intStatus := setBit (s.leaf l).intStatus ibErrRecord }
      ∧ (∀ k, k ≠ l → t.leaf k = s.leaf k)
      ∧ t.cfg.shadow.disabled = s.cfg.shadow.disabled ||| BitVec.ofNat 8192 (2 ^ l)
      ∧ t.kiln.failedLeaves = insertRise l s.kiln.failedLeaves

/-- O6. FIRST_GLOBAL_COMMIT makes the shadow global set active under its generation plus 1 and forms the keys; CONTROLLER_SERVES sets
mc_ready on every port, and where the image came by an activation it ends that activation and goes on with what waits.
The model's own choices behind it: that the activities abandoned before are reported and the queue examined here too is that of assumption
log 78 and 80; what a row does where its step is not due is that of log 4. -/
def Obligations.StartupServes : Prop :=
  (∀ s : State, s.ctl.phase = .firstCommit → ∃ t, exec .firstGlobalCommit s = .next t
      ∧ t.ctl = { s.ctl with phase := .beforeServe }
      ∧ t.cfg.active = s.cfg.shadow ∧ t.cfg.activeGen = s.cfg.shadowGen + 1 ∧ t.cfg.shadowGen = s.cfg.shadowGen + 1
      ∧ t.cfg.reproKey = crc64 (reproImage t) ∧ t.cfg.exactKey = crc64 [0x02, 0x01, 0x01]
      ∧ t.pending = s.pending ∧ t.time = s.time ∧ t.links = s.links ∧ t.nodes = s.nodes ∧ t.ctls = s.ctls)
  ∧ (∀ s : State, s.ctl.phase ≠ .firstCommit → exec .firstGlobalCommit s = .next s)
  ∧ (∀ s : State, s.ctl.phase ≠ .beforeServe → exec .controllerServes s = .next s)
  ∧ ∀ s : State, s.ctl.phase = .beforeServe → ∃ u v : State,
      exec .controllerServes s = .next (if s.ctl.noRecord = true then v.controllerEvent 6 0 else v)
      ∧ v = (((u.endActivation 0).reportAbandoned).examineQueue).offer
      ∧ u = { s with ctl := u.ctl, ports := u.ports, smb := u.smb, trace := u.trace, counters := u.counters }
      ∧ u.ctl = { s.ctl with phase := .serving, mcFault := false, onEmergency := false, booted := true,
                             confirm := s.ctl.confirm.map (fun e => (e.1, s.time)) }
      ∧ (canonical s → ∀ p, p < 18 → bitOf (u.port p).intStatus.toNat mbMcReady = true)

/-! ### The reference and the pace generator -/

/-- O7. R33: block time starts at zero at block reset, advances by 10 on each edge of the reference, modulo 2^64, and so stays a
multiple of 10 until it wraps; without the reference an edge does nothing. An edge changes nothing else but a die slice's due pass. -/
def Obligations.BlockTime : Prop :=
  (∀ (src : ResetSource) (s t : State), exec (.blockResetAssert src) s = .next t → t.time = 0)
  ∧ ∀ s : State, s.awake = true →
    (s.refLost = false → ∃ t, exec .refclkEdge s = .next t ∧ t = { s with time := s.time + 10, dies := t.dies }
      ∧ ((s.time + 10).toNat % 31250 ≠ 0 → t.dies = s.dies)
      ∧ (s.time.toNat % 10 = 0 → s.time.toNat + 10 < 2 ^ 64 → t.time.toNat % 10 = 0))
    ∧ (s.refLost = true → exec .refclkEdge s = .next s)

/-- O8. Four rows, each of which answers a next state in every state. REF_LOST: the reference is marked lost, the pace generator has lost
its lock, a TIMING event is raised, and pacing that was active stops. REF_RETURN: the reference is marked back, with its event. PACE_LOCK: the
generator is locked, and pacing resumes where the paced mode is in force. A stop and a resumption leave every die slice's last pass older than
the change of pacing (R357). PACE_SWITCH puts the wanted pacing mode in force once no granted firing is left and every governor has moved, and
what waits is offered again; every live die slice's trims are stale, and a pass is due in each. Where its condition fails, a row changes nothing.
The model's own choices behind it: that the rows stand for moments that the surroundings give is that of assumption log 16, and what a row
does where its condition fails is that of log 4. -/
def Obligations.ReferenceAndPace : Prop :=
  (∀ s : State, s.awake = true → s.refLost = false → ∃ t, exec .refLost s = .next t
      ∧ recordsOnly { s with refLost := true, paceLocked := false, dies := t.dies } t
      ∧ (s.paceActive = false → t.dies = s.dies)
      ∧ (s.paceActive = true → canonical s → ∀ d, t.die d = (if d < s.n then { s.die d with passedPace := false } else s.die d)))
  ∧ (∀ s : State, (s.awake = false ∨ s.refLost = true) → exec .refLost s = .next s)
  ∧ (∀ s : State, s.refLost = true → ∃ t, exec .refReturn s = .next t ∧ recordsOnly { s with refLost := false } t)
  ∧ (∀ s : State, s.refLost = false → exec .refReturn s = .next s)
  ∧ (∀ s : State, s.awake = true → s.refLost = false → ∃ t, exec .paceLock s = .next t
      ∧ t = { s with paceLocked := true, dies := t.dies }
      ∧ ((s.paceMode = false ∨ s.paceLocked = true) → t.dies = s.dies)
      ∧ (s.paceMode = true → s.paceLocked = false → canonical s →
          ∀ d, t.die d = (if d < s.n then { s.die d with passedPace := false } else s.die d)))
  ∧ (∀ s : State, (s.awake = false ∨ s.refLost = true) → exec .paceLock s = .next s)
  ∧ (∀ s : State, s.awake = true → s.kiln.paceHold = true → (∀ f ∈ s.kiln.firings, f.st ≠ .granted) →
    (∀ d, d < s.n → s.dieLive d = true → (s.die d).moved s.paceWanted = true) →
    ∃ u : State, exec .paceSwitch s = .next u.offer ∧ u.paceMode = s.paceWanted ∧ u.kiln = { s.kiln with paceHold := false }
      ∧ u = { s with paceMode := u.paceMode, kiln := u.kiln, dies := u.dies, ports := u.ports, smb := u.smb, trace := u.trace,
                     counters := u.counters }
      ∧ (canonical s → ∀ d, d < s.n → s.dieLive d = true →
          (u.die d).trimStale = true ∧ (u.die d).passedPace = false ∧ (u.die d).sched = true))
  ∧ ∀ s : State, (s.awake = false ∨ s.kiln.paceHold = false ∨ (∃ f ∈ s.kiln.firings, f.st = .granted)
      ∨ ∃ d, d < s.n ∧ s.dieLive d = true ∧ (s.die d).moved s.paceWanted = false) → exec .paceSwitch s = .next s

/-! ### The leaf port's registers -/

/-- O9. LP_ENABLE and LP_DISABLE: what a write of LP_CTRL without reset does. A leaf port that is to start needs a chunk size of
2^8 to 2^12 B, a ring and a queue laid out as R254 wants, nothing outstanding and no failure; a chunk size may not change while it is
enabled; a write that breaks a condition changes nothing but config_err, and any other takes effect whole.
The model's own choices behind it: that a failed leaf port refuses to start and that an accepted write clears config_err are those of
assumption log 19; what a row does at a leaf port that is not built or in reset is that of log 4. -/
def Obligations.LeafControl : Prop :=
  ∀ (l : Nat) (v : Word) (s : State),
    (s.leafLive l = false → exec (.lpEnable l v) s = .next s ∧ exec (.lpDisable l v) s = .next s)
    ∧ (s.leafLive l = true → bitOf v.toNat 1 = false →
      (bitOf v.toNat 0 = true →
        ((s.leaf l).enable = false → 8 ≤ slice v.toNat 8 4 → slice v.toNat 8 4 ≤ 12 → (s.leaf l).ringOk = true →
            (s.leaf l).outstanding = 0 → (s.leaf l).failed = false →
          exec (.lpEnable l v) s = .next (s.setLeaf l { s.leaf l with
            enable := true, chunkLog2 := BitVec.ofNat 4 (slice v.toNat 8 4), cqThresh := BitVec.ofNat 4 (slice v.toNat 12 4),
            configErr := false, ringHead := 0, ringTail := 0, cqTail := 0, cqHead := 0, flogCount := 0, cqFull := false, next := 0,
            held := [], retired := [] }))
        ∧ ((s.leaf l).enable = false → ¬ (8 ≤ slice v.toNat 8 4 ∧ slice v.toNat 8 4 ≤ 12 ∧ (s.leaf l).ringOk = true ∧
            (s.leaf l).outstanding = 0 ∧ (s.leaf l).failed = false) →
          exec (.lpEnable l v) s = .next (s.setLeaf l { s.leaf l with configErr := true }))
        ∧ ((s.leaf l).enable = true → BitVec.ofNat 4 (slice v.toNat 8 4) ≠ (s.leaf l).chunkLog2 →
          exec (.lpEnable l v) s = .next (s.setLeaf l { s.leaf l with configErr := true }))
        ∧ ((s.leaf l).enable = true → BitVec.ofNat 4 (slice v.toNat 8 4) = (s.leaf l).chunkLog2 →
          exec (.lpEnable l v) s = .next (s.setLeaf l { s.leaf l with
            cqThresh := BitVec.ofNat 4 (slice v.toNat 12 4), configErr := false })))
      ∧ (bitOf v.toNat 0 = false →
        (((s.leaf l).enable = false ∨ BitVec.ofNat 4 (slice v.toNat 8 4) = (s.leaf l).chunkLog2) →
          exec (.lpDisable l v) s = .next (s.setLeaf l { s.leaf l with
            enable := false, chunkLog2 := BitVec.ofNat 4 (slice v.toNat 8 4), cqThresh := BitVec.ofNat 4 (slice v.toNat 12 4),
            configErr := false }))
        ∧ ((s.leaf l).enable = true → BitVec.ofNat 4 (slice v.toNat 8 4) ≠ (s.leaf l).chunkLog2 →
          exec (.lpDisable l v) s = .next (s.setLeaf l { s.leaf l with configErr := true }))))

/-- O10. LP_RESET sets reset_busy and clears enable; a second one has no effect; LP_RESET_DONE, once everything taken has ended and its
result writes are complete, returns the registers to their reset values, the accumulators to NEVER_WRITTEN and the push buffer to zero, and
sets reset_done; before that it changes nothing.
The model's own choices behind it: what becomes of a pass taken and not begun, and of a firing not armed, is that of assumption log 18; that
a second reset write is ignored is that of log 19; that a write with reset 1 starts the reset whatever its other fields is that of log 93;
when a result counts as written is that of log 39. -/
def Obligations.LeafReset : Prop :=
  (∀ (l : Nat) (v : Word) (s : State), s.leafLive l = true → bitOf v.toNat 1 = true →
    ((s.leaf l).resetBusy = true → exec (.lpReset l v) s = .next s)
    ∧ (canonical s → (s.leaf l).resetBusy = false → ∃ t, exec (.lpReset l v) s = .next t
        ∧ (t.leaf l).resetBusy = true ∧ (t.leaf l).enable = false ∧ (t.leaf l).held = [] ∧ (t.leaf l).bisque = (s.leaf l).bisque
        ∧ (t.leaf l).scratch = (s.leaf l).scratch
        ∧ t = { s with leaves := t.leaves, ctls := t.ctls } ∧ (∀ k, k ≠ l → t.leaf k = s.leaf k)
        ∧ ∀ k, k ≠ leafCtl l → t.ctlNode k = s.ctlNode k))
  ∧ (∀ (l : Nat) (v : Word) (s : State), s.leafLive l = false → exec (.lpReset l v) s = .next s)
  ∧ ∀ (l : Nat) (s : State),
    ((s.leaf l).resetBusy = true → (s.leaf l).allEnded = true → (∀ x ∈ (s.leaf l).taken, x.writes = [] ∧ s.allTaken l x = true) →
      ∃ q, exec (.lpResetDone l) s = .next (s.setLeaf l q)
        ∧ q.enable = false ∧ q.resetBusy = false ∧ q.chunkLog2 = 0xC ∧ q.cqThresh = 0 ∧ q.ringLog2 = 8 ∧ q.ringBase = 0 ∧ q.cqBase = 0
        ∧ q.ringTail = 0 ∧ q.ringHead = 0 ∧ q.cqTail = 0 ∧ q.cqHead = 0 ∧ q.intEnable = 0 ∧ q.pushFault = 0 ∧ q.drainRefuse = 0
        ∧ q.flogCount = 0 ∧ q.chunkFaults = 0 ∧ q.pushFaults = 0 ∧ q.drainsRefused = 0 ∧ q.taken = [] ∧ q.bisque = [] ∧ q.pushBuf = []
        ∧ q.intStatus = setBit 0 ibResetDone ∧ q.rank = (s.leaf l).rank
        ∧ ((s.leaf l).taken = [] → q.scratch = (s.leaf l).scratch))
    ∧ ((s.leaf l).resetBusy = false ∨ (s.leaf l).allEnded = false ∨ (∃ x ∈ (s.leaf l).taken, x.writes ≠ [] ∨ s.allTaken l x = false) →
      exec (.lpResetDone l) s = .next s)

/-- O11. R256: which writes of LP_DOORBELL are accepted, and what each leaves. (A write of the current tail where more than E descriptors
already wait is left to O13: R256's sentences disagree there.) -/
def Obligations.Doorbell : Prop :=
  ∀ (l : Nat) (v : Word) (s : State), s.leafLive l = true →
    (((v.setWidth 16 - (s.leaf l).ringHead : BitVec 16).toNat ≤ (s.leaf l).e ∧ (v.setWidth 16 - (s.leaf l).ringTail : BitVec 16).toNat ≤ (s.leaf l).e) →
      exec (.lpDoorbell l v) s = .next (s.setLeaf l { s.leaf l with ringTail := v.setWidth 16 }))
    ∧ (¬ ((v.setWidth 16 - (s.leaf l).ringHead : BitVec 16).toNat ≤ (s.leaf l).e ∧ (v.setWidth 16 - (s.leaf l).ringTail : BitVec 16).toNat ≤ (s.leaf l).e) →
      (v.setWidth 16 ≠ (s.leaf l).ringTail ∨ ((s.leaf l).ringTail - (s.leaf l).ringHead).toNat ≤ (s.leaf l).e) →
      exec (.lpDoorbell l v) s = .next (s.setLeaf l { s.leaf l with intStatus := setBit (s.leaf l).intStatus ibDbErr }))
    ∧ (canonical s → ((s.leaf l).ringTail - (s.leaf l).ringHead).toNat ≤ (s.leaf l).e → v.setWidth 16 = (s.leaf l).ringTail →
      exec (.lpDoorbell l v) s = .next s)

/-- O12. R257: which writes of LP_CQ_HEAD are accepted; a freed entry ends cq_full (R269). -/
def Obligations.CqHead : Prop :=
  ∀ (l : Nat) (v : Word) (s : State), s.leafLive l = true →
    ((v.setWidth 16 - (s.leaf l).cqHead : BitVec 16).toNat ≤ ((s.leaf l).cqTail - (s.leaf l).cqHead).toNat →
      exec (.lpCqHeadWrite l v) s = .next (s.setLeaf l { s.leaf l with
        cqHead := v.setWidth 16, cqFull := (s.leaf l).cqFull && decide ((s.leaf l).e ≤ ((s.leaf l).cqTail - v.setWidth 16 : BitVec 16).toNat) }))
    ∧ (((s.leaf l).cqTail - (s.leaf l).cqHead).toNat < (v.setWidth 16 - (s.leaf l).cqHead : BitVec 16).toNat →
      exec (.lpCqHeadWrite l v) s = .next (s.setLeaf l { s.leaf l with intStatus := setBit (s.leaf l).intStatus ibCqHeadErr }))

/-- O13. LP_INT_STATUS_CLEAR clears the bits written as 1; REGISTER_WRITE sets the interrupt enables of a leaf port and of a mailbox
port, sets the ring and queue registers of a leaf port that is idle and refuses them while it is not, and ignores an access that is not
an aligned 32-bit one; one in the push window is a refused push; a register that is not writable ignores a store. An LP_DOORBELL write of the
current tail where more than E descriptors wait sets db_err.
The model's own choices behind it: that doorbell clause is the model's reading of R256 (assumption log 93); that an accepted write of a ring
register clears config_err is that of log 19; that ports 16 and 17 have no window for this row is that of log 66. -/
def Obligations.RegisterWrites : Prop :=
  ∀ (l : Nat) (v : Word) (s : State), s.leafLive l = true →
    exec (.lpIntStatusClear l v) s = .next (s.setLeaf l { s.leaf l with intStatus := (s.leaf l).intStatus &&& ~~~v })
    ∧ exec (.registerWrite (.leaf l) 0x30 false v) s = .next (s.setLeaf l { s.leaf l with intEnable := v &&& 0x1FF })
    ∧ (∀ off, (off < 0x1000 ∨ 0x2000 ≤ off) → exec (.registerWrite (.leaf l) off true v) s = .next s)
    ∧ (∀ off, off < 0x1000 → off % 4 ≠ 0 → exec (.registerWrite (.leaf l) off false v) s = .next s)
    ∧ (∀ off ∈ [0x00, 0x08, 0x1C, 0x20, 0x24, 0x34, 0x38], exec (.registerWrite (.leaf l) off false v) s = .next s)
    ∧ (∀ off wide, 0x1000 ≤ off → off < 0x2000 → exec (.registerWrite (.leaf l) off wide v) s = exec (.lpPush l (off - 0x1000) false 0) s)
    ∧ ((s.leaf l).enable = false → (s.leaf l).outstanding = 0 →
        exec (.registerWrite (.leaf l) 0x0C false v) s = .next (s.setLeaf l { s.leaf l with ringLog2 := v.setWidth 4, configErr := false })
        ∧ exec (.registerWrite (.leaf l) 0x10 false v) s = .next (s.setLeaf l { s.leaf l with ringBase := v &&& 0xFFFFFFE0, configErr := false })
        ∧ exec (.registerWrite (.leaf l) 0x14 false v) s = .next (s.setLeaf l { s.leaf l with cqBase := v &&& 0xFFFFFFE0, configErr := false }))
    ∧ (((s.leaf l).enable = true ∨ (s.leaf l).outstanding ≠ 0) → ∀ off ∈ [0x0C, 0x10, 0x14],
        exec (.registerWrite (.leaf l) off false v) s = .next (s.setLeaf l { s.leaf l with configErr := true }))
    ∧ ((s.leaf l).e < ((s.leaf l).ringTail - (s.leaf l).ringHead).toNat → v.setWidth 16 = (s.leaf l).ringTail →
        exec (.lpDoorbell l v) s = .next (s.setLeaf l { s.leaf l with intStatus := setBit (s.leaf l).intStatus ibDbErr }))
    ∧ ∀ p, p < 16 → exec (.registerWrite (.port p) 0x200C false v) s = .next (s.setPort p { s.port p with intEnable := v &&& 0x1F })
        ∧ exec (.registerWrite (.port p) 0x200C true v) s = .next s

/-- O14. A push is whole or nothing: an aligned 128-bit store to an unlocked line of a running leaf port writes 16 bytes of the push
buffer and nothing else; any other writes none and records its cause: 3 in a reset, 2 for a width or alignment, 3 for a leaf port that does
not run, 1 for a locked line.
The model's own choices behind it: the order of the causes outside a reset is that of assumption log 35. -/
def Obligations.Push : Prop :=
  ∀ (l off : Nat) (wide : Bool) (x : BitVec 128) (s : State), s.leafLive l = true → off < 4096 →
    (wide = true → off % 16 = 0 → (s.leaf l).running = true → (s.leaf l).lineLocked (off / 16) = false →
      exec (.lpPush l off wide x) s = .next (s.setLeaf l { s.leaf l with
        pushBuf := tsetRun 0 (s.leaf l).pushBuf off (leBytes 16 x.toNat) }))
    ∧ ∀ cause, (if (s.leaf l).resetBusy = true then cause = 3 else if wide = true ∧ off % 16 = 0 then (if (s.leaf l).running = true then
          (if (s.leaf l).lineLocked (off / 16) = true then cause = 1 else False) else cause = 3) else cause = 2) →
        exec (.lpPush l off wide x) s = .next (s.setLeaf l { s.leaf l with
          pushFault := BitVec.ofNat 32 (cause * 2 ^ 28 + off), pushFaults := satInc (s.leaf l).pushFaults,
          intStatus := setBit (s.leaf l).intStatus ibPushFault })

/-- O15. A drain is accepted exactly when no reset runs and its slot holds a taken firing with stream set, of the drain's format, not all
tiles in, and not ended (R277); an accepted tile is written where R245 says, any other is recorded and writes nothing. TILE_LANDED marks an
accepted tile, and does nothing for a tile not accepted.
The model's own choices behind it: which of several causes is recorded is that of assumption log 35. -/
def Obligations.TileDrain : Prop :=
  (∀ (l slot fmt : Nat) (bs : List Byte) (s : State), s.leafLive l = true →
    (∀ x, (s.leaf l).resetBusy = false → (s.leaf l).inSlot slot = some x → x.phase ≠ .pass → x.desc.stream = true → fmt = x.desc.inF →
        drainFmt fmt = true → x.tilesIn < tilesOf x.desc → x.ended = none →
      exec (.tileDrain l slot fmt bs) s = .next (s.setLeaf l
        (((s.leaf l).storeOrPush (x.desc.src + 1024 * x.tilesIn * x.desc.b)
          (bytesAt bs 0 (min 1024 (streamElems x.desc - 1024 * x.tilesIn) * x.desc.b))).modTaken x.cnt
            (fun y => { y with tilesIn := y.tilesIn + 1 }))))
    ∧ ((¬ ∃ x, (s.leaf l).resetBusy = false ∧ (s.leaf l).inSlot slot = some x ∧ x.phase ≠ .pass ∧ x.desc.stream = true ∧ fmt = x.desc.inF
        ∧ drainFmt fmt = true ∧ x.tilesIn < tilesOf x.desc ∧ x.ended = none) →
      ∃ cause, 1 ≤ cause ∧ cause ≤ 4 ∧ exec (.tileDrain l slot fmt bs) s = .next (s.setLeaf l { s.leaf l with
        drainRefuse := BitVec.ofNat 32 (cause * 2 ^ 28 + slot % 256), drainsRefused := satInc (s.leaf l).drainsRefused,
        intStatus := setBit (s.leaf l).intStatus ibDrainRefused })))
  ∧ ∀ (l slot tile : Nat) (s : State),
    (∀ x, (s.leaf l).inSlot slot = some x → tile < x.tilesIn →
      exec (.tileLanded l slot tile) s = .next (s.setLeaf l ((s.leaf l).modTaken x.cnt
        (fun y => { y with landed := insertRise tile y.landed }))))
    ∧ ((∀ x, (s.leaf l).inSlot slot = some x → x.tilesIn ≤ tile) → exec (.tileLanded l slot tile) s = .next s)

/-! ### Taking, arming, chunks and passes -/

/-- O16. TAKE_DESCRIPTOR on a running leaf port: the first held descriptor that no rule holds any more goes first. With none held and one
untaken in the ring, a firing that no rule holds is taken with what its checks found and tags every accumulator it names, one that a rule holds
is held; a pass is taken and tags its accumulator, ended at once with MISMATCH where it is malformed and with DENIED where a firing holds the
tag; a failed slot read stops the leaf port. On a leaf port that does not run, or with nothing untaken, nothing happens.
The model's own choices behind it: what the slot read returned is an operand (assumption log 2); which rule holds what, and that a refused
descriptor sets its tags too, are those of log 33. -/
def Obligations.TakeDescriptor : Prop :=
  (∀ (l : Nat) (w : Option (BitVec 1024)) (segs : List (BitVec 256)) (s : State),
    ((s.leaf l).running = false ∨ (s.leaf l).failed = true ∨ ((s.leaf l).held = [] ∧ (s.leaf l).next = (s.leaf l).ringTail) →
      exec (.takeDescriptor l w segs) s = .next s)
    ∧ ∀ h, (s.leaf l).running = true → (s.leaf l).failed = false → (s.leaf l).firstFree [] (s.leaf l).held = some h →
      exec (.takeDescriptor l w segs) s
        = .next ((s.setLeaf l { s.leaf l with held := (s.leaf l).held.filter (fun x => x.1 != h.1) }).take l h))
  ∧ ∀ (l : Nat) (s : State), canonical s → (s.leaf l).running = true → (s.leaf l).failed = false → (s.leaf l).held = [] →
    (s.leaf l).next ≠ (s.leaf l).ringTail →
    (∀ (w : BitVec 1024) (segs : List (BitVec 256)), isPass w = false →
      ((s.leaf l).takeRule [] (s.leaf l).next w = .free →
        ∃ t x, exec (.takeDescriptor l (some w) segs) s = .next t ∧ leafOnly s t l
          ∧ t.leaf l = { s.leaf l with
              next := (s.leaf l).next + 1, taken := (s.leaf l).taken ++ [x]
              bisque := (descOf w).bisques.foldl (fun b i => tmod {} b i (fun a => { a with tags := a.tags ++ [(s.leaf l).next] })) (s.leaf l).bisque }
          ∧ x.cnt = (s.leaf l).next ∧ x.words = w ∧ x.segs = segs.take (descOf w).segCount ∧ x.phase = .taken ∧ x.ended = none
          ∧ x.invalid = invalidCode w (segs.take (descOf w).segCount) (s.cfg.who (descOf w).group l)
          ∧ (x.denied = true ↔ ∃ i ∈ (descOf w).bisques, (tget {} (s.leaf l).bisque i).tags ≠ []))
      ∧ ((s.leaf l).takeRule [] (s.leaf l).next w ≠ .free → exec (.takeDescriptor l (some w) segs) s = .next (s.setLeaf l { s.leaf l with
          next := (s.leaf l).next + 1, held := [((s.leaf l).next, w, segs.take (descOf w).segCount)] })))
    ∧ (∀ (w : BitVec 1024) (segs : List (BitVec 256)), isPass w = true →
      ∃ t x, exec (.takeDescriptor l (some w) segs) s = .next t ∧ leafOnly s t l
        ∧ t.leaf l = { s.leaf l with
            next := (s.leaf l).next + 1, taken := (s.leaf l).taken ++ [x],
            bisque := tmod {} (s.leaf l).bisque (passIdx w) (fun a => { a with tags := a.tags ++ [(s.leaf l).next] }) }
        ∧ x.cnt = (s.leaf l).next ∧ x.words = w ∧ x.phase = .pass
        ∧ (∀ c, passInvalid w = some c → x.passEnd = some (stMismatch, BitVec.ofNat 8 c, 0))
        ∧ (passInvalid w = none → (s.leaf l).tagHeld (passIdx w) = true → x.passEnd = some (stDenied, 0, 0))
        ∧ (passInvalid w = none → (s.leaf l).tagHeld (passIdx w) = false → x.passEnd = none))
    ∧ ∀ segs, ∃ q, exec (.takeDescriptor l none segs) s = .next (s.setLeaf l q) ∧ q.failed = true ∧ q.enable = false
        ∧ q.flogCount = satInc (s.leaf l).flogCount ∧ q.scratch = (s.leaf l).scratch ∧ q.bisque = (s.leaf l).bisque
        ∧ bitOf q.intStatus.toNat ibErrRecord = true

/-- O17. SEND_ARM sends the oldest taken firing's ARM into its cluster node and waits for the grant; without a rank the firing ends at
once with FAULT, class LEAF_DISABLED, and no ARM is sent. A failed leaf port, one with nothing to arm, and one that still waits for a probe, or
in paced operation for its first chunks, sends nothing.
The model's own choices behind it: the record of LEAF_DISABLED before a grant is that of assumption log 37, the fields that an ARM carries
beside Table 9.2 are those of log 6. -/
def Obligations.SendArm : Prop :=
  (∀ (l : Nat) (s : State), ((s.leaf l).failed = true ∨ (s.leaf l).taken.find? (fun t => t.phase == .taken && t.ended.isNone) = none) →
    exec (.sendArm l) s = .next s)
  ∧ ∀ (l : Nat) (x : Taken) (s : State), canonical s → (s.leaf l).failed = false →
    (s.leaf l).taken.find? (fun t => t.phase == .taken && t.ended.isNone) = some x →
    ((s.leaf l).rank ≠ 0xFFFF → (x.desc.ragTail = true → x.invalid = none → x.probe ≠ none) →
        (s.paceActive = true → x.stagedFor (s.leaf l).chunk = true) →
      ∃ t, exec (.sendArm l) s = .next t ∧ t = { s with leaves := t.leaves, ctls := t.ctls }
        ∧ t.leaf l = (s.leaf l).modTaken x.cnt (fun y => { y with phase := .waiting })
        ∧ (∀ k, k ≠ l → t.leaf k = s.leaf k)
        ∧ t.ctlNode (leafCtl l) = { s.ctlNode (leafCtl l) with
            inq := (s.ctlNode (leafCtl l)).inq ++ [(inputOf (leafQ l) l, armOf l (s.leaf l) x)] }
        ∧ ∀ k, k ≠ leafCtl l → t.ctlNode k = s.ctlNode k)
    ∧ ((s.leaf l).rank ≠ 0xFFFF →
        ((x.desc.ragTail = true ∧ x.invalid = none ∧ x.probe = none) ∨ (s.paceActive = true ∧ x.stagedFor (s.leaf l).chunk = false)) →
      exec (.sendArm l) s = .next s)
    ∧ ((s.leaf l).rank = 0xFFFF → ∃ e, exec (.sendArm l) s = .next (s.setLeaf l ((s.leaf l).modTaken x.cnt (fun y => { y with ended := some e })))
        ∧ e.status = stFault ∧ e.code = clLeafDisabled ∧ e.noGrant = true ∧ e.ts = s.time)

/-- O18. RAG_TAIL_PROBE measures the count of a ragged tail: the whole count where nothing faults, the first faulting element where it
is not element 0; a fault at element 0 is a chunk fault of chunk 0, of the class that the read gave. Where no probe is due nothing happens.
The model's own choices behind it: where the reads stopped is an operand (assumption log 2); what a fault at element 0 is, is that of log 32. -/
def Obligations.RagTailProbe : Prop :=
  (∀ (l slot : Nat) (r : Option (Nat × IoClass)) (s : State),
    (∀ x, (s.leaf l).inSlot slot = some x →
      x.phase ≠ .taken ∨ x.desc.ragTail = false ∨ x.invalid ≠ none ∨ x.probe ≠ none ∨ x.ended ≠ none) →
    exec (.ragTailProbe l slot r) s = .next s)
  ∧ ∀ (l slot : Nat) (x : Taken) (c : IoClass) (s : State), (s.leaf l).inSlot slot = some x → x.phase = .taken → x.desc.ragTail = true →
    x.invalid = none → x.probe = none → x.ended = none →
    (exec (.ragTailProbe l slot none) s = .next (s.setLeaf l ((s.leaf l).modTaken x.cnt (fun y => { y with probe := some x.desc.count }))))
    ∧ (∀ e, x.desc.count ≤ e →
        exec (.ragTailProbe l slot (some (e, c))) s = .next (s.setLeaf l ((s.leaf l).modTaken x.cnt (fun y => { y with probe := some x.desc.count }))))
    ∧ (∀ e, 0 < e → e < x.desc.count →
        exec (.ragTailProbe l slot (some (e, c))) s = .next (s.setLeaf l ((s.leaf l).modTaken x.cnt (fun y => { y with probe := some e }))))
    ∧ (0 < x.desc.count → ∃ q, exec (.ragTailProbe l slot (some (0, c))) s = .next (s.setLeaf l q)
        ∧ q.chunkFaults = satInc (s.leaf l).chunkFaults ∧ q.intStatus = setBit (s.leaf l).intStatus ibChunkFault
        ∧ q.flogCount = satInc (s.leaf l).flogCount
        ∧ slice (tget 0 q.flog ((satInc (s.leaf l).flogCount).toNat - 1)).toNat 8 8 = (match c with | .addr => clReadAddr | .data => clReadData).toNat
        ∧ q.scratch = (s.leaf l).scratch)

/-- O19. CHUNK_READ_DONE stages a chunk of an input area that R271 lets the leaf port read now, in ascending order, or records the read
fault; a streamed contribution's bytes are those drained into scratchpad. CHUNK_WRITE_DONE puts the chunk's result bytes into scratchpad and
changes no other byte there; a write that fails is a chunk fault. A chunk that is not due leaves everything as it is.
The model's own choices behind it: what a read returned is an operand (assumption log 2), how far reading runs ahead is that of log 34, where
result bytes wait is that of log 39, and the bytes of a failed write are free values (log 12). -/
def Obligations.Chunks : Prop :=
  (∀ (l slot ix first : Nat) (area : Area) (rg : Range) (x : Taken) (s : State), (s.leaf l).inSlot slot = some x →
    x.areaOf (s.leaf l).chunk ix = some (first, rg) → rg.input = true → rg.area = area →
    (x.phase ≠ .pass → x.ended = none → x.invalid = none → (x.desc.ragTail = true → x.probe ≠ none) →
      x.mayRead (s.leaf l).chunk ix first rg = true →
      x.tilesLanded rg (chunkSpan (s.leaf l).chunk ix first rg).1 (chunkSpan (s.leaf l).chunk ix first rg).2 = true →
      (∀ bs, ∃ c, exec (.chunkReadDone l slot area ix (.ok bs)) s = .next (s.setLeaf l ((s.leaf l).modTaken x.cnt
          (fun y => { y with chunks := y.chunks ++ [c] }))) ∧ c.area = area ∧ c.ix = ix
          ∧ c.data = some ((s.leaf l).sourceBytes (chunkSpan (s.leaf l).chunk ix first rg).1
              (if x.desc.stream = true ∧ area = .src then
                tgetRun 0 (s.leaf l).scratch (chunkSpan (s.leaf l).chunk ix first rg).1 (chunkSpan (s.leaf l).chunk ix first rg).2 else bs)
              (chunkSpan (s.leaf l).chunk ix first rg).2))
      ∧ ∀ k, ∃ q, exec (.chunkReadDone l slot area ix (.bad k)) s = .next (s.setLeaf l q)
          ∧ q.chunkFaults = satInc (s.leaf l).chunkFaults ∧ q.flogCount = satInc (s.leaf l).flogCount
          ∧ q.intStatus = setBit (s.leaf l).intStatus ibChunkFault ∧ q.scratch = (s.leaf l).scratch ∧ q.bisque = (s.leaf l).bisque)
    ∧ (x.mayRead (s.leaf l).chunk ix first rg = true → x.hasChunk ix = false
      ∧ ∀ j, first ≤ j → j < ix → x.hasChunk j = true ∨ x.wanted (s.leaf l).chunk j first rg = false)
    ∧ (x.mayRead (s.leaf l).chunk ix first rg = false ∨ x.phase = .pass ∨ x.ended ≠ none ∨ x.invalid ≠ none →
      ∀ r, exec (.chunkReadDone l slot area ix r) s = .next s))
  ∧ ∀ (l slot ix first : Nat) (rg : Range) (x : Taken) (s : State), (s.leaf l).inSlot slot = some x → x.phase ≠ .pass →
    x.areaOf (s.leaf l).chunk ix = some (first, rg) → rg.input = false →
    ((∃ w ∈ x.writes, (chunkSpan (s.leaf l).chunk ix first rg).1 ≤ w.1
        ∧ w.1 < (chunkSpan (s.leaf l).chunk ix first rg).1 + (chunkSpan (s.leaf l).chunk ix first rg).2) → ¬ ix ∈ x.badAt →
      (∃ q, exec (.chunkWriteDone l slot ix true) s = .next (s.setLeaf l q)
        ∧ q = { s.leaf l with scratch := q.scratch, taken := q.taken }
        ∧ (∀ a, ¬ ((chunkSpan (s.leaf l).chunk ix first rg).1 ≤ a
              ∧ a < (chunkSpan (s.leaf l).chunk ix first rg).1 + (chunkSpan (s.leaf l).chunk ix first rg).2) →
            q.byteAt a = (s.leaf l).byteAt a)
        ∧ ∀ a b, x.writes = [(a, b)] → canonical s → q.byteAt a = b)
      ∧ (canonical s → ∃ t, exec (.chunkWriteDone l slot ix false) s = .next t
        ∧ t = { s with leaves := t.leaves, tick := s.tick + 1, kiln := t.kiln, faultLog := t.faultLog, ports := t.ports, smb := t.smb,
                       trace := t.trace, counters := t.counters }
        ∧ (t.leaf l).chunkFaults = satInc (s.leaf l).chunkFaults ∧ bitOf (t.leaf l).intStatus.toNat ibChunkFault = true
        ∧ (∀ k, k ≠ l → t.leaf k = s.leaf k)
        ∧ ∀ a, ¬ ((chunkSpan (s.leaf l).chunk ix first rg).1 ≤ a
              ∧ a < (chunkSpan (s.leaf l).chunk ix first rg).1 + (chunkSpan (s.leaf l).chunk ix first rg).2) →
            (t.leaf l).byteAt a = (s.leaf l).byteAt a))
    ∧ ((∀ w ∈ x.writes, ¬ ((chunkSpan (s.leaf l).chunk ix first rg).1 ≤ w.1
        ∧ w.1 < (chunkSpan (s.leaf l).chunk ix first rg).1 + (chunkSpan (s.leaf l).chunk ix first rg).2)) →
      ∀ ok, exec (.chunkWriteDone l slot ix ok) s = .next s)

/-- O20. The seven bisque passes: BISQUE_CLEAR, BISQUE_LOAD, BISQUE_ADD_SUM, BISQUE_ADD_SUMSQ, BISQUE_ADD_DOT, BISQUE_ADD_SHERD and BISQUE_STORE.
Each acts on the oldest pass not yet ended when its action is the command's, on an accumulator that is not damaged, and ends it: CLEAR leaves
EMPTY; LOAD what its sherd says, or RANGE where it is malformed; an ADD, with `first` or on an accumulator once written, the sum on the base
(nothing with `first` or on EMPTY, else the value held), or RANGE where the sum is; STORE writes the canonical value, or the absent header
of EMPTY, and leaves the accumulator. A pass that ends with OK commits its accumulator; the scratchpad and every other descriptor are else as
before. A command whose pass does not run changes nothing.
The model's own choices behind it: what a read returned, and whether a write failed, are operands (assumption log 2); what a row does where
its pass does not run is that of log 4. -/
def Obligations.BisquePasses : Prop :=
  (∀ (l : Nat) (s : State),
    ((s.leaf l).pass 0 = none → exec (.bisqueClear l) s = .next s)
    ∧ (∀ r, (s.leaf l).pass 1 = none → exec (.bisqueLoad l r) s = .next s)
    ∧ (∀ r, (s.leaf l).pass 2 = none → exec (.bisqueAddSum l r) s = .next s)
    ∧ (∀ r, (s.leaf l).pass 3 = none → exec (.bisqueAddSumsq l r) s = .next s)
    ∧ (∀ r u, (s.leaf l).pass 4 = none → exec (.bisqueAddDot l r u) s = .next s)
    ∧ (∀ r, (s.leaf l).pass 5 = none → exec (.bisqueAddSherd l r) s = .next s)
    ∧ ∀ r, (s.leaf l).pass 6 = none → exec (.bisqueStore l r) s = .next s)
  ∧ (∀ (p : LeafPort) (x : Taken) (b : Bisque) (xs : List Sherd),
    ((sherdSum (passBase x b, false) xs).2 = true → p.commitSum x b xs = p.endPass x stRange 0 0 none)
    ∧ (sherdSum (passBase x b, false) xs = (none, false) → p.commitSum x b xs = p.endPass x stOk 0 0 (some (.empty, {})))
    ∧ (∀ v, sherdSum (passBase x b, false) xs = (some v, false) → p.commitSum x b xs = p.endPass x stOk 0 0 (some (.held, v)))
    ∧ ((passFirst x.words = true ∨ b.st ≠ .held) → passBase x b = none)
    ∧ (passFirst x.words = false → b.st = .held → passBase x b = some b.val))
  ∧ ∀ (l : Nat) (x : Taken) (b : Bisque) (s : State), b = tget {} (s.leaf l).bisque (passIdx x.words) → b.damaged = false →
    ((s.leaf l).pass 0 = some x →
      exec (.bisqueClear l) s = .next (s.setLeaf l ((s.leaf l).endPass x stOk 0 0 (some (.empty, {})))))
    ∧ (∀ bs, (s.leaf l).pass 1 = some x →
      (∀ v, readOneSherd ((s.leaf l).sourceBytes (slice x.words.toNat 192 32) bs sherdMax) = some (some v) →
        exec (.bisqueLoad l (.ok bs)) s = .next (s.setLeaf l ((s.leaf l).endPass x stOk 0 0 (some (.held, v)))))
      ∧ (readOneSherd ((s.leaf l).sourceBytes (slice x.words.toNat 192 32) bs sherdMax) = some none →
        exec (.bisqueLoad l (.ok bs)) s = .next (s.setLeaf l ((s.leaf l).endPass x stOk 0 0 (some (.empty, {})))))
      ∧ (readOneSherd ((s.leaf l).sourceBytes (slice x.words.toNat 192 32) bs sherdMax) = none →
        exec (.bisqueLoad l (.ok bs)) s = .next (s.setLeaf l ((s.leaf l).endPass x stRange 0 0 none))))
    ∧ (passFirst x.words = true ∨ b.st ≠ .neverWritten →
      (∀ bs, (s.leaf l).pass 2 = some x →
        exec (.bisqueAddSum l (.ok bs)) s = .next (s.setLeaf l ((s.leaf l).commitSum x b
          ((passElems x ((s.leaf l).sourceBytes (slice x.words.toNat 192 32) bs (passLen x.words * compWidth (passFmt x.words)))).map
            (sherdOfValue (passFmt x.words))))))
      ∧ (∀ bs, (s.leaf l).pass 3 = some x →
        exec (.bisqueAddSumsq l (.ok bs)) s = .next (s.setLeaf l ((s.leaf l).commitSum x b
          ((passElems x ((s.leaf l).sourceBytes (slice x.words.toNat 192 32) bs (passLen x.words * compWidth (passFmt x.words)))).map
            (fun e => sherdOfProduct (passFmt x.words) e e)))))
      ∧ (∀ bx cy, (s.leaf l).pass 4 = some x →
        exec (.bisqueAddDot l (.ok bx) (.ok cy)) s = .next (s.setLeaf l ((s.leaf l).commitSum x b
          ((List.zip
              (passElems x ((s.leaf l).sourceBytes (slice x.words.toNat 192 32) bx (passLen x.words * compWidth (passFmt x.words))))
              (passElems x ((s.leaf l).sourceBytes (slice x.words.toNat 224 32) cy (passLen x.words * compWidth (passFmt x.words))))).map
            (fun e => sherdOfProduct (passFmt x.words) e.1 e.2)))))
      ∧ ∀ bs, (s.leaf l).pass 5 = some x →
        (∀ v, readOneSherd ((s.leaf l).sourceBytes (slice x.words.toNat 192 32) bs sherdMax) = some v →
          exec (.bisqueAddSherd l (.ok bs)) s = .next (s.setLeaf l ((s.leaf l).commitSum x b v.toList)))
        ∧ (readOneSherd ((s.leaf l).sourceBytes (slice x.words.toNat 192 32) bs sherdMax) = none →
          exec (.bisqueAddSherd l (.ok bs)) s = .next (s.setLeaf l ((s.leaf l).endPass x stRange 0 0 none))))
    ∧ ((s.leaf l).pass 6 = some x → b.st ≠ .neverWritten → ∀ bs, bs = (if b.st = .held then sherdBytes b.val.canon else leBytes 8 absentHeader) →
      (∃ t, exec (.bisqueStore l none) s = .next t ∧ t = { s.setLeaf l (((s.leaf l).store (slice x.words.toNat 256 32) bs).endPass x stOk 0 0 none)
          with tick := s.tick + 1 })
      ∧ ∀ c, ∃ q, exec (.bisqueStore l (some c)) s = .next { s.setLeaf l q with tick := s.tick + 1 } ∧ q.bisque = (s.leaf l).bisque
          ∧ q.chunkFaults = satInc (s.leaf l).chunkFaults ∧ bitOf q.intStatus.toNat ibChunkFault = true)

/-- O21. A pass that adds to, or stores, an accumulator never written ends with NEVER_WRITTEN, one whose read failed ends with FAULT naming
the first failed chunk, and one on a damaged accumulator with FAULT STATE_LOST; none of them changes the accumulator's value.
The model's own choices behind it: that the next pass on a damaged accumulator ends so is that of assumption log 56. -/
def Obligations.PassRefusals : Prop :=
  (∀ (l : Nat) (x : Taken) (s : State), (tget {} (s.leaf l).bisque (passIdx x.words)).damaged = false →
    ((tget {} (s.leaf l).bisque (passIdx x.words)).st = .neverWritten → passFirst x.words = false →
      (∀ r, (s.leaf l).pass 2 = some x → exec (.bisqueAddSum l r) s = .next (s.setLeaf l ((s.leaf l).endPass x stNeverWritten 0 0 none)))
      ∧ (∀ r, (s.leaf l).pass 3 = some x → exec (.bisqueAddSumsq l r) s = .next (s.setLeaf l ((s.leaf l).endPass x stNeverWritten 0 0 none)))
      ∧ (∀ r u, (s.leaf l).pass 4 = some x → exec (.bisqueAddDot l r u) s = .next (s.setLeaf l ((s.leaf l).endPass x stNeverWritten 0 0 none)))
      ∧ (∀ r, (s.leaf l).pass 5 = some x → exec (.bisqueAddSherd l r) s = .next (s.setLeaf l ((s.leaf l).endPass x stNeverWritten 0 0 none))))
    ∧ ((tget {} (s.leaf l).bisque (passIdx x.words)).st = .neverWritten → (s.leaf l).pass 6 = some x → ∀ r, ∃ t,
        exec (.bisqueStore l r) s = .next t ∧ t = { s.setLeaf l ((s.leaf l).endPass x stNeverWritten 0 0 none) with tick := s.tick + 1 })
    ∧ ∀ c k q, q = (s.leaf l).passFault x c (match k with | .addr => clReadAddr | .data => clReadData) →
      q.bisque = (s.leaf l).bisque ∧ q.scratch = (s.leaf l).scratch ∧ q.chunkFaults = satInc (s.leaf l).chunkFaults
      ∧ q.intStatus = setBit (s.leaf l).intStatus ibChunkFault ∧ q.flogCount = satInc (s.leaf l).flogCount
      ∧ ((s.leaf l).pass 1 = some x → exec (.bisqueLoad l (.bad c k)) s = .next (s.setLeaf l q))
      ∧ ((passFirst x.words = true ∨ (tget {} (s.leaf l).bisque (passIdx x.words)).st ≠ .neverWritten) →
        ((s.leaf l).pass 2 = some x → exec (.bisqueAddSum l (.bad c k)) s = .next (s.setLeaf l q))
        ∧ ((s.leaf l).pass 3 = some x → exec (.bisqueAddSumsq l (.bad c k)) s = .next (s.setLeaf l q))
        ∧ ((s.leaf l).pass 4 = some x → (∀ u, exec (.bisqueAddDot l (.bad c k) u) s = .next (s.setLeaf l q))
          ∧ ∀ bs, exec (.bisqueAddDot l (.ok bs) (.bad c k)) s = .next (s.setLeaf l q))
        ∧ ((s.leaf l).pass 5 = some x → exec (.bisqueAddSherd l (.bad c k)) s = .next (s.setLeaf l q))))
  ∧ ∀ (l : Nat) (x : Taken) (s : State), (tget {} (s.leaf l).bisque (passIdx x.words)).damaged = true → ∀ q,
    q = ({ s.leaf l with bisque := tmod {} (s.leaf l).bisque (passIdx x.words) (fun a => { a with damaged := false }) } : LeafPort).endPass x
      stFault clStateLost 0 none →
    ((s.leaf l).pass 0 = some x → exec (.bisqueClear l) s = .next (s.setLeaf l q))
    ∧ (∀ r, (s.leaf l).pass 1 = some x → exec (.bisqueLoad l r) s = .next (s.setLeaf l q))
    ∧ (∀ r, (s.leaf l).pass 2 = some x → exec (.bisqueAddSum l r) s = .next (s.setLeaf l q))
    ∧ (∀ r, (s.leaf l).pass 3 = some x → exec (.bisqueAddSumsq l r) s = .next (s.setLeaf l q))
    ∧ (∀ r u, (s.leaf l).pass 4 = some x → exec (.bisqueAddDot l r u) s = .next (s.setLeaf l q))
    ∧ (∀ r, (s.leaf l).pass 5 = some x → exec (.bisqueAddSherd l r) s = .next (s.setLeaf l q))
    ∧ ∀ r, (s.leaf l).pass 6 = some x → exec (.bisqueStore l r) s = .next { s.setLeaf l q with tick := s.tick + 1 }

/-! ### Arming and granting -/

/-- O22. ARM_MERGE takes the first ARM that waits at an input of a cluster node or die node. A reset, foreign or late ARM, and the notice of
a first ARM, go on towards the kiln as they are; an ARM of a group without a record there, or at a cluster node one from a leaf outside the
group's saggars or inputs, goes on as foreign; any other is counted at a cluster node and fills the position that its input's count gives
(R294), and at a die node fills the position it names, unless that position has ended. Where nothing waits, or the pair is out, nothing changes.
The model's own choices behind it: which ARM a row takes is that of assumption log 107, the notice of a first ARM that of log 9, what a node
keeps of ended positions that of log 40 and 42, the bytes on the control link's wires those of log 97. -/
def Obligations.ArmMerge : Prop :=
  (∀ (node input : Nat) (s : State),
    (isCtlIx node = false ∨ (s.ctlNode node).stat.pairOut = true ∨ takeInput input (s.ctlNode node).inq = none) →
    exec (.armMerge node input) s = .next s)
  ∧ ∀ (node input : Nat) (a : Arm) (rest : List (Nat × Arm)) (u s : State), isCtlIx node = true → (s.ctlNode node).stat.pairOut = false →
    takeInput input (s.ctlNode node).inq = some (a, rest) → u = s.setCtl node { s.ctlNode node with inq := rest } →
    ((a.reset = true ∨ a.foreign = true ∨ a.late = true ∨ a.first = true) → exec (.armMerge node input) s = .next (u.armUp (qOf node) a))
    ∧ (canonical s → a.reset = false → a.foreign = false → a.late = false → a.first = false →
      (((useRec (s.ctlNode node).cache (s.groupRec (qOf node) a.group) a.group).1 = none
          ∨ (33 ≤ qOf node ∧ s.foreignArm (useRec (s.ctlNode node).cache (s.groupRec (qOf node) a.group) a.group).1 (qOf node) a.group input = true)) →
        ∃ c, exec (.armMerge node input) s
          = .next ((u.setCtl node { u.ctlNode node with cache := c }).armUp (qOf node) { a with foreign := true }))
      ∧ ∀ x, (useRec (s.ctlNode node).cache (s.groupRec (qOf node) a.group) a.group).1 = some x →
        (33 ≤ qOf node → s.foreignArm (some x) (qOf node) a.group input = false) →
        ∃ t, exec (.armMerge node input) s = .next t
          ∧ t = { s with ctls := t.ctls, kiln := { s.kiln with inq := t.kiln.inq, firings := t.kiln.firings } }
          ∧ (t.ctlNode node).inq = rest
          ∧ (∀ k, k ≠ node → k ≠ nodeIx (parentQ (qOf node)).1 true 0 → t.ctlNode k = s.ctlNode k)
          ∧ (33 ≤ qOf node →
              tget 0 (t.ctlNode node).counts (64 * a.group + input) = tget 0 (s.ctlNode node).counts (64 * a.group + input) + 1
              ∧ t.kiln.inq = s.kiln.inq
              ∧ ((s.ctlNode node).ended.contains
                    (a.group, (s.groupRun a.group).base + tget 0 (s.ctlNode node).counts (64 * a.group + input)) = false →
                ∃ p ∈ (t.ctlNode node).pos, p.group = a.group ∧ input ∈ p.armed
                  ∧ p.ord = (s.groupRun a.group).base + tget 0 (s.ctlNode node).counts (64 * a.group + input)))
          ∧ (qOf node < 33 → t.kiln.firings = s.kiln.firings
              ∧ ((s.ctlNode node).ended.contains (a.group, a.ord) = false → s.posOver a.group a.ord = false →
                ∃ p ∈ (t.ctlNode node).pos, p.group = a.group ∧ p.ord = a.ord ∧ input ∈ p.armed)))

/-- O23. ARM_AT_KILN takes the first ARM that waits at an input of the kiln. A foreign one is answered DENIED to its leaf alone; one of a
position that the kiln has closed is dropped; the notice of a first ARM opens a firing in ARMING whose cone starts then (R292, R314); a merged ARM joins
its firing, which it may open, and completes the arming once nothing is left to arm; a reset, a late and an abort ARM have each an operation
of their own. Where nothing waits, or the kiln's pair is out, nothing changes.
The model's own choices behind it: which ARM a row takes is that of assumption log 107, the notice of a first ARM that of log 9, how positions
close that of log 40 and 42, which of several ends a first ARM meets that of log 43. -/
def Obligations.ArmAtKiln : Prop :=
  (∀ (input : Nat) (s : State), ((s.ctlNode (nodeIx 0 true 0)).stat.pairOut = true ∨ takeInput input s.kiln.inq = none) →
    exec (.armAtKiln input) s = .next s)
  ∧ ∀ (input : Nat) (a : Arm) (rest : List (Nat × Arm)) (u s : State), (s.ctlNode (nodeIx 0 true 0)).stat.pairOut = false →
    takeInput input s.kiln.inq = some (a, rest) → u = { s with kiln := { s.kiln with inq := rest } } →
    (a.reset = true → exec (.armAtKiln input) s = .next (State.offer (u.armResets a.refIx.toNat)))
    ∧ (a.reset = false → a.foreign = true → ∃ t, exec (.armAtKiln input) s = .next t ∧ t = { u with ctls := t.ctls }
        ∧ ∀ l n, canonical s → a.who = [(l, n)] → (t.ctlNode (dieCtl (l / 256))).downq = (s.ctlNode (dieCtl (l / 256))).downq
            ++ [.done { ts := s.time, group := BitVec.ofNat 20 a.group, rank := BitVec.ofNat 16 (s.cfg.rankOf l), status := stDenied,
                        target := BitVec.ofNat 16 l, noGrant := true } [l]])
    ∧ (a.reset = false → a.foreign = false →
        (a.ord < (s.groupRun a.group).base ∨ (s.posAt a.group a.ord = none ∧ s.posOver a.group a.ord = true)) →
      exec (.armAtKiln input) s = .next u)
    ∧ (a.reset = false → a.foreign = false → (s.groupRun a.group).base ≤ a.ord →
        (s.posAt a.group a.ord = none → s.posOver a.group a.ord = false) →
      (a.late = true → exec (.armAtKiln input) s = .next (u.armLate a))
      ∧ (a.late = false → a.first = false → a.abort = true → exec (.armAtKiln input) s = .next (State.offer (u.armAborts a)))
      ∧ (∀ k, canonical s → a.late = false → a.first = true → s.posAt a.group a.ord = none → s.cfg.groupSaggar a.group = some k →
          s.firstArmEnd a.group = none →
        ∃ f, exec (.armAtKiln input) s = .next (State.offer { u with kiln := { u.kiln with
              nextUid := s.kiln.nextUid + 1, firings := s.kiln.firings ++ [f] } })
          ∧ f.group = a.group ∧ f.ord = a.ord ∧ f.seq = BitVec.ofNat 32 a.ord ∧ f.st = .arming ∧ f.saggar = k ∧ f.cause = none
          ∧ f.firstArm = s.time ∧ f.coneEnd = s.time + BitVec.ofNat 64 (1000 * gCone (s.cfg.groupEntry a.group))
          ∧ f.service = !s.diagnostic ∧ f.armedIn = [] ∧ ∀ e ∈ a.who, e.1 ∈ f.armedBy)
      ∧ (∀ k r, canonical s → a.late = false → a.first = false → a.abort = false → s.posAt a.group a.ord = none →
          s.cfg.groupSaggar a.group = some k → s.firstArmEnd a.group = none →
          (useRec s.kiln.cache (s.groupRec 0 a.group) a.group).1 = some r →
          (∃ i ∈ r.inputs, i ≠ input ∧ s.inputDone 0 a.group i [input] = false) →
        ∃ f c, exec (.armAtKiln input) s = .next (State.offer { u with kiln := { u.kiln with
              nextUid := s.kiln.nextUid + 1, firings := s.kiln.firings ++ [f], cache := c } })
          ∧ f.group = a.group ∧ f.ord = a.ord ∧ f.seq = BitVec.ofNat 32 a.ord ∧ f.st = .arming ∧ f.armedIn = [input] ∧ f.saggar = k
          ∧ f.firstArm = s.time ∧ f.cause = none ∧ f.arm = a)
      ∧ ∀ f r, canonical s → a.late = false → a.first = false → a.abort = false → s.posAt a.group a.ord = some f → f.st ≠ .ended →
          f.cause = none → (useRec s.kiln.cache (s.groupRec 0 a.group) a.group).1 = some r →
        ∃ g c v, v = { u with kiln := { u.kiln with firings := modFirst (fun x => x.uid == f.uid) (fun _ => g) s.kiln.firings, cache := c } }
          ∧ g = { f with armedBy := g.armedBy, arm := if f.arm.who.isEmpty = true then a else mergeArm f.arm a,
                         armedIn := addOnce f.armedIn input }
          ∧ ((∀ i ∈ r.inputs, s.inputDone 0 a.group i (addOnce f.armedIn input) = true) →
            exec (.armAtKiln input) s = .next (State.offer (v.armComplete f.uid)))
          ∧ ((∃ i ∈ r.inputs, s.inputDone 0 a.group i (addOnce f.armedIn input) = false) →
            exec (.armAtKiln input) s = .next (State.offer v)))

/-- O24. CONTROL_PATH_DOWNWARD_MESSAGE: a cluster node hands the oldest message to each leaf port it leads to, a die node to each cluster
node; a GRANT releases the slots of the planes it does not name (R395), a release takes the die slice's epoch (R356), and an end without
a grant first meets the ARMs that wait at the node. With no message, or with the pair out, nothing changes.
The model's own choices behind it: that a row moves the oldest message is that of assumption log 107; what a node keeps of ended positions is
that of log 40 and 42. -/
def Obligations.DownwardMessage : Prop :=
  (∀ (node : Nat) (s : State), (isCtlIx node = false ∨ (s.ctlNode node).stat.pairOut = true ∨ (s.ctlNode node).downq = []) →
    exec (.controlPathDownwardMessage node) s = .next s)
  ∧ (∀ (node : Nat) (g : GrantMsg) (d : List Nat) (ms : List CtlMsg) (s : State), canonical s → isCtlIx node = true →
    (s.ctlNode node).stat.pairOut = false → (s.ctlNode node).downq = .grant g d :: ms →
    ∃ t u : State, exec (.controlPathDownwardMessage node) s = .next t ∧ t = u.copyDown (qOf node) (.grant g d)
      ∧ u = { s with ctls := u.ctls, nodes := u.nodes } ∧ (∀ k, k ≠ node → u.ctlNode k = s.ctlNode k)
      ∧ u.ctlNode node = { s.ctlNode node with downq := ms }
      ∧ (∀ p, p < 4 → bitOf g.planes.toNat p = false → ∀ y ∈ (u.node (nodeIx (qOf node) false p)).slots, y.setter ≠ g.setter.toNat)
      ∧ (∀ p, p < 4 → bitOf g.planes.toNat p = true → u.node (nodeIx (qOf node) false p) = s.node (nodeIx (qOf node) false p))
      ∧ ∀ k, qOf k ≠ qOf node → u.node k = s.node k)
  ∧ (∀ (q : Nat) (m : CtlMsg) (s : State), canonical s →
    (33 ≤ q → m.dst.Nodup → s.copyDown q m = { s with leaves := (s.copyDown q m).leaves }
        ∧ (∀ l ∈ m.dst, (s.copyDown q m).leaf l = { s.leaf l with inbox := (s.leaf l).inbox ++ [m] })
        ∧ ∀ l, ¬ l ∈ m.dst → (s.copyDown q m).leaf l = s.leaf l)
    ∧ (q < 33 → s.copyDown q m = { s with ctls := (s.copyDown q m).ctls }
        ∧ ∀ l ∈ m.dst, (s.copyDown q m).ctlNode (nodeIx (leafQ l) true 0) = { s.ctlNode (nodeIx (leafQ l) true 0) with
            downq := (s.ctlNode (nodeIx (leafQ l) true 0)).downq ++ [m.withDst (m.dst.filter (fun k => leafQ k == leafQ l))] }))
  ∧ ∀ (node : Nat) (e : EndMsg) (d : List Nat) (ep : Bool) (ms : List CtlMsg) (u s : State), isCtlIx node = true →
    (s.ctlNode node).stat.pairOut = false → u = s.setCtl node { s.ctlNode node with downq := ms } →
    ((s.ctlNode node).downq = .release e d ep :: ms → exec (.controlPathDownwardMessage node) s = .next
        ((u.forgetPos node e).copyDown (qOf node) (.release e d (if qOf node < 33 then (s.die (qOf node - 1)).epoch else ep))))
    ∧ ((s.ctlNode node).downq = .done e d :: ms →
      (e.noGrant = false → exec (.controlPathDownwardMessage node) s = .next ((u.forgetPos node e).copyDown (qOf node) (.done e d)))
      ∧ (e.noGrant = true → e.target ≠ 0xFFFF → exec (.controlPathDownwardMessage node) s = .next (u.copyDown (qOf node) (.done e d)))
      ∧ (e.noGrant = true → e.target = 0xFFFF → exec (.controlPathDownwardMessage node) s = .next ((u.endPasses (qOf node) e).2.copyDown
          (qOf node) (.done e (if 33 ≤ qOf node then d.filter (fun l => (u.endPasses (qOf node) e).1.contains (inputOf (qOf node) l)) else d)))))

/-- O25. GRANT offers what is free and takes the first firing of the queue that may be granted: it takes the next firing number, block time
as grant_ts, its planes H, and its group's order moves on; then what its grant sets off follows. A firing that fails its last checks ends
instead, and with none to grant the offers stand alone; while admission is held or stopped nothing changes. Firing numbers run from 1 to 2^48 − 1
and then from 1 again.
The model's own choices behind it: what a waiting firing keeps of what came free is that of assumption log 48; the trace record that of
log 47. -/
def Obligations.Grant : Prop :=
  (∀ x : BitVec 48, nextFn x ≠ 0 ∧ (x ≠ BitVec.allOnes 48 → (nextFn x).toNat = x.toNat + 1) ∧ (x = BitVec.allOnes 48 → nextFn x = 1))
  ∧ (∀ s : State, (s.kiln.paceHold = true ∨ s.kiln.admitStopped = true) → exec .grant s = .next s)
  ∧ (∀ s : State, s.kiln.paceHold = false → s.kiln.admitStopped = false →
    (s.offer.pickGrant = none → exec .grant s = .next s.offer)
    ∧ ∀ f, s.offer.pickGrant = some f →
      (∀ st c, s.offer.kaccCheck f = some (st, c) → exec .grant s = .next (State.offer (s.offer.kaccRefuse f st c)))
      ∧ (∀ st c, s.offer.kaccCheck f = none → s.offer.depCheck f = some (st, c) →
          exec .grant s = .next (State.offer (s.offer.decideEnd f.uid st 0xFFFF c)))
      ∧ (s.offer.kaccCheck f = none → s.offer.depCheck f = none →
          exec .grant s = .next (((((s.offer.grantOne f).startGranted f.uid).sendEnds (s.offer.kiln.firings.length + 1) f.group).offer.noteOld).driveKiln)))
  ∧ ∀ (f : Firing) (s : State), canonical s → s.firing? f.uid = some f →
    (s.grantOne f).kiln.lastFn = nextFn s.kiln.lastFn
    ∧ (tget {} (s.grantOne f).kiln.groups f.group).nextOrd = f.ord + 1
    ∧ ∃ g, (s.grantOne f).firing? f.uid = some g ∧ g.st = .granted
        ∧ g.fn = nextFn s.kiln.lastFn ∧ g.ts = s.time ∧ g.setter = f.setter ∧ g.seq = f.seq ∧ g.attempt = f.attempt
        ∧ g.planes = (if f.usesPlane = true then s.hNow f else []) ∧ g.heldSlots = [] ∧ g.heldGlaze = []

/-- O26. GRANT_RECEIVE: the oldest firing of the group that waits starts on the planes the GRANT names; a running firing whose attempt the
GRANT raises sends its contribution again (R142). REDEAL_GRANT_RECEIVE: a running firing goes on over H', its sent stripes kept (R393). A GRANT that
matches nothing is dropped. Nothing else of the leaf port changes, and no byte of scratchpad; with no GRANT at the head, or at a failed leaf port,
nothing changes.
The model's own choices behind it: that a replay and a redeal read retained chunks again by staging them anew is the model's reading of R280
(assumption log 34); what a row does where its message is not due is that of log 4. -/
def Obligations.GrantReceive : Prop :=
  (∀ (l : Nat) (s : State), ((s.leaf l).failed = true ∨ ∀ g d ms, (s.leaf l).inbox ≠ .grant g d :: ms) →
    exec (.grantReceive l) s = .next s ∧ exec (.redealGrantReceive l) s = .next s)
  ∧ ∀ (l : Nat) (g : GrantMsg) (d : List Nat) (ms : List CtlMsg) (s : State), (s.leaf l).inbox = .grant g d :: ms →
    (s.leaf l).failed = false →
    (∀ x, (s.leaf l).runningOf g = none →
        (s.leaf l).taken.find? (fun t => t.phase == .waiting && t.ended.isNone && t.desc.group == g.group.toNat) = some x →
      exec (.grantReceive l) s = .next (s.setLeaf l { s.leaf l with
        inbox := ms
        taken := modFirst (fun t => t.cnt == x.cnt) (fun t => { t with
          phase := .running, setter := g.setter, fn := g.fn, seq := g.seq, ts := g.ts, latency := g.latency, attempt := g.attempt,
          planes := planesIn g.planes, deals := [planesIn g.planes], rank := (s.whoIn l g).rank, m := (s.whoIn l g).m,
          idx := (s.whoIn l g).idx, ragged := (s.whoIn l g).ragged }) (s.leaf l).taken }))
    ∧ ((s.leaf l).runningOf g = none →
        (s.leaf l).taken.find? (fun t => t.phase == .waiting && t.ended.isNone && t.desc.group == g.group.toNat) = none →
      exec (.grantReceive l) s = .next (s.setLeaf l { s.leaf l with inbox := ms }))
    ∧ ((∀ x, (s.leaf l).runningOf g = some x → x.attempt ≠ g.attempt) → exec (.redealGrantReceive l) s = .next s)
    ∧ ∀ x, (s.leaf l).runningOf g = some x →
      (x.attempt.toNat < g.attempt.toNat → exec (.grantReceive l) s = .next (s.setLeaf l { s.leaf l with
          inbox := ms, taken := modFirst (fun t => t.cnt == x.cnt) (fun t => t.replayed (s.leaf l).chunk g) (s.leaf l).taken })
        ∧ ∀ (y : Taken) (c : Nat), (y.replayed c g).attempt = g.attempt ∧ (y.replayed c g).sendIx = [] ∧ (y.replayed c g).sendFl = []
            ∧ (y.replayed c g).planes = planesIn g.planes ∧ (y.replayed c g).setter = y.setter ∧ (y.replayed c g).fn = y.fn)
      ∧ (¬ x.attempt.toNat < g.attempt.toNat → exec (.grantReceive l) s = .next (s.setLeaf l { s.leaf l with
          inbox := ms, taken := modFirst (fun t => t.cnt == x.cnt) (fun t => t.redealt (s.leaf l).chunk g) (s.leaf l).taken }))
      ∧ (x.attempt = g.attempt → exec (.redealGrantReceive l) s = .next (s.setLeaf l { s.leaf l with
          inbox := ms, taken := modFirst (fun t => t.cnt == x.cnt) (fun t => t.redealt (s.leaf l).chunk g) (s.leaf l).taken })
        ∧ ∀ (y : Taken) (c : Nat), (y.redealt c g).planes = planesIn g.planes ∧ (y.redealt c g).deals = y.deals ++ [planesIn g.planes]
            ∧ (y.redealt c g).sendIx = y.sendIx ∧ (y.redealt c g).sendFl = y.sendFl
            ∧ ∀ k ∈ (y.redealt c g).chunks, k ∈ y.chunks)

/-! ### Flits -/

/-- O27. LEAF_FLIT_SEND puts the next flit of the first running firing that has one for the plane on the leaf port's free link; a poisoned
flit and a bad sherd are noted at the kiln, and nothing else changes. A firing that takes from a bisque accumulator that has lost its state
ends instead (R414). On a link that is busy or not in use, or with nothing to send, nothing changes.
The model's own choices behind it: that one row sends one flit, and the order among running firings, are those of assumption log 107;
the loss of an accumulator's state that of log 56. -/
def Obligations.LeafFlitSend : Prop :=
  (∀ (l p : Nat) (s : State), (4 ≤ p ∨ (s.leaf l).failed = true ∨ s.linkStops (leafLinkKey l .up p) = true
      ∨ (s.link (leafLinkKey l .up p)).offer ≠ none ∨ (s.leaf l).sender p = none) → exec (.leafFlitSend l p) s = .next s)
  ∧ ∀ (l p : Nat) (x y : Taken) (c : Carry) (bad : Bool) (s : State), p < 4 → (s.leaf l).failed = false →
    s.linkStops (leafLinkKey l .up p) = false → (s.link (leafLinkKey l .up p)).offer = none →
    (s.leaf l).sender p = some (x, c, bad, y) →
    ((s.leaf l).lostSources x ≠ [] → exec (.leafFlitSend l p) s = .next (s.sourceLost l x))
    ∧ ((s.leaf l).lostSources x = [] → ∃ t, exec (.leafFlitSend l p) s = .next t
      ∧ t = { (s.setLeaf l ((s.leaf l).modTaken x.cnt (fun _ => y))).setLink (leafLinkKey l .up p)
                ((s.link (leafLinkKey l .up p)).put false s.time c) with kiln := t.kiln }
      ∧ ((s.link (leafLinkKey l .up p)).put false s.time c).offer = some c
      ∧ (c.flit.poison = false → bad = false → t.kiln = s.kiln)
      ∧ (s.granted? x.setter.toNat = none → t.kiln = s.kiln)
      ∧ ∀ f, canonical s → s.granted? x.setter.toNat = some f → ∃ g, t.firing? f.uid = some g
          ∧ g = { (if c.flit.poison = true then f.poisonFrom x.rank x.firstBadChunk else f) with range := f.range || bad, rangeBad := f.rangeBad || bad })

/-- O28. NODE_FLIT_ARRIVE: the flit is taken off its link and goes up to be combined, or down to every input that leads to a receiver,
the node's twins hand it off, and free links take what waits; a flit that names no firing active at the node is discarded and counted (R32); a
flit whose CRC fails takes an on-die link out of service with reason 2 (R45). At the hand-off a twin that fires alone is taken out, twins that
both fire, or a lone one that does, lose the pair with reason 7, and twins that differ with reason 6 (R35). With no flit waiting, or at a position
that is not built or is out, nothing changes.
The model's own choices behind it: that one row moves one flit is that of assumption log 107, the twins' outcome is an operand (log 2), which
flits are stray that of log 90, the order of a node's offers that of log 17. -/
def Obligations.NodeFlit : Prop :=
  (∀ (node input : Nat) (d : Dir) (err : BitVec 568) (h : Handoff) (s : State),
    (s.dataIx node = false ∨ (s.node node).stat.pairOut = true ∨ (qOf node = 0 ∧ d = .down) ∨ radix (qOf node) ≤ input
      ∨ s.takeFlit (inLink (qOf node) (planeOf node) d input) err = none) → exec (.nodeFlitArrive node d input err h) s = .next s)
  ∧ (∀ (node input : Nat) (err : BitVec 568) (h : Handoff) (s : State), s.dataIx node = true → (s.node node).stat.pairOut = false →
    input < radix (qOf node) →
    (∀ c t v, s.takeFlit (inLink (qOf node) (planeOf node) .up input) err = some (some c, t) →
      v = t.handoff (t.upAt (qOf node) (planeOf node) input c) node c.flit.setter.toNat h →
      (qOf node = 0 → exec (.nodeFlitArrive node .up input err h) s = .next v.driveKiln)
      ∧ (qOf node ≠ 0 → exec (.nodeFlitArrive node .up input err h) s = .next
        ((v.drive (linkKey (qOf node) .up (planeOf node))).drive (inLink (qOf node) (planeOf node) .up input))))
    ∧ (∀ c t v, s.takeFlit (inLink (qOf node) (planeOf node) .down input) err = some (some c, t) →
      v = t.handoff (t.downAt (qOf node) (planeOf node) c) node c.flit.setter.toNat h →
      (1 ≤ qOf node → qOf node ≤ 32 → exec (.nodeFlitArrive node .down input err h) s = .next
        (v.driveAll (linksBelow (qOf node) (planeOf node))))
      ∧ (33 ≤ qOf node → exec (.nodeFlitArrive node .down input err h) s = .next
        ((v.driveAll (linksBelow (qOf node) (planeOf node))).drive (inLink (qOf node) (planeOf node) .down input))))
    ∧ ∀ d c, qOf node ≠ 0 → isBridge (inLink (qOf node) (planeOf node) d input) = false → canonical s →
        (s.link (inLink (qOf node) (planeOf node) d input)).failed = false →
        (s.link (inLink (qOf node) (planeOf node) d input)).offer = some c →
        (s.link (inLink (qOf node) (planeOf node) d input)).arrived c err = none →
      ∃ t, exec (.nodeFlitArrive node d input err h) s = .next t
        ∧ (t.link (inLink (qOf node) (planeOf node) d input)).failed = true
        ∧ (t.link (inLink (qOf node) (planeOf node) d input)).reason = 2
        ∧ (t.link (inLink (qOf node) (planeOf node) d input)).offer = none
        ∧ (∀ k, k ≠ inLink (qOf node) (planeOf node) d input → t.link k = s.link k)
        ∧ t = { s with links := t.links, nodes := t.nodes })
  ∧ (∀ (q p i : Nat) (c : Carry) (s : State),
    ((s.granted? c.flit.setter.toNat = none ∨ (s.node (nodeIx q false p)).slot? c.flit.setter.toNat = none) →
      s.upAt q p i c = s.setNode (nodeIx q false p) { s.node (nodeIx q false p) with stat := { (s.node (nodeIx q false p)).stat with
        stray := satInc (s.node (nodeIx q false p)).stat.stray } })
    ∧ (∀ f y, s.granted? c.flit.setter.toNat = some f → (s.node (nodeIx q false p)).slot? c.flit.setter.toNat = some y →
      s.upAt q p i c = if q = 0 then s.upAtKiln p i f y c else s.upAtNode q p i f y c)
    ∧ ((s.downFiring c.flit.setter.toNat = none ∨ ∃ f, s.downFiring c.flit.setter.toNat = some f ∧ s.activeDown f q p = false) →
      s.downAt q p c = s.setNode (nodeIx q false p) { s.node (nodeIx q false p) with stat := { (s.node (nodeIx q false p)).stat with
        stray := satInc (s.node (nodeIx q false p)).stat.stray } })
    ∧ (∀ f, s.downFiring c.flit.setter.toNat = some f → s.activeDown f q p = true → s.downAt q p c = s.setNode (nodeIx q false p)
        { s.node (nodeIx q false p) with outDown := (s.node (nodeIx q false p)).outDown
            ++ (inputsTo q (c.dst.getD f.receivers)).map (fun i => (i, c)) }))
  ∧ ∀ (t u : State) (ix x : Nat) (h : Handoff),
    ((u.node ix).ready ≤ (t.node ix).ready → t.handoff u ix x h = u)
    ∧ ((t.node ix).ready < (u.node ix).ready →
      ((t.node ix).twinsFor x = (true, true) →
        (h.firedA = false → h.firedB = false → h.differ = false → t.handoff u ix x h = u)
        ∧ (h.firedA = true → h.firedB = false → t.handoff u ix x h = u.takeover ix .a)
        ∧ (h.firedA = false → h.firedB = true → t.handoff u ix x h = u.takeover ix .b)
        ∧ (h.firedA = true → h.firedB = true → t.handoff u ix x h
            = (t.modStat ix (fun n => (n.residue .a).residue .b)).losePair ix 7)
        ∧ (h.firedA = false → h.firedB = false → h.differ = true → ∃ k, t.handoff u ix x h
            = { (t.modStat ix (fun n => { n with miscompare := satInc n.miscompare })).losePair ix 6 with kiln := k }
            ∧ k = { t.kiln with miscomp := k.miscomp } ∧ ∀ f, t.granted? x = some f → (ix, f.uid) ∈ k.miscomp))
      ∧ (((t.node ix).twinsFor x = (true, false) ∧ h.firedA = false) ∨ ((t.node ix).twinsFor x = (false, true) ∧ h.firedB = false) →
          t.handoff u ix x h = u)
      ∧ (((t.node ix).twinsFor x = (true, false) ∧ h.firedA = true) →
          t.handoff u ix x h = (t.modStat ix (fun n => n.residue .a)).losePair ix 7)
      ∧ (((t.node ix).twinsFor x = (false, true) ∧ h.firedB = true) →
          t.handoff u ix x h = (t.modStat ix (fun n => n.residue .b)).losePair ix 7))

/-- O29. TWIN_RESIDUE_FIRE on a node with both twins counts the firing, takes that twin out and leaves the other in service, with a fault
event; on a datapath node that runs on the other twin alone it loses the pair; a control-path link copy that fails its CRC-24 is its
twin's fault, and control-path twins that differ lose their pair. STAGE_CONE_EXPIRY takes a waiting datapath link out of service with
reason 4; a copy of a control-path link is its twin's fault, and upward on a leaf port's control link one copy of the leaf port's own (R399). At a
position not built, or where the pair is out, nothing changes.
The model's own choices behind it: what a second loss at a node position is, is that of assumption log 51; whose a copy of a leaf port's
control link is, that of log 52; the control path's compare is that of log 95. -/
def Obligations.TwinsAndCones : Prop :=
  (∀ (node : Nat) (w : Twin) (c : TwinCause) (s : State), (s.nodeBuilt (qOf node) = false ∨ (s.stat node).pairOut = true
      ∨ (isCtl node = false ∧ c ≠ .residue)) → exec (.twinResidueFire node ⟨w, c⟩) s = .next s)
  ∧ (∀ (node : Nat) (w : Twin) (s : State), canonical s → s.dataIx node = true → (s.node node).stat.pairOut = false →
    ((s.node node).stat.aOut = false → (s.node node).stat.bOut = false → ∃ t, exec (.twinResidueFire node ⟨w, .residue⟩) s = .next t
      ∧ (t.node node).stat = ((s.node node).stat.residue w).twinOut w 5 ∧ (t.node node).stat.pairOut = false
      ∧ (t.node node).slots = (s.node node).slots ∧ (∀ k, k ≠ node → t.node k = s.node k)
      ∧ t = { s with nodes := t.nodes, kiln := t.kiln, faultLog := t.faultLog, ports := t.ports, smb := t.smb, trace := t.trace, counters := t.counters })
    ∧ ((w = .a ∧ (s.node node).stat.aOut = false ∧ (s.node node).stat.bOut = true)
        ∨ (w = .b ∧ (s.node node).stat.bOut = false ∧ (s.node node).stat.aOut = true) →
      ∃ t, exec (.twinResidueFire node ⟨w, .residue⟩) s = .next t
        ∧ (t.node node).stat.pairOut = true ∧ (t.node node).stat.outReason = 7 ∧ (t.node node).slots = [])
    ∧ ((w = .a ∧ (s.node node).stat.aOut = true) ∨ (w = .b ∧ (s.node node).stat.bOut = true) →
      ∃ t, exec (.twinResidueFire node ⟨w, .residue⟩) s = .next t ∧ (t.node node).stat = (s.node node).stat.residue w
        ∧ t = { s with nodes := t.nodes, kiln := t.kiln }))
  ∧ (∀ (node : Nat) (w : Twin) (c : TwinCause) (s : State), canonical s → isCtl node = true → s.nodeBuilt (qOf node) = true →
    (s.ctlNode node).stat.pairOut = false →
    (c ≠ .compare → (s.ctlNode node).stat.aOut = false → (s.ctlNode node).stat.bOut = false →
      ∃ t, exec (.twinResidueFire node ⟨w, c⟩) s = .next t ∧ t.nodes = s.nodes ∧ (t.ctlNode node).stat.pairOut = false
        ∧ (t.ctlNode node).stat = (if c = .residue then (s.ctlNode node).stat.residue w else (s.ctlNode node).stat).twinOut w 8)
    ∧ (c ≠ .compare → ((w = .a ∧ (s.ctlNode node).stat.aOut = false ∧ (s.ctlNode node).stat.bOut = true)
        ∨ (w = .b ∧ (s.ctlNode node).stat.bOut = false ∧ (s.ctlNode node).stat.aOut = true)) →
      ∃ t, exec (.twinResidueFire node ⟨w, c⟩) s = .next t ∧ (t.ctlNode node).stat.pairOut = true ∧ (t.ctlNode node).stat.outReason = 9
        ∧ (node = nodeIx 0 true 0 → t.kiln.admitStopped = true))
    ∧ (c = .compare → ∃ t, exec (.twinResidueFire node ⟨w, c⟩) s = .next t ∧ (t.ctlNode node).stat.pairOut = true
        ∧ (t.ctlNode node).stat.outReason = 9 ∧ (t.ctlNode node).stat.miscompare = satInc (s.ctlNode node).stat.miscompare))
  ∧ (∀ (key : Nat) (s : State), canonical s →
    ((s.link key).failed = false → (s.link key).offer.isSome = true →
      ∃ t, exec (.stageConeExpiry (.link key)) s = .next t ∧ (t.link key).failed = true ∧ (t.link key).reason = 4 ∧ (t.link key).offer = none
        ∧ (t.link key).reported = false ∧ (∀ k, k ≠ key → t.link k = s.link k) ∧ t = { s with links := t.links, nodes := t.nodes })
    ∧ ((s.link key).failed = true ∨ (s.link key).offer = none → exec (.stageConeExpiry (.link key)) s = .next s))
  ∧ (∀ (node : Nat) (w : Twin) (s : State),
    ((s.nodeBuilt (qOf node) = false ∨ isCtl node = false) → exec (.stageConeExpiry (.ctrl node w)) s = .next s)
    ∧ (s.nodeBuilt (qOf node) = true → isCtl node = true →
      exec (.stageConeExpiry (.ctrl node w)) s = .next (State.noteKilnCtl (s.twinFault node w))
      ∧ ((s.ctlNode node).stat.pairOut = false → exec (.twinResidueFire node ⟨w, .linkCrc⟩) s = exec (.stageConeExpiry (.ctrl node w)) s)))
  ∧ ∀ (l : Nat) (w : Twin) (s : State),
    (s.leafExists l = false → ∀ d, exec (.stageConeExpiry (.leafCtrl l w d)) s = .next s)
    ∧ (s.leafExists l = true → exec (.stageConeExpiry (.leafCtrl l w .down)) s = .next (s.twinFault (leafCtl l) w)
      ∧ ((w = .a ∧ (s.leaf l).ctlA = true) ∨ (w = .b ∧ (s.leaf l).ctlB = true) → exec (.stageConeExpiry (.leafCtrl l w .up)) s = .next s)
      ∧ ((w = .a ∧ (s.leaf l).ctlA = false) ∨ (w = .b ∧ (s.leaf l).ctlB = false) →
        ∃ t, exec (.stageConeExpiry (.leafCtrl l w .up)) s = .next t
          ∧ t = { s with leaves := t.leaves, faultLog := t.faultLog, ports := t.ports, smb := t.smb, trace := t.trace, counters := t.counters }
          ∧ t.leaf l = { s.leaf l with ctlA := (s.leaf l).ctlA || w == .a, ctlB := (s.leaf l).ctlB || w == .b }
          ∧ (canonical s → ∀ k, k ≠ l → t.leaf k = s.leaf k)))

/-- O30. The bridge's retry (R47). BRIDGE_FLIT_RECEIVE: a good flit joins the receive buffer, as no replay, and is counted; the first bad one
makes the receiver wait and owe one LINK_NAK; while it waits, only the flit resent at the named count is taken. LINK_NAK_RECEIVE makes the
sender resend from the flit it names, and takes the link out with reason 3 where that flit has left the buffer. LINK_NAK_REPEAT: 32 flits
without replay repeat it once; BRIDGE_RETRY_EXHAUSTED: 32 more take the link out of service with reason 3. Where a row is not due nothing
changes.
The model's own choices behind it: that a resent flit with a bad CRC repeats the LINK_NAK is that of assumption log 53; that the named flit
is known by its count is that of log 53 too; that one row moves one flit is that of log 107. -/
def Obligations.BridgeRetry : Prop :=
  (∀ (key : Nat) (err : BitVec 568) (s : State),
    ((isBridge key = false ∨ (s.link key).failed = true ∨ (s.link key).offer = none ∨ ∃ c, (s.link key).offer = some c ∧ c.flit.type = 0xF0) →
      exec (.bridgeFlitReceive key err) s = .next s)
    ∧ ((isBridge key = false ∨ (s.link key).failed = true ∨ (s.link key).offer = none ∨ ∃ c, (s.link key).offer = some c ∧ c.flit.type ≠ 0xF0) →
      exec (.linkNakReceive key err) s = .next s)
    ∧ ((isBridge key = false ∨ (s.link key).failed = true ∨ (s.link key).waiting = none ∨ (s.link key).repeated = true
        ∨ (s.link key).noReplay < 32) → exec (.linkNakRepeat key) s = .next s)
    ∧ ((isBridge key = false ∨ (s.link key).failed = true ∨ (s.link key).waiting = none ∨ (s.link key).repeated = false
        ∨ (s.link key).noReplay < 32) → exec (.bridgeRetryExhausted key) s = .next s))
  ∧ ∀ (key : Nat) (s : State), isBridge key = true → (s.link key).failed = false →
    (∀ c err x, (s.link key).offer = some c → c.flit.type ≠ 0xF0 → x = flitOf ((s.link key).read true err) →
      ∃ k, exec (.bridgeFlitReceive key err) s = .next ((s.setLink key k).driveAll [key, keyReverse key])
        ∧ k.seen = (s.link key).sym ∧ k.ack = !(s.link key).ack ∧ k.offer = none
        ∧ (flitOk ((s.link key).read true err) = true → (s.link key).waiting = none →
            k.rxq = (s.link key).rxq ++ [{ c with flit := { x with replay := false } }] ∧ k.recvCount = (s.link key).recvCount + 1
            ∧ k.waiting = none)
        ∧ (flitOk ((s.link key).read true err) = false → (s.link key).waiting = none →
            k.waiting = some (s.link key).recvCount ∧ k.nak = some (s.link key).recvCount ∧ k.rxq = (s.link key).rxq
            ∧ k.crcErr = satInc (s.link key).crcErr)
        ∧ (∀ n, (s.link key).waiting = some n →
          (flitOk ((s.link key).read true err) = true → x.replay = true → c.count = n →
            k.rxq = (s.link key).rxq ++ [{ c with flit := { x with replay := false } }] ∧ k.recvCount = (s.link key).recvCount + 1
            ∧ k.waiting = none)
          ∧ (flitOk ((s.link key).read true err) = true → x.replay = false →
            k.waiting = some n ∧ k.rxq = (s.link key).rxq ∧ k.noReplay = (s.link key).noReplay + 1)
          ∧ ((flitOk ((s.link key).read true err) = false ∨ (x.replay = true ∧ c.count ≠ n)) →
            k.waiting = some n ∧ k.rxq = (s.link key).rxq ∧ k.recvCount = (s.link key).recvCount)))
    ∧ (∀ c err, (s.link key).offer = some c → c.flit.type = 0xF0 →
      (flitOk ((s.link key).read true err) = false → exec (.linkNakReceive key err) s = .next
          ((s.setLink key { (s.link key).took true s.time with crcErr := satInc (s.link key).crcErr }).drive key))
      ∧ (flitOk ((s.link key).read true err) = true → ∀ r, r = ((s.setLink key ((s.link key).took true s.time)).link (keyReverse key)).resendFrom
          (BitVec.ofNat 16 (numAt (flitOf ((s.link key).read true err)).payload 0 2)) →
        (∀ y, r = some y → exec (.linkNakReceive key err) s = .next
            (((s.setLink key ((s.link key).took true s.time)).setLink (keyReverse key) y).driveAll [key, keyReverse key])
          ∧ ∀ e ∈ y.resend, e.flit.replay = true)
        ∧ (r = none → exec (.linkNakReceive key err) s = .next
            (((s.setLink key ((s.link key).took true s.time)).cutLink (keyReverse key) 3).drive key))))
    ∧ (∀ n, (s.link key).waiting = some n → 32 ≤ (s.link key).noReplay →
      ((s.link key).repeated = false → exec (.linkNakRepeat key) s = .next ((s.setLink key { s.link key with
          nak := some n, repeated := true, noReplay := 0, nakRepeat := satInc (s.link key).nakRepeat }).drive (keyReverse key)))
      ∧ ((s.link key).repeated = true → canonical s → ∃ t, exec (.bridgeRetryExhausted key) s = .next t ∧ (t.link key).failed = true
          ∧ (t.link key).reason = 3 ∧ (∀ k, k ≠ key → t.link k = s.link k) ∧ t = { s with links := t.links, nodes := t.nodes }))

/-! ### Losses, replays and ends -/

/-- O31. LOSS_REGISTER registers every link and pair newly lost, ends the firings that a miscompare names, does to each granted firing what
its lost planes ask, and offers what waits. REDEAL_RESOURCE_FREE moves the first waiting firing to its new plane with a redeal GRANT;
OVERFLOW_REPLAY starts an attempt more with the same setter, firing number, sequence number and grant_ts (R308), or ends the firing with OVERFLOW
after the third; an attempt that has not drained, a preload that forbids a replay (R139), or slots not free leave everything as it is.
The model's own choices behind it: the order of losses and the level of events are those of assumption log 49 and 51; what a redeal takes
beside the waiting firings is that of log 48. -/
def Obligations.LossAndReplay : Prop :=
  (∀ s : State, canonical s →
    ∃ u : State, exec .lossRegister s = .next ((State.offer ((u.endMiscompared.kiln.firings.map (·.uid)).foldl State.lossOn u.endMiscompared)).driveKiln)
      ∧ (∀ k, (s.link k).failed = true → u.link k = { s.link k with reported := true })
      ∧ (∀ k, (s.link k).failed = false → u.link k = s.link k)
      ∧ (∀ k, (s.node k).stat.pairOut = true → k / 4 % 2 = 0 → (u.node k).stat = { (s.node k).stat with reported := true })
      ∧ u = { s with links := u.links, nodes := u.nodes, ctls := u.ctls, faultLog := u.faultLog, ports := u.ports, smb := u.smb,
                     trace := u.trace, counters := u.counters }
      ∧ u.endMiscompared.kiln.miscomp = [] ∧ (s.kiln.miscomp = [] → u.endMiscompared = u))
  ∧ (∀ (f : Firing) (up : List Nat) (s : State), s.firing? f.uid = some f → up = f.planes.filter (s.planeUp f.pathLeaves) →
    ((f.st ≠ .granted ∨ f.cause ≠ none ∨ f.usesPlane = false ∨ up.length = f.planes.length ∨ (∃ p, f.onlyPlane = some p ∧ up.contains p = true)) →
      s.lossOn f.uid = s)
    ∧ (f.st = .granted → f.cause = none → f.usesPlane = true → up.length ≠ f.planes.length → (∀ p, f.onlyPlane = some p → up.contains p = false) →
      (up = [] → s.lossOn f.uid = s.decideEnd f.uid stFault 0xFFFF clNoPlane.toNat)
      ∧ (up ≠ [] → f.ovf = true → s.lossOn f.uid = s.modFiring f.uid (fun x => { x with planes := up, waitPlane := none }))
      ∧ (up ≠ [] → f.ovf = false → f.latency = true → s.lossOn f.uid = s.moveLatency s.redealNeeds f up)
      ∧ (up ≠ [] → f.ovf = false → f.latency = false → s.lossOn f.uid = s.redeal f up)))
  ∧ (∀ (r : Option Firing) (s : State),
    r = s.kiln.firings.find? (fun f => f.st == .granted && f.waitPlane.any (fun p => s.fits (s.heldNeeds f.uid) (f.needs [p]))) →
    (r = none → exec .redealResourceFree s = .next s)
    ∧ ∀ f, r = some f → exec .redealResourceFree s = .next (s.moveLatency {} { f with waitPlane := none } f.planes)
      ∧ (s.fits (s.heldNeeds f.uid) (f.needs [pickPlane f.planes f.fn.toNat]) = true →
          (s.moveLatency {} { f with waitPlane := none } f.planes).kiln.redeals = satInc s.kiln.redeals))
  ∧ (∀ (x : Nat) (s : State), (∀ f, s.granted? x = some f → f.ovf = false ∨ f.allDone = false ∨ f.cause ≠ none ∨ f.preloadRange = true) →
    exec (.overflowReplay x) s = .next s)
  ∧ ∀ (x : Nat) (f : Firing) (s : State), s.granted? x = some f → f.ovf = true → f.allDone = true → f.cause = none → f.preloadRange = false →
    (f.attempt < 3 → -15 ≤ scaleAt f.desc (f.attempt + 1) →
      (s.replayFits f = true → exec (.overflowReplay x) s = .next (((s.freshSlots f).modFiring f.uid (fun _ => f.forReplay)).sendGrant f.forReplay)
        ∧ f.forReplay.setter = f.setter ∧ f.forReplay.fn = f.fn ∧ f.forReplay.seq = f.seq ∧ f.forReplay.ts = f.ts
        ∧ f.forReplay.attempt = f.attempt + 1 ∧ f.forReplay.ovf = false)
      ∧ (s.replayFits f = false → exec (.overflowReplay x) s = .next s))
    ∧ ((3 ≤ f.attempt ∨ scaleAt f.desc (f.attempt + 1) < -15) → exec (.overflowReplay x) s = .next
        (((s.decideEnd f.uid stOverflow 0xFFFF 0).sendEnds (s.kiln.firings.length + 1) f.group).offer.driveKiln))

/-- O32. FIRING_END ends a granted firing whose data has run through, with FAULT DEPOSIT_POISON, RANGE or OK; after it the firing is ended, its
setter rests, and its end message carries that status. SETTER_REST_END, 10 µs after, frees the setter. Before that neither changes anything.
The model's own choices behind it: what a deposit waits for is that of assumption log 57, that a rest is counted in block time that of
log 86, the comparison of block time that of log 89. -/
def Obligations.FiringEnd : Prop :=
  (∀ (g seq : Nat) (r : Option Firing) (s : State), r = s.kiln.firings.find? (fun f => f.group == g && f.seq.toNat == seq && f.st == .granted) →
    ((∀ f, r = some f → s.ranThrough f = false ∨ f.desc.kind = 4) → exec (.firingEnd g seq) s = .next s)
    ∧ ∀ f, r = some f → s.ranThrough f = true → f.desc.kind ≠ 4 →
      exec (.firingEnd g seq) s = .next (((s.setInitBits f).decideEnd f.uid f.doneWith.1 f.doneWith.2.1 f.doneWith.2.2).afterEnd g)
      ∧ (f.depPoison = true → f.doneWith.1 = stFault ∧ f.doneWith.2.2 = clDepositPoison.toNat)
      ∧ (f.depPoison = false → f.range = true → f.doneWith = (stRange, 0xFFFF, 0))
      ∧ (f.depPoison = false → f.range = false → f.doneWith = (stOk, 0xFFFF, 0)))
  ∧ (∀ (f : Firing) (st : BitVec 8) (r c : Nat) (s : State), canonical s → s.firing? f.uid = some f → f.st = .granted → f.cause = none →
    f.usesPlane = true → (∃ x, f.setter = some x) →
    ∃ g ∈ (s.decideEnd f.uid st r c).kiln.firings, g.uid = f.uid ∧ g.st = .ended ∧ g.setter = f.setter ∧ g.restEnd = some (s.time + 10000)
      ∧ (∃ e, g.endMsg = some e ∧ e.status = st ∧ e.fn = f.fn ∧ e.seq = f.seq ∧ e.noGrant = false)
      ∧ f.setter.getD 0 ∈ (s.decideEnd f.uid st r c).kiln.resting)
  ∧ ∀ (x : Nat) (r : Option Firing) (s : State),
    r = s.kiln.firings.find? (fun f => f.st == .ended && f.setter == some x && f.restEnd.any (fun t => hasCome t s.time)) →
    (r = none → exec (.setterRestEnd x) s = .next s)
    ∧ ∀ f, r = some f → ∃ u, exec (.setterRestEnd x) s = .next (State.offer u) ∧ u = { s with kiln := u.kiln } ∧ ¬ x ∈ u.kiln.resting
      ∧ ∀ y ∈ s.kiln.resting, y ≠ x → y ∈ u.kiln.resting

/-- O33. RESULT_FLIT_RECEIVE takes an intact flit off the leaf port's downward link and gives its bytes to the running firing of its setter,
if it has one; a poisoned flit is counted, and a flit whose CRC fails costs the link. END_RECEIVE records the end and stops the firing's
sending; of scratchpad it writes only result areas that the end leaves without defined contents. Where a row's flit or message is not there
nothing changes.
The model's own choices behind it: bytes of areas without defined contents are free values (assumption log 12), where result bytes wait is
that of log 39, which firing an end names that of log 107, when its sending stops that of log 84. -/
def Obligations.ResultsAndEnds : Prop :=
  (∀ (l p : Nat) (err : BitVec 568) (s : State),
    ((4 ≤ p ∨ s.leafExists l = false ∨ s.takeFlit (leafLinkKey l .down p) err = none) → exec (.resultFlitReceive l p err) s = .next s)
    ∧ (p < 4 → s.leafExists l = true →
      (∀ t, s.takeFlit (leafLinkKey l .down p) err = some (none, t) → exec (.resultFlitReceive l p err) s = .next t)
      ∧ ∀ c t n, s.takeFlit (leafLinkKey l .down p) err = some (some c, t) →
        n = (if c.flit.poison = true then satInc (t.leaf l).poisonFlits else (t.leaf l).poisonFlits) →
        (((t.leaf l).failed = true ∨ (t.leaf l).taken.find? (fun x => x.listens && x.setter == c.flit.setter) = none) →
          exec (.resultFlitReceive l p err) s = .next ((t.setLeaf l { t.leaf l with poisonFlits := n }).drive (leafLinkKey l .down p)))
        ∧ ∀ x, (t.leaf l).failed = false → (t.leaf l).taken.find? (fun x => x.listens && x.setter == c.flit.setter) = some x →
          exec (.resultFlitReceive l p err) s = .next ((t.setLeaf l { t.leaf l with
            poisonFlits := n
            taken := modFirst (fun y => y.cnt == x.cnt) (fun y => y.takeResult (t.leaf l).chunk c) (t.leaf l).taken }).drive (leafLinkKey l .down p))))
  ∧ (∀ (l : Nat) (s : State), ((s.leaf l).failed = true ∨ ∀ e d ms, (s.leaf l).inbox ≠ .done e d :: ms) → exec (.endReceive l) s = .next s)
  ∧ ∀ (l : Nat) (e : EndMsg) (d : List Nat) (ms : List CtlMsg) (s : State), (s.leaf l).failed = false →
    (s.leaf l).inbox = .done e d :: ms →
    ((s.leaf l).endsFor e = none → exec (.endReceive l) s = .next (s.setLeaf l { s.leaf l with inbox := ms }))
    ∧ ∀ x, canonical s → (s.leaf l).endsFor e = some x →
      ∃ t, exec (.endReceive l) s = .next t ∧ t = { s with leaves := t.leaves, tick := s.tick + 1 }
        ∧ (∀ k, k ≠ l → t.leaf k = s.leaf k)
        ∧ t.leaf l = { s.leaf l with inbox := ms, taken := (t.leaf l).taken, scratch := (t.leaf l).scratch }
        ∧ (∃ ws, (t.leaf l).taken = modFirst (fun y => y.cnt == x.cnt) (fun y => { y with
            ended := some e, stopped := true, writes := y.writes.filter ws }) (s.leaf l).taken)
        ∧ ∀ a, (∀ r ∈ x.lostAreas (s.leaf l).chunk e, ¬ (r.addr ≤ a ∧ a < r.addr + r.len)) → (t.leaf l).byteAt a = (s.leaf l).byteAt a

/-- O34. COMPLETION_RECORD_WRITE with the record due and room in the queue writes the record at LP_CQ_TAIL, advances it, and retires the
descriptor; with no room it sets cq_full; a write that fails stops the leaf port; segment status entries that fail are chunk faults of the
record (R283). A record that is not due is not written.
The model's own choices behind it: which writes failed are operands (assumption log 2), what counts as unwritten and
what precedes a record are those of log 38. -/
def Obligations.CompletionRecord : Prop :=
  (∀ (l slot : Nat) (ok : Bool) (bad : List Nat) (s : State),
    (∀ x, (s.leaf l).inSlot slot = some x → (s.leaf l).record x = none ∨ (s.leaf l).recordDue x = false ∨ s.allTaken l x = false) →
    exec (.completionRecordWrite l slot ⟨ok, bad⟩) s = .next s)
  ∧ ∀ (l slot : Nat) (x : Taken) (r : Record) (s : State), (s.leaf l).inSlot slot = some x → (s.leaf l).record x = some r →
    (s.leaf l).recordDue x = true → s.allTaken l x = true →
    ((s.leaf l).unconsumed < (s.leaf l).e →
      (∀ bad, x.failedStatus (s.leaf l).chunk bad = [] → ∃ q, exec (.completionRecordWrite l slot ⟨true, bad⟩) s = .next (s.setLeaf l q)
        ∧ q.cqTail = (s.leaf l).cqTail + 1 ∧ q.cqFull = false ∧ q.taken = (s.leaf l).taken.filter (fun y => y.cnt != x.cnt)
        ∧ q.scratch = tsetRun 0 ((s.leaf l).beforeRecord x).scratch
            ((s.leaf l).cqBase.toNat + 32 * ((s.leaf l).cqTail.toNat % (s.leaf l).e)) r.bytes
        ∧ (r.status ≠ stOk → bitOf q.intStatus.toNat ibErrRecord = true) ∧ q.enable = (s.leaf l).enable ∧ q.pushBuf = (s.leaf l).pushBuf)
      ∧ (∀ bad, x.failedStatus (s.leaf l).chunk bad ≠ [] →
          exec (.completionRecordWrite l slot ⟨true, bad⟩) s = .next (s.writeFaulted l x (x.failedStatus (s.leaf l).chunk bad)))
      ∧ ∀ bad, ∃ q, exec (.completionRecordWrite l slot ⟨false, bad⟩) s = .next (s.setLeaf l q)
          ∧ ((s.leaf l).failed = false → q.failed = true ∧ q.enable = false ∧ bitOf q.intStatus.toNat ibErrRecord = true)
          ∧ q.unwritten = (s.leaf l).unwritten + (if x.recLost = true then 0 else 1) ∧ q.scratch = (s.leaf l).scratch
          ∧ q.cqTail = (s.leaf l).cqTail)
    ∧ ((s.leaf l).e ≤ (s.leaf l).unconsumed → ∀ ok bad,
        exec (.completionRecordWrite l slot ⟨ok, bad⟩) s = .next (s.setLeaf l { s.leaf l with cqFull := true }))

/-- O35. FIRING_CONE_EXPIRY ends a firing whose cone has run out, in service mode: in ARMING with TIMEOUT, naming the lowest member that has
not armed; ARMED or granted with STALL. In diagnostic mode, before the cone's end, while the reference is absent (R337), or at its very end with an
arming that completes (R315), nothing happens.
The model's own choices behind it: which member has stalled is that of assumption log 54, the comparison of block time that of log 89. -/
def Obligations.FiringCone : Prop :=
  ∀ (g seq : Nat) (r : Option Firing) (s : State),
    r = s.kiln.firings.find? (fun f => f.group == g && f.seq.toNat == seq && f.st != .ended && f.cause.isNone) →
    ((∀ f, r = some f → f.service = false ∨ s.refLost = true ∨ hasCome f.coneEnd s.time = false
        ∨ (f.st = .arming ∧ s.time = f.coneEnd ∧ s.armsWaiting f = true)) → exec (.firingConeExpiry g seq) s = .next s)
    ∧ ∀ f, r = some f → f.service = true → s.refLost = false → hasCome f.coneEnd s.time = true →
      (f.st = .arming → (s.time ≠ f.coneEnd ∨ s.armsWaiting f = false) → exec (.firingConeExpiry g seq) s = .next
        (((s.modLeaf (f.leafOf (s.missingRank f)) (fun p => if s.missingRank f = 0xFFFF then p else { p with missing := satInc p.missing })).decideEnd
          f.uid stTimeout (s.missingRank f) 0).afterEnd g))
      ∧ (f.st = .armed → exec (.firingConeExpiry g seq) s = .next ((s.decideEnd f.uid stStall 0xFFFF 0).afterEnd g))
      ∧ (f.st = .granted → exec (.firingConeExpiry g seq) s = .next ((s.decideEnd f.uid stStall (s.stalledRank f) 0).afterEnd g))

/-- O36. BARRIER_ARRIVE releases a group's barrier that every member has reached: it takes a firing number, ends with OK, and its release
goes to every member; with none, or while admission is held or stopped, nothing changes. BARRIER_RELEASE at a leaf port ends the waiting barrier
and writes its record as soon as it is due; a record that cannot be written stops the leaf port.
The model's own choices behind it: which taken descriptor a release names is that of assumption log 107; whether the record could be written is an
operand (log 2). -/
def Obligations.Barrier : Prop :=
  (∀ (g : Nat) (r : Option Firing) (s : State),
    r = s.kiln.firings.find? (fun f => f.group == g && f.st == .armed && f.cause.isNone && f.desc.kind == 4 && f.ord == (s.groupRun g).nextOrd) →
    ((r = none ∨ s.kiln.paceHold = true ∨ s.kiln.admitStopped = true) → exec (.barrierArrive g) s = .next s)
    ∧ ∀ f, r = some f → s.kiln.paceHold = false → s.kiln.admitStopped = false →
      ∃ u, exec (.barrierArrive g) s = .next ((State.decideEnd u f.uid stOk 0xFFFF 0).afterEnd g).noteOld
        ∧ u = { s with kiln := u.kiln } ∧ u.kiln.lastFn = nextFn s.kiln.lastFn
        ∧ ∃ x, u.firing? f.uid = some x ∧ x.st = .granted ∧ x.fn = nextFn s.kiln.lastFn ∧ x.ts = s.time)
  ∧ (∀ (l : Nat) (ok : Bool) (s : State), (∀ e d ep ms, (s.leaf l).inbox ≠ .release e d ep :: ms) → exec (.barrierRelease l ok) s = .next s)
  ∧ ∀ (l : Nat) (ok : Bool) (e : EndMsg) (d : List Nat) (ep : Bool) (ms : List CtlMsg) (r : Option Taken) (s : State),
    (s.leaf l).inbox = .release e d ep :: ms →
    r = (s.leaf l).taken.find? (fun t => t.phase == .waiting && t.ended.isNone && t.desc.group == e.group.toNat) →
    (r = none → exec (.barrierRelease l ok) s = .next (s.setLeaf l { s.leaf l with inbox := ms }))
    ∧ (r ≠ none → (s.leaf l).failed = true → exec (.barrierRelease l ok) s = .next s)
    ∧ ∀ x, r = some x → (s.leaf l).failed = false →
      ∃ q y, q = { s.leaf l with inbox := ms, taken := modFirst (fun t => t.cnt == x.cnt) (fun _ => y) (s.leaf l).taken }
        ∧ y = { x with phase := .running, fn := e.fn, seq := e.seq, ts := e.ts, ended := some e, stopped := true }
        ∧ ((ok = true ∨ LeafPort.recordDue q y = false ∨ q.e ≤ q.unconsumed) →
          exec (.barrierRelease l ok) s = .next (s.setLeaf l (LeafPort.recordIfDue q y)))
        ∧ (ok = false → LeafPort.recordDue q y = true → q.unconsumed < q.e →
          exec (.barrierRelease l ok) s = .next (s.setLeaf l (LeafPort.recordFails q y s.time)))

/-- O37. LEAF_PORT_FAILURE_SIGNAL fails a leaf port that has lost its links or its control path: err_record sets, it takes no more and ends what
it has taken with FAULT; LEAF_FAILURE_REGISTER makes the kiln register it, disables the leaf in the shadow set and writes its events; a registered
leaf is not registered again, and a leaf port that need not fail, or has, does not fail by the row.
The model's own choices behind it: what a record of a firing not granted says is that of assumption log 37. -/
def Obligations.LeafFailure : Prop :=
  (∀ (l : Nat) (s : State), (s.leafExists l = false ∨ (s.leaf l).failed = true ∨ s.leafMustFail l = false) →
    exec (.leafPortFailureSignal l) s = .next s)
  ∧ (∀ (l : Nat) (s : State), s.leafExists l = true → (s.leaf l).failed = false → s.leafMustFail l = true →
    ∃ q, exec (.leafPortFailureSignal l) s = .next (s.setLeaf l q) ∧ q.failed = true ∧ q.enable = false ∧ q.failReported = false
      ∧ q.intStatus = setBit (s.leaf l).intStatus ibErrRecord
      ∧ (∀ t ∈ q.taken, t.phase ≠ .pass → t.ended ≠ none) ∧ (∀ t ∈ q.taken, t.phase = .pass → t.passEnd ≠ none)
      ∧ q.scratch = (s.leaf l).scratch ∧ q.bisque = (s.leaf l).bisque ∧ q.ringHead = (s.leaf l).ringHead)
  ∧ ∀ (l : Nat) (s : State),
    (((s.leaf l).failed = false ∨ (s.leaf l).failReported = true) → exec (.leafFailureRegister l) s = .next s)
    ∧ ((s.leaf l).failed = true → (s.leaf l).failReported = false →
        exec (.leafFailureRegister l) s = .next (s.registerLeaf l).offer.driveKiln
        ∧ (canonical s → (∀ f ∈ s.kiln.firings, f.st = .ended) →
            (s.registerLeaf l).cfg.shadow.disabled = s.cfg.shadow.disabled ||| BitVec.ofNat 8192 (2 ^ l)
            ∧ (s.registerLeaf l).cfg.shadowGen = s.cfg.shadowGen + 1
            ∧ (s.registerLeaf l).leaf l = { s.leaf l with failReported := true, failCounted := true }
            ∧ (s.registerLeaf l).kiln.failedLeaves = insertRise l s.kiln.failedLeaves))

/-! ### Memories that fail -/

/-- O38. CONFIG_WORD_UNCORRECTABLE: a word that the other copy still gives is counted, rewritten and reported; one that neither copy gives is
lost, and a lost active group entry breaks its group; a word already lost is counted alone. SCRUB_PERIODIC treats each finding so, and counts a
corrected error of the copy it stands in.
The model's own choices behind it: what the other copy and the rewrite give are operands (assumption log 2); when a bank rests on one copy is that
of log 55. -/
def Obligations.ConfigWords : Prop :=
  (∀ (w : CfgWord) (k : Copy) (o r : Bool) (fs : List ScrubFind) (s : State), s.awake = false →
    exec (.configWordUncorrectable w k o r) s = .next s ∧ exec (.scrubPeriodic fs) s = .next s)
  ∧ (∀ (w : CfgWord) (k : Copy) (s : State), s.awake = true →
    ((w ∈ s.cfg.lost ∨ (w.bank ∈ s.cfg.oneCopy ∧ k = .a)) → ∀ o r, exec (.configWordUncorrectable w k o r) s = .next { s with cfg := { s.cfg with
        uncorrA := if k = .a then satInc s.cfg.uncorrA else s.cfg.uncorrA, uncorrB := if k = .b then satInc s.cfg.uncorrB else s.cfg.uncorrB } })
    ∧ (¬ w ∈ s.cfg.lost → ¬ w.bank ∈ s.cfg.oneCopy → ¬ (w, k.other) ∈ s.cfg.badWords →
      (∃ t, exec (.configWordUncorrectable w k false false) s = .next t
        ∧ faultsOnly { s with cfg := { s.cfg with
            uncorrA := if k = .a then satInc s.cfg.uncorrA else s.cfg.uncorrA, uncorrB := if k = .b then satInc s.cfg.uncorrB else s.cfg.uncorrB,
            badWords := s.cfg.badWords.filter (fun e => e != (w, k)) } } t)
      ∧ ∃ t, exec (.configWordUncorrectable w k false true) s = .next t
        ∧ faultsOnly { s with cfg := { s.cfg with
            uncorrA := if k = .a then satInc s.cfg.uncorrA else s.cfg.uncorrA, uncorrB := if k = .b then satInc s.cfg.uncorrB else s.cfg.uncorrB,
            badWords := addOnce s.cfg.badWords (w, k),
            oneCopy := if k = .a then addOnce s.cfg.oneCopy w.bank else s.cfg.oneCopy } } t)
    ∧ (¬ w ∈ s.cfg.lost → ¬ (w.bank ∈ s.cfg.oneCopy ∧ k = .a) → ∀ o r,
      (w.bank ∈ s.cfg.oneCopy ∨ o = true ∨ (w, k.other) ∈ s.cfg.badWords) →
      ∃ t, exec (.configWordUncorrectable w k o r) s = .next t ∧ w ∈ t.cfg.lost
        ∧ t.cfg.active = s.cfg.active ∧ t.cfg.shadow = s.cfg.shadow ∧ t.cfg.saggars = s.cfg.saggars
        ∧ (w.set.isSome = true → w.shadow = false → w.table = 1 →
            (tget {} t.kiln.groups w.index).broken = true ∧ (tget {} t.kiln.groups w.index).reason = 3)
        ∧ t = { s with cfg := t.cfg, kiln := t.kiln, faultLog := t.faultLog, ports := t.ports, smb := t.smb, trace := t.trace, counters := t.counters }))
  ∧ ∀ (s : State), s.awake = true →
    (∀ fs, exec (.scrubPeriodic fs) s = .next (fs.foldl State.scrubOne s))
    ∧ (∀ f : ScrubFind, f.uncorrectable = true →
        exec (.scrubPeriodic [f]) s = exec (.configWordUncorrectable f.word f.copy f.otherBad f.rewriteBad) s)
    ∧ ∀ f : ScrubFind, f.uncorrectable = false → exec (.scrubPeriodic [f]) s = .next { s with cfg := { s.cfg with
        corrA := if f.copy = .a then satInc s.cfg.corrA else s.cfg.corrA, corrB := if f.copy = .b then satInc s.cfg.corrB else s.cfg.corrB } }

/-- O39. MEMORY_UNCORRECTABLE, memory by memory (Table 12.4): a twin's memory is that twin's fault, a retry buffer loses what it can no longer
resend, a setter's firing ends with FAULT, an accumulator's holder ends with FAULT and one without holder is damaged, a bisque accumulator is
NEVER_WRITTEN, a digest accumulator is saturated, a staged chunk reads as failed, and a leaf port that loses its state fails. The error is counted
where the memory stands; a corrected one changes nothing else; and a memory the block does not have is not read.
The model's own choices behind it: what becomes of an accumulator without holder is that of assumption log 45, the retry buffer that of log 53, a damaged
accumulator that of log 56, where an error is counted that of log 95. -/
def Obligations.MemoryFaults : Prop :=
  (∀ (m : MemUnit) (b : Bool) (s : State), (s.awake = false ∨ s.hasMem m = false) → exec (.memoryUncorrectable ⟨m, b⟩) s = .next s)
  ∧ (∀ (m : MemUnit) (s : State), s.awake = true → s.hasMem m = true →
    exec (.memoryUncorrectable ⟨m, true⟩) s = .next (s.countCorrected m)
    ∧ (∀ ix, m.countedAt = .node ix → s.countCorrected m = s.modStat ix (fun n => { n with sramCorr := satInc n.sramCorr })
        ∧ s.countUncorrected m = s.modStat ix (fun n => { n with sramUncorr := satInc n.sramUncorr }))
    ∧ ∀ l, m.countedAt = .leaf l → s.countCorrected m = s.setLeaf l { s.leaf l with sramCorr := satInc (s.leaf l).sramCorr }
        ∧ s.countUncorrected m = s.setLeaf l { s.leaf l with sramUncorr := satInc (s.leaf l).sramUncorr })
  ∧ ∀ (m : MemUnit) (u s : State), s.awake = true → s.hasMem m = true → u = s.countUncorrected m →
    (∀ node w, m = .twin node w →
      ((u.stat node).pairOut = true → exec (.memoryUncorrectable ⟨m, false⟩) s = .next u)
      ∧ ((u.stat node).pairOut = false → exec (.memoryUncorrectable ⟨m, false⟩) s
          = .next (State.noteKilnCtl ((u.modStat node (fun n => n.residue w)).twinFault node w))))
    ∧ (∀ key n, m = .retry key n →
      (isBridge key = true → exec (.memoryUncorrectable ⟨m, false⟩) s = .next (u.setLink key ((s.link key).dropRetry n)))
      ∧ (isBridge key = false → exec (.memoryUncorrectable ⟨m, false⟩) s = .next u))
    ∧ (∀ x, m = .setter x →
      (u.setterHolder x = none → exec (.memoryUncorrectable ⟨m, false⟩) s = .next u)
      ∧ ∀ f, u.setterHolder x = some f → ∃ v, exec (.memoryUncorrectable ⟨m, false⟩) s
        = .next ((State.decideEnd v f.uid stFault 0xFFFF clStateLost.toNat).afterEnd f.group) ∧ faultsOnly u v)
    ∧ (∀ k, m = .kacc k →
      (256 ≤ k → exec (.memoryUncorrectable ⟨m, false⟩) s = .next u)
      ∧ (k < 256 → u.kaccHolder k = none → ∃ v, exec (.memoryUncorrectable ⟨m, false⟩) s = .next v
          ∧ faultsOnly (u.modKacc k (fun a => { a with damaged := true })) v)
      ∧ ∀ f, k < 256 → u.kaccHolder k = some f → ∃ v, exec (.memoryUncorrectable ⟨m, false⟩) s
          = .next ((State.decideEnd v f.uid stFault 0xFFFF clStateLost.toNat).afterEnd f.group) ∧ faultsOnly u v)
    ∧ (∀ l i, m = .bisque l i →
      (4 ≤ i → exec (.memoryUncorrectable ⟨m, false⟩) s = .next u)
      ∧ (i < 4 → ∃ v, exec (.memoryUncorrectable ⟨m, false⟩) s = .next v
          ∧ faultsOnly (u.setLeaf l { u.leaf l with
              bisque := tmod {} (u.leaf l).bisque i (fun b => { b with st := .neverWritten, val := {}, damaged := true }) }) v))
    ∧ (∀ i, m = .digest i →
      ((∀ a, u.kiln.digests.find? (fun e => e.1 == i) = some (i, a) → a.isOpen = false) → exec (.memoryUncorrectable ⟨m, false⟩) s = .next u)
      ∧ ∀ a, u.kiln.digests.find? (fun e => e.1 == i) = some (i, a) → a.isOpen = true → ∃ v, exec (.memoryUncorrectable ⟨m, false⟩) s = .next v
        ∧ faultsOnly { u with kiln := { u.kiln with digests := tmod {} u.kiln.digests i (fun a => { a with sum := 0, fails := 0xFFFF, sat := true }) } } v)
    ∧ (∀ l slot area c, m = .leafStaging l slot area c → ∃ q, exec (.memoryUncorrectable ⟨m, false⟩) s = .next (u.setLeaf l q)
        ∧ q.scratch = (u.leaf l).scratch ∧ q.bisque = (u.leaf l).bisque
        ∧ (∀ x, (u.leaf l).inSlot slot = some x → (∃ y ∈ x.chunks, y.ix = c ∧ y.area = area ∧ y.data ≠ none) →
            q.chunkFaults = satInc (u.leaf l).chunkFaults)
        ∧ ((∀ x, (u.leaf l).inSlot slot = some x → ∀ y ∈ x.chunks, y.ix = c → y.area = area → y.data = none) → q = u.leaf l))
    ∧ ∀ l, m = .leafState l →
      ((u.leaf l).failed = true → exec (.memoryUncorrectable ⟨m, false⟩) s = .next u)
      ∧ ((u.leaf l).failed = false → ∃ q, exec (.memoryUncorrectable ⟨m, false⟩) s = .next (u.setLeaf l q)
          ∧ q.failed = true ∧ q.enable = false ∧ q.scratch = (u.leaf l).scratch)

/-! ### Pyrometers, governor and wake sequencer -/

/-- O40. A pass of a die slice: PYRO_PASS_START begins one that is due on an idle slice; PYRO_PASS_COMPLETE, within 400 ns and with eight echoes
of every link on the paths, forms the delays and base trims of the enabled leaves, makes the slice's trims fresh and records its time and
temperature; PYRO_PASS_ABANDON counts it as missed. Otherwise a row changes nothing.
The model's own choices behind it: the echoes are operands (assumption log 2); the turnaround that a half mean is less by is a free value
(log 98); when a pass is due is that of log 60; the rows' moments those of log 85 and 89. -/
def Obligations.PyroPass : Prop :=
  ∀ (d : Nat) (s : State),
    (s.dieLive d = true → (s.die d).sched = true → (s.die d).measuring = false → s.dieIdle d = true →
      exec (.pyroPassStart d) s = .next (s.setDie d { s.die d with sched := false, measuring := true, started := s.time, parkQ := [] }))
    ∧ ((s.dieLive d = false ∨ (s.die d).sched = false ∨ (s.die d).measuring = true ∨ s.dieIdle d = false) → exec (.pyroPassStart d) s = .next s)
    ∧ (∀ es, canonical s → s.dieLive d = true → (s.die d).measuring = true → s.passed (s.die d).started 401 = false →
        (∀ l ∈ s.measuredLeaves d, leafDelay es l ≠ none) →
      ∃ t, exec (.pyroPassComplete d es) s = .next t
        ∧ (t.die d).measuring = false ∧ (t.die d).measTime = s.time ∧ (t.die d).tempMeas = (s.die d).tempNow
        ∧ (t.die d).passes = satInc (s.die d).passes ∧ (t.die d).trimStale = false ∧ (t.die d).passed = true ∧ (t.die d).passedPace = true
        ∧ (∀ l ∈ s.measuredLeaves d, (t.leaf l).delay = leafDelay es l
            ∧ ∀ v, leafDelay es l = some v → (t.leaf l).base = min 63 (baseTrim t.releaseTarget v))
        ∧ t = { s with dies := t.dies, leaves := t.leaves, releaseTarget := t.releaseTarget, ctl := t.ctl, ports := t.ports, smb := t.smb,
                       trace := t.trace, counters := t.counters })
    ∧ (∀ es, (s.dieLive d = false ∨ (s.die d).measuring = false ∨ s.passed (s.die d).started 401 = true
        ∨ ∃ l ∈ s.measuredLeaves d, leafDelay es l = none) → exec (.pyroPassComplete d es) s = .next s)
    ∧ ((s.die d).measuring = true →
      exec (.pyroPassAbandon d) s = .next (s.setDie d { s.die d with measuring := false, missed := satInc (s.die d).missed }))
    ∧ ((s.die d).measuring = false → exec (.pyroPassAbandon d) s = .next s)

/-- O41. LOAD_CORRECTION forms load_corr from the activity and rewrites the inactive trims; TRIM_EPOCH_FLIP flips the epoch when new trims wait
and the last flip is 10 µs old; TRIM_STALE_SET sets trim_stale with its event when a condition of R357 fails; TEMP_SAMPLE takes the reading.
On a die slice that is not live, or where a condition fails, a row changes nothing.
The model's own choices behind it: the readings are operands (assumption log 2); the rows' moments are those of log 61, 85 and 89. -/
def Obligations.Trims : Prop :=
  ∀ (d : Nat) (s : State),
    (s.dieLive d = false → ∀ w, exec (.loadCorrection d) s = .next s ∧ exec (.trimEpochFlip d) s = .next s ∧ exec (.trimStaleSet d) s = .next s
      ∧ exec (.tempSample d w) s = .next s)
    ∧ (s.dieLive d = true →
      (canonical s → ∃ t, exec (.loadCorrection d) s = .next t ∧ t = { s with dies := t.dies, leaves := t.leaves }
        ∧ (t.die d).loadCorr = ((s.die d).activity * 10 + 1 / 2).floor.toNat ∧ (t.die d).epoch = (s.die d).epoch
        ∧ (∀ e, e ≠ d → t.die e = s.die e)
        ∧ (∀ l, l / 256 ≠ d → t.leaf l = s.leaf l)
        ∧ ∀ l, l / 256 = d → (t.leaf l).trimOf (s.die d).epoch = (s.leaf l).trimOf (s.die d).epoch
            ∧ (t.leaf l).trimOf (!(s.die d).epoch) = (s.leaf l).base - (t.die d).loadCorr)
      ∧ ((s.die d).newTrims = true → (∀ w, (s.die d).lastFlip = some w → s.passed w 10000 = true) →
        exec (.trimEpochFlip d) s = .next (s.setDie d { s.die d with epoch := !(s.die d).epoch, newTrims := false, lastFlip := some s.time }))
      ∧ (((s.die d).newTrims = false ∨ ∃ w, (s.die d).lastFlip = some w ∧ s.passed w 10000 = false) → exec (.trimEpochFlip d) s = .next s)
      ∧ ((s.die d).trimStale = false → (s.die d).fresh s.time = false → ∃ t, exec (.trimStaleSet d) s = .next t
        ∧ recordsOnly (s.setDie d { s.die d with trimStale := true }) t)
      ∧ (((s.die d).trimStale = true ∨ (s.die d).fresh s.time = true) → exec (.trimStaleSet d) s = .next s)
      ∧ ∀ w, exec (.tempSample d w) s = .next (s.setDie d { s.die d with tempNow := w }))

/-- O42. QUIET_HOLD_START holds one die slice whose last pass is 8 ms old, or that a calibration asks to hold; QUIET_HOLD_END ends the hold once
a pass has completed in it, or after 4 µs, and what waits is offered. Otherwise a row changes nothing.
The model's own choices behind it: what a calibration asks is that of assumption log 60, the comparison of block time that of log 89. -/
def Obligations.QuietHold : Prop :=
  ∀ (d : Nat) (s : State),
    (s.dieLive d = true → s.kiln.quiet = none →
        ((s.trimQuiet = true ∧ (s.die d).passed = true ∧ s.passed (s.die d).measTime 8000000 = true) ∨ s.calWants d = true) →
      exec (.quietHoldStart d) s = .next ({ s with kiln := { s.kiln with quiet := some d } }.setDie d { s.die d with
        quietHold := true, holds := satInc (s.die d).holds, holdStart := s.time, sched := !(s.die d).measuring }))
    ∧ ((s.dieLive d = false ∨ s.kiln.quiet ≠ none ∨
        ((s.trimQuiet = false ∨ (s.die d).passed = false ∨ s.passed (s.die d).measTime 8000000 = false) ∧ s.calWants d = false)) →
      exec (.quietHoldStart d) s = .next s)
    ∧ ∀ done, done = (!(s.die d).measuring && !(s.die d).sched && (s.die d).passed && hasCome (s.die d).holdStart (s.die d).measTime) →
      ((s.die d).quietHold = true → done = true →
        exec (.quietHoldEnd d) s = .next ({ s with kiln := { s.kiln with quiet := none } }.setDie d { s.die d with quietHold := false }).offer)
      ∧ ((s.die d).quietHold = true → done = false → s.passed (s.die d).holdStart 4000 = true →
        ∃ y, exec (.quietHoldEnd d) s = .next ({ s with kiln := { s.kiln with quiet := none } }.setDie d y).offer ∧ y.quietHold = false
          ∧ y.measuring = (s.die d).measuring ∧ y.passes = (s.die d).passes
          ∧ (s.calWants d = false → y = { s.die d with quietHold := false })
          ∧ (s.calWants d = true → y.calTries = (s.die d).calTries + 1 ∧ y.calWait = true))
      ∧ (((s.die d).quietHold = false ∨ (done = false ∧ s.passed (s.die d).holdStart 4000 = false)) → exec (.quietHoldEnd d) s = .next s)

/-- O43. ACTIVITY_ESTIMATE takes the estimate of R508 over the handshakes since the one before, those of test patterns among them.
GOVERNOR_SLOT, once in a slot, takes the supply and the link rate and moves r_cap by at most 0.125 GT/s: toward 1.25 GT/s while the paced mode governs, else toward the target of R503, and never
past it; what is no longer due to park leaves the park list. Otherwise a row changes nothing.
The model's own choices behind it: over which handshakes the estimate goes is that of assumption log 99; the supply and the rate are operands
(log 2); the rows' moments are those of log 62, 85 and 89. -/
def Obligations.Governor : Prop :=
  (∀ (d n : Nat) (v r : Rat) (s : State),
    (s.dieLive d = true → exec (.activityEstimate d n) s = .next (s.setDie d { s.die d with
        activity := (s.die d).estimate (s.dieShakes d - (s.die d).shakes + n), shakes := s.dieShakes d }))
    ∧ (s.dieLive d = false → exec (.activityEstimate d n) s = .next s)
    ∧ ((s.dieLive d = false ∨ s.atSlot (s.die d).govSlot = false) → exec (.governorSlot d v r) s = .next s))
  ∧ ∀ (d : Nat) (v r : Rat) (s : State), canonical s → s.dieLive d = true → s.atSlot (s.die d).govSlot = true →
    ∃ y target, exec (.governorSlot d v r) s = .next (s.setDie d y) ∧ y.vdd = v ∧ y.rLink = r ∧ y.govSlot = some s.time
      ∧ (s.governedPaced = true → target = 5 / 4)
      ∧ (s.governedPaced = false → target = max (1 / 4) (min (({ s.die d with vdd := v, rLink := r } : Die).rBudget
          ((s.cfg.active.budgetOf d).toNat : Rat)) (min r (12 / 5))))
      ∧ y.rCap - (s.die d).rCap ≤ 1 / 8 ∧ (s.die d).rCap - y.rCap ≤ 1 / 8
      ∧ (target ≤ (s.die d).rCap → target ≤ y.rCap ∧ y.rCap ≤ (s.die d).rCap)
      ∧ ((s.die d).rCap ≤ target → (s.die d).rCap ≤ y.rCap ∧ y.rCap ≤ target)
      ∧ y.segs = (s.die d).segs ∧ y.wakeQ = (s.die d).wakeQ ∧ y.parkQ = (s.die d).parkQ.filter (s.parkable d)

/-- O44. The wake sequencer: WAKE_SLOT, once in a slot, starts ramps of queued wakes and of parks still due only; a ramp's end makes its segment
awake or parked and counts it, and what waits is offered; PARK_DUE queues a segment that may park. Otherwise a row changes nothing.
The model's own choices behind it: the rows' moments are those of assumption log 62 and 85. -/
def Obligations.WakeSequencer : Prop :=
  ∀ (d : Nat) (s : State),
    (canonical s → s.dieLive d = true → s.atSlot (s.die d).wakeSlot = true → ∃ y, exec (.wakeSlot d) s = .next (State.offer (s.setDie d y))
      ∧ (∀ i, y.seg i = .waking → (s.die d).seg i = .waking ∨ i ∈ (s.die d).wakeQ)
      ∧ (∀ i, y.seg i = .parking → (s.die d).seg i = .parking ∨ (i ∈ (s.die d).parkQ ∧ s.parkable d i = true))
      ∧ (∀ i, y.seg i = .awake → (s.die d).seg i = .awake) ∧ y.rCap = (s.die d).rCap ∧ y.wakeSlot = some s.time)
    ∧ ((s.dieLive d = false ∨ s.atSlot (s.die d).wakeSlot = false) → exec (.wakeSlot d) s = .next s)
    ∧ (∀ i, ((s.die d).seg i = .waking → exec (.wakeRampEnd d i) s = .next (s.setDie d { s.die d with
          segs := tset .parked (s.die d).segs i .awake, wakes := satInc (s.die d).wakes }).offer)
        ∧ ((s.die d).seg i ≠ .waking → exec (.wakeRampEnd d i) s = .next s)
        ∧ ((s.die d).seg i = .parking → exec (.parkRampEnd d i) s = .next (s.setDie d { s.die d with
          segs := tset .parked (s.die d).segs i .parked, parks := satInc (s.die d).parks }).offer)
        ∧ ((s.die d).seg i ≠ .parking → exec (.parkRampEnd d i) s = .next s))
    ∧ ∀ i, (s.dieLive d = true → ¬ i ∈ (s.die d).parkQ → s.parkable d i = true →
          exec (.parkDue d i) s = .next (s.setDie d { s.die d with parkQ := (s.die d).parkQ ++ [i] }))
        ∧ ((s.dieLive d = false ∨ i ∈ (s.die d).parkQ ∨ s.parkable d i = false) → exec (.parkDue d i) s = .next s)

/-! ### Configuration boundaries and the deposit port -/

/-- O45. COMMIT_SWAP takes the first commit that waits: a shadow set that passes its checks becomes active under its generation plus 1; one that
no longer passes is answered with its error and swaps nothing, and so is one of a saggar that is gone. SAGGAR_DESTROY_EFFECT frees the saggar
number, its quota and its leaf slots, and marks the regions that name it. With none that waits nothing changes.
The model's own choices behind it: that the checks are made again, and on what the set holds then, is that of assumption log 67 and 68. -/
def Obligations.CommitBoundary : Prop :=
  (∀ s : State, s.cfg.swaps = [] → exec .commitSwap s = .next s)
  ∧ (∀ (set : Option Nat) (p : Nat) (tag : BitVec 16) (rest : List (Option Nat × Nat × BitVec 16)) (v s : State),
    s.cfg.swaps = (set, p, tag) :: rest → v = { s with cfg := { s.cfg with swaps := rest } } →
    ((∃ k, set = some k ∧ (s.cfg.sag k).inUse = false) →
      exec .commitSwap s = .next (v.finishLate p 0x0113 tag erNotFound [] false).nextRequest)
    ∧ ((∀ k, set = some k → (s.cfg.sag k).inUse = true) →
      (∀ e, v.badCommit set = some e → exec .commitSwap s = .next
        ((v.finishLate p 0x0113 tag e.1 (badCommitData e.2.1 e.2.2) false).endCommit p tag 1).nextRequest)
      ∧ (v.badCommit set = none →
        (set = none → ∃ u, exec .commitSwap s = .next (State.offer (State.endCommit u p tag 0)).nextRequest ∧ u.cfg.active = s.cfg.shadow
          ∧ u.cfg.activeGen = s.cfg.shadowGen + 1 ∧ u.cfg.shadowGen = s.cfg.shadowGen + 1 ∧ u.cfg.swaps = rest ∧ u.cfg.saggars = s.cfg.saggars)
        ∧ (∀ k, set = some k → canonical s → ∃ u, exec .commitSwap s = .next (State.offer u).nextRequest
          ∧ (u.cfg.sag k).active = (s.cfg.sag k).shadow.clean ∧ (u.cfg.sag k).activeGen = (s.cfg.sag k).shadowGen + 1
          ∧ u.cfg.active = s.cfg.active ∧ u.cfg.swaps = rest ∧ ∀ j, j ≠ k → u.cfg.sag j = s.cfg.sag j))))
  ∧ ∀ (k : Nat) (s : State),
    ((s.cfg.sag k).dying = none → exec (.saggarDestroyEffect k) s = .next s)
    ∧ ∀ p tag, (s.cfg.sag k).dying = some (p, tag) → canonical s →
      ∃ u, exec (.saggarDestroyEffect k) s = .next (State.offer u) ∧ (u.cfg.sag k).inUse = false ∧ (u.cfg.sag k).dying = none
        ∧ (∀ j, j ≠ k → u.cfg.sag j = s.cfg.sag j) ∧ u.cfg.activeGen = s.cfg.activeGen ∧ (u.port p).lastEffect = some tag
        ∧ u.cfg.active = s.cfg.active.without k ∧ u.cfg.shadow = s.cfg.shadow.without k

/-- O46. The deposit port: DEPOSIT_REQUEST_ACCEPT takes the oldest waiting request under the lowest free number, its firing's flow goes on; with
no request or no free number it changes nothing. DEPOSIT_RESPONSE takes its request off those outstanding; MAPPED_OUT and DATA_ERROR are
counted, a firing that still runs takes the answer, and an answer to no request changes nothing.
The model's own choices behind it: how long a firing waited is an operand (assumption log 2) beside what log 101 counts; how requests form and what
an answer does to a line are those of log 57. -/
def Obligations.DepositPort : Prop :=
  (∀ (w : Nat) (s : State), (s.dep.queue = [] ∨ s.dep.freeId = none) → exec (.depositRequestAccept w) s = .next s)
  ∧ (∀ (r : DepReq) (rs : List DepReq) (i w : Nat) (s : State), s.dep.queue = r :: rs → s.dep.freeId = some i →
    ∃ u, exec (.depositRequestAccept w) s = .next (State.kilnAdvance u r.uid)
      ∧ u = { s with dep := { s.dep with queue := rs, flying := s.dep.flying ++ [{ r with id := i }],
                                         since := if rs.isEmpty = true then none else some s.time },
                     counters := u.counters, kiln := u.kiln }
      ∧ u.kiln = { s.kiln with firings := modFirst (fun f => f.uid == r.uid) (fun f => { f with depWait := f.depWait + w }) s.kiln.firings }
      ∧ (canonical s → tget 0 u.counters 0x08 = satInc (tget 0 s.counters 0x08)))
  ∧ ∀ (i : Nat) (code : DepCode) (x : BitVec 512) (s : State),
    (s.dep.flying.find? (fun q => q.id == i) = none → exec (.depositResponse i code x) s = .next s)
    ∧ ∀ r u, s.dep.flying.find? (fun q => q.id == i) = some r →
      u = { (match code with
        | .ok => s
        | .mappedOut => s.bumpBy 0x0A (s.mappedCount r)
        | .dataError => s.bump 0x0B) with dep := { s.dep with flying := s.dep.flying.filter (fun q => q.id != i) } } →
      ((∀ f, s.firing? r.uid = some f → f.st ≠ .granted) → exec (.depositResponse i code x) s = .next u)
      ∧ ∀ f, s.firing? r.uid = some f → f.st = .granted → exec (.depositResponse i code x) s = .next
          ((u.depAnswer f r code x).kilnAdvance f.uid).driveKiln

/-! ### Mailbox ports and the checks of a request -/

/-- O47. MBX_RING on a free port leaves its request PENDING for the controller; while the port is PENDING or WORKING it only sets ring_err;
and while the controller does not serve, the port answers BUSY at once and nothing else changes. MBX_PORT_RESET empties the port and ends
its session, and acts before a ring written with it; MBX_INT_STATUS_CLEAR clears the causes written as 1. After a ring and a reset the
controller answers the waiting requests with a reserved code that stand first; with no such request nothing more happens. A doorbell write
without the row's bit, a block that is not awake, and a port that does not exist change nothing.
The model's own choices behind it: when a request with a reserved code is taken (assumption log 64, 106); what a BUSY answer leaves
(log 65). -/
def Obligations.MailboxRegisters : Prop :=
  ∀ (p : Nat) (v : Word) (s : State),
    ((s.awake = false ∨ 18 ≤ p) → exec (.mbxRing p v) s = .next s ∧ exec (.mbxPortReset p v) s = .next s
      ∧ exec (.mbxIntStatusClear p v) s = .next s)
    ∧ ((bitOf v.toNat 0 = false ∨ bitOf v.toNat 1 = true) → exec (.mbxRing p v) s = .next s)
    ∧ (bitOf v.toNat 1 = false → exec (.mbxPortReset p v) s = .next s)
    ∧ ((∀ q, s.takesNow = some q → (cmdSpec q.code).isSome = true) → s.nextRequest = s)
    ∧ (s.awake = true → p < 18 →
      (bitOf v.toNat 0 = true → bitOf v.toNat 1 = false →
        ((s.port p).st = .pending ∨ (s.port p).st = .working →
          exec (.mbxRing p v) s = .next (s.setPort p { s.port p with intStatus := setBit (s.port p).intStatus mbRingErr }))
        ∧ ((s.port p).st = .idle ∨ (s.port p).st = .done →
          (s.servesCommand p ((s.port p).request p).code = true →
            exec (.mbxRing p v) s = .next (s.setPort p { s.port p with st := .pending }).nextRequest)
          ∧ (s.servesCommand p ((s.port p).request p).code = false → exec (.mbxRing p v) s = .next (s.setPort p { s.port p with
              resp := tsetRun 0 (s.port p).resp 0 (responseBytes (s.port p).version ((s.port p).request p).code ((s.port p).request p).tag
                erBusy (busyReason s.ctl) false [])
              st := .done, curTag := ((s.port p).request p).tag, intStatus := setBit (s.port p).intStatus mbDone }))))
      ∧ (canonical s → bitOf v.toNat 1 = true → bitOf v.toNat 0 = false → exec (.mbxPortReset p v) s = .next ({ s with
          ports := tset {} s.ports p { s.port p with session := none, req := [], resp := [], st := .idle, curTag := 0, intStatus := 0 }
          ctl := { s.ctl with snaps := s.ctl.snaps.filter (fun x => x.port != p) } } : State).nextRequest)
      ∧ (bitOf v.toNat 1 = true → bitOf v.toNat 0 = true → ∀ t, exec (.mbxPortReset p 2) s = .next t →
          exec (.mbxPortReset p v) s = .next (t.ring p))
      ∧ exec (.mbxIntStatusClear p v) s = .next (s.setPort p { s.port p with intStatus := (s.port p).intStatus &&& ~~~v }))

/-- O48. The row of a command does nothing until the controller takes such a request at its port. A request that fails a check before
the tag check is answered with the error, and nothing but the response changes; one that fails a later check is kept as the last request
too; a repeat gets the stored response again. No session, another version, and a privileged command from a port without privilege are
among the checks. A HELLO that fails a check ends the port's session.
The model's own choices behind it: when a request with a reserved code is taken (assumption log 64, 106); what a check names where the
spec leaves it open (log 64, 66). -/
def Obligations.CommandChecks : Prop :=
  ∀ (i : Instr) (p code : Nat) (s : State), commandRow i = some (p, code) →
    (s.taken? p code = none → exec i s = .next s)
    ∧ ∀ q, s.taken? p code = some q →
      (code ≠ 1 →
        (∀ err d, s.verdict q = .fail err d false → exec i s = .next (shown (served s p) q (s.port p).version err d false []))
        ∧ (∀ err d, s.verdict q = .fail err d true → exec i s = .next (answer (served s p) q (s.port p).version err d false [] false))
        ∧ (s.verdict q = .again → exec i s = .next ((served s p).setPort p { s.port p with
            resp := tsetRun 0 (s.port p).resp 0 (s.port p).stored, st := .done, curTag := q.tag,
            intStatus := setBit (s.port p).intStatus mbDone }).nextRequest)
        ∧ ((s.port p).session = none → s.verdict q = .fail erNoSession 0 false)
        ∧ (∀ w, (s.port p).session = some w → w ≠ q.version → s.verdict q = .fail erVersion 0 false)
        ∧ ∀ w c, (s.port p).session = some w → w = q.version → cmdSpec code = some c → c.minor ≤ w.2.toNat → q.badLength c = none →
            q.badReserved c = none → (s.port p).tagCheck q = none → c.perm = .priv → s.privileged p = false →
            s.verdict q = .fail erDenied 3 true)
      ∧ (code = 1 → canonical s → ∀ t : State, t = { s with
          ctl := { s.ctl with lastPort := p, snaps := s.ctl.snaps.filter (fun x => x.port != p) }
          ports := tset {} s.ports p { s.port p with session := none } } →
        (∀ err d, s.verdict q = .fail err d false → exec i s = .next (shown t q (0, 0) err d false []))
        ∧ (∀ err d, s.verdict q = .fail err d true → exec i s = .next (answer t q (0, 0) err d false [] false)))

/-! ### Mailbox commands -/

/-- O49. HELLO opens a session of the highest version that both sides speak, ending any session before it, and GOODBYE ends it;
EVENT_SUBSCRIBE writes the subscription mask; EVENT_READ takes records from the event queue; FAULT_LOG_READ, ENERGY_READ and
CONTROLLER_LOG_READ answer with the fault log, the governor's record and the controller's log as they stand. A request that HELLO, EVENT_READ
or ENERGY_READ does not accept is refused.
The model's own choices behind it: what a check names where the spec leaves it open (assumption log 64, 66); what a read record leaves in the
queue (log 73). -/
def Obligations.SessionCommands : Prop :=
  (∀ (p : Nat) (q : Req) (s : State), canonical s →
    (ready s p 0x0001 q → ∀ t : State, t = { s with
          ctl := { s.ctl with lastPort := p, snaps := s.ctl.snaps.filter (fun x => x.port != p) }
          ports := tset {} s.ports p { s.port p with session := none } } →
      (2 < q.num 4 1 → exec (.hello p) s = .next (answer t q (0, 0) erInvalid 36 false [] false))
      ∧ (q.num 4 1 ≤ 2 → helloVersion q = none → exec (.hello p) s = .next (answer t q (0, 0) erVersion 0 false [1, 0, 1, 2] false))
      ∧ (q.num 4 1 ≤ 2 → ∀ v, helloVersion q = some v → ∃ u : State, u = { t with
          ports := tset {} s.ports p { s.port p with session := some v } }
        ∧ exec (.hello p) s = .next (answer u q v 0 0 false (u.helloData p v) false)))
    ∧ (ready s p 0x0002 q → exec (.goodbye p) s = .next (answer { s with
          ctl := { s.ctl with lastPort := p, snaps := s.ctl.snaps.filter (fun x => x.port != p) }
          ports := tset {} s.ports p { s.port p with session := none, mask := 0 } } q (s.port p).version 0 0 false [] true))
    ∧ (ready s p 0x0802 q → exec (.eventSubscribe p) s = .next (answer { served s p with
          ports := tset {} s.ports p { s.port p with mask := BitVec.ofNat 32 (q.num 0 4) &&& 0x7E } }
        q (s.port p).version 0 0 false (leBytes 4 (BitVec.ofNat 32 (q.num 0 4) &&& 0x7E#32).toNat) true))
    ∧ (ready s p 0x0803 q → 1 ≤ q.num 0 1 → q.num 0 1 ≤ 101 → exec (.eventRead p) s = .next (answer { served s p with
          ports := tset {} s.ports p { s.port p with evq := (s.port p).evq.drop (q.num 0 1), evLost := 0 } }
        q (s.port p).version 0 0 (decide (q.num 0 1 < (s.port p).evq.length))
        (leBytes 4 (s.port p).evLost.toNat ++ leBytes 4 ((s.port p).evq.take (q.num 0 1)).length
          ++ (((s.port p).evq.take (q.num 0 1)).map (fun r => leBytes 40 r.toNat)).flatten) true)))
  ∧ ∀ (p : Nat) (q : Req) (s : State),
    (ready s p 0x0803 q → (q.num 0 1 < 1 ∨ 101 < q.num 0 1) → refuses s p q (.eventRead p) erInvalid 32)
    ∧ (ready s p 0x0804 q → exec (.faultLogRead p) s = .next (answer (served s p) q (s.port p).version 0 0
        (decide (126 < (s.faultLog.drop (q.num 0 2)).length))
        (leBytes 4 ((s.faultLog.drop (q.num 0 2)).take 126).length ++ leBytes 4 s.faultLog.length
          ++ (((s.faultLog.drop (q.num 0 2)).take 126).map (fun r => leBytes 32 r.toNat)).flatten) false))
    ∧ (ready s p 0x0801 q → q.num 0 1 < 32 → exec (.energyRead p) s = .next (answer (served s p) q (s.port p).version 0 0 false
        (leBytes 32 (s.governorRecord (q.num 0 1)).toNat) false))
    ∧ (ready s p 0x0801 q → 32 ≤ q.num 0 1 → refuses s p q (.energyRead p) erInvalid 32)
    ∧ (ready s p 0x0807 q → exec (.controllerLogRead p) s = .next (answer (served s p) q (s.port p).version 0 0 false
        (leBytes 8 s.ctl.log.length ++ s.ctl.log.flatten) false))

/-- O50. SAGGAR_CREATE gives a saggar the lowest free number, a new handle and a quota that gives nothing but its owner; SAGGAR_DESTROY
leaves the removal to the next admission boundary; SAGGAR_LIST gives the saggars in use. SHADOW_WRITE changes a shadow set and its
generation, or is refused with nothing changed; SHADOW_READ returns entries of either set; DISCARD makes the shadow set equal to the active
one; COMMIT goes to the kiln; DEBUG_TABLE_POKE changes the active set at once. A request that a command does not accept is refused.
The model's own choices behind it: the handle's value (assumption log 10); the owner above 17 and the moment of a destruction's answer
(log 67); a second check at the swap (log 68); the byte that refuses a RANGE (log 69); the saggar whose table is poked (log 70); the place
of SAGGAR_LIST's entries (log 103). -/
def Obligations.ConfigurationCommands : Prop :=
  ∀ (p : Nat) (q : Req) (s : State),
    (ready s p 0x0101 q →
        (17 < q.num 0 1 → refuses s p q (.saggarCreate p) erInvalid 32)
        ∧ (∀ k, q.num 0 1 ≤ 17 → k < 4096 → (s.cfg.sag k).inUse = false → (∀ j, j < k → (s.cfg.sag j).inUse = true) →
          ∀ h, h = Config.handleOf k (BitVec.ofNat 64 s.handles) →
          exec (.saggarCreate p) s = .next (answer { served s p with
              handles := s.handles + 1
              cfg := { s.cfg with
                active := { s.cfg.active with quota := tset 0 s.cfg.active.quota k (BitVec.ofNat 128 (q.num 0 1 * 2 ^ 50)) }
                shadow := { s.cfg.shadow with quota := tset 0 s.cfg.shadow.quota k (BitVec.ofNat 128 (q.num 0 1 * 2 ^ 50)) }
                saggars := tset {} s.cfg.saggars k { inUse := true, handle := h, created := (s.cfg.sag k).created + 1 } } }
            q (s.port p).version 0 0 false (leBytes 2 k ++ leBytes 6 0 ++ leBytes 8 h.toNat) true))
        ∧ (q.num 0 1 ≤ 17 → (∀ j, j < 4096 → (s.cfg.sag j).inUse = true) → refuses s p q (.saggarCreate p) erLimit 0))
    ∧ (ready s p 0x0102 q →
        (q.glob = true → refuses s p q (.saggarDestroy p) erInvalid 10)
        ∧ (q.glob = false → (s.cfg.sag q.saggar).inUse = false → refuses s p q (.saggarDestroy p) erNotFound 0)
        ∧ (q.glob = false → (s.cfg.sag q.saggar).inUse = true →
          exec (.saggarDestroy p) s = .next (answer { served s p with
              cfg := { s.cfg with saggars := tset {} s.cfg.saggars q.saggar { s.cfg.sag q.saggar with dying := some (p, q.tag) } } }
            q (s.port p).version 0 0 false [] false)))
    ∧ (ready s p 0x0103 q → ∀ all, all = (s.cfg.saggars.filter (fun e => e.2.inUse && decide (q.num 0 2 ≤ e.1))).map (·.1) →
      exec (.saggarList p) s = .next (answer (served s p) q (s.port p).version 0 0 (decide (253 < all.length))
        (leBytes 2 (all.take 253).length ++ ((all.take 253).map (fun k => leBytes 2 k ++ leBytes 6 (s.cfg.owner k)
          ++ leBytes 8 (if s.cfg.owner k = p ∨ s.privileged p = true then (s.cfg.sag k).handle.toNat else 0))).flatten) false))
    ∧ (ready s p 0x0111 q →
        (s.conflicts q = true → refuses s p q (.shadowWrite p) erConflict 0)
        ∧ (s.conflicts q = false → ∀ d, s.badWrite q = some d → refuses s p q (.shadowWrite p) erInvalid d)
        ∧ (s.conflicts q = false → s.badWrite q = none → q.glob = true →
          exec (.shadowWrite p) s = .next (answer { served s p with
              cfg := { s.cfg with shadow := q.putAll GlobalSet.put s.cfg.shadow, shadowGen := s.cfg.shadowGen + 1 }.mendShadow q }
            q (s.port p).version 0 0 false (leBytes 4 (s.cfg.shadowGen + 1).toNat) true))
        ∧ (s.conflicts q = false → s.badWrite q = none → q.glob = false → canonical s →
          exec (.shadowWrite p) s = .next (answer { served s p with
              cfg := { s.cfg with saggars := tset {} s.cfg.saggars q.saggar { s.cfg.sag q.saggar with
                shadow := q.putAll SaggarSet.put (s.cfg.sag q.saggar).shadow
                shadowGen := (s.cfg.sag q.saggar).shadowGen + 1 } }.mendShadow q }
            q (s.port p).version 0 0 false (leBytes 4 ((s.cfg.sag q.saggar).shadowGen + 1).toNat) true)))
    ∧ (ready s p 0x0112 q → ∀ table r, table = q.num 0 1 → r = s.cfg.tableRange q.saggar table →
        (q.glob = false → (s.cfg.sag q.saggar).inUse = false → refuses s p q (.shadowRead p) erNotFound 0)
        ∧ ((q.glob = true ∨ (s.cfg.sag q.saggar).inUse = true) →
          (tableFits q.glob table = false → refuses s p q (.shadowRead p) erInvalid 32)
          ∧ (tableFits q.glob table = true → 1 < q.num 1 1 → refuses s p q (.shadowRead p) erInvalid 33)
          ∧ (tableFits q.glob table = true → q.num 1 1 ≤ 1 → (q.num 4 4 < r.1 ∨ r.1 + r.2 ≤ q.num 4 4) →
            refuses s p q (.shadowRead p) erInvalid 36)
          ∧ (tableFits q.glob table = true → q.num 1 1 ≤ 1 → r.1 ≤ q.num 4 4 → q.num 4 4 < r.1 + r.2 → ∀ size left n,
            entrySize table = some size → left = r.1 + r.2 - q.num 4 4 → n = min (min (q.num 8 2) left) (4056 / size) →
            exec (.shadowRead p) s = .next (answer (served s p) q (s.port p).version 0 0 (decide (n < left))
              (leBytes 4 (if q.glob then (if q.num 1 1 = 1 then s.cfg.activeGen else s.cfg.shadowGen)
                  else if q.num 1 1 = 1 then (s.cfg.sag q.saggar).activeGen else (s.cfg.sag q.saggar).shadowGen).toNat
                ++ leBytes 4 n
                ++ ((upFrom (q.num 4 4) n).map (fun i => leBytes size (s.entry (q.num 1 1 == 1) q.saggar table i))).flatten) false))))
    ∧ (ready s p 0x0113 q →
        (s.conflicts q = true → refuses s p q (.commit p) erConflict 0)
        ∧ (s.conflicts q = false → ∀ err table k, s.badCommit q.set = some (err, table, k) →
          exec (.commit p) s = .next (answer (served s p) q (s.port p).version err 0 false (leBytes 4 table ++ leBytes 4 k) false))
        ∧ (s.conflicts q = false → s.badCommit q.set = none → q.glob = false →
          exec (.commit p) s = .next (working { served s p with
            cfg := { s.cfg with swaps := [(some q.saggar, p, q.tag)] } } q false))
        ∧ (s.conflicts q = false → s.badCommit q.set = none → q.glob = true → ∀ a : Activity, a = q.act 0x0B 0 0 [] false →
            (∀ t queued, (served s p).admitAct a = some (t, queued) → exec (.commit p) s = .next (working t q false))
            ∧ ((served s p).admitAct a = none → refuses s p q (.commit p) erBusy 4)))
    ∧ (ready s p 0x0114 q → ∀ own : CfgWord → Bool, own = (fun w => w.shadow && w.set == q.set) →
        (s.conflicts q = true → refuses s p q (.discard p) erConflict 0)
        ∧ (s.conflicts q = false → q.glob = true →
          exec (.discard p) s = .next (answer { served s p with cfg := { s.cfg with
              shadow := s.cfg.active.markFailed (s.kiln.failedLeaves.filter (fun l => !bitOf s.cfg.active.disabled.toNat l))
              shadowGen := s.cfg.shadowGen + 1
              lost := s.cfg.lost.filter (fun w => !own w), badWords := s.cfg.badWords.filter (fun w => !own w.1) } }
            q (s.port p).version 0 0 false (leBytes 4 (s.cfg.shadowGen + 1).toNat) true))
        ∧ (s.conflicts q = false → q.glob = false → canonical s →
          exec (.discard p) s = .next (answer { served s p with cfg := { s.cfg with
              saggars := tset {} s.cfg.saggars q.saggar { s.cfg.sag q.saggar with
                shadow := (s.cfg.sag q.saggar).active, shadowGen := (s.cfg.sag q.saggar).shadowGen + 1 }
              lost := s.cfg.lost.filter (fun w => !own w), badWords := s.cfg.badWords.filter (fun w => !own w.1) } }
            q (s.port p).version 0 0 false (leBytes 4 ((s.cfg.sag q.saggar).shadowGen + 1).toNat) true)))
    ∧ (ready s p 0x0806 q →
        ((q.num 0 1 = 0x11 ∨ q.num 0 1 = 0x12 ∨ entrySize (q.num 0 1) = none) → refuses s p q (.debugTablePoke p) erInvalid 32)
        ∧ (q.num 0 1 ∈ [0x10, 0x13, 0x14, 0x15] →
          (∀ d, s.badWrite q = some d → refuses s p q (.debugTablePoke p) erInvalid d)
          ∧ (s.badWrite q = none → exec (.debugTablePoke p) s = .next (answer { served s p with
              cfg := { s.cfg with active := q.putAll GlobalSet.put s.cfg.active, poked := true } } q (s.port p).version 0 0 false [] true)))
        ∧ (q.num 0 1 = 0x01 ∨ q.num 0 1 = 0x02 →
          (s.pokeTarget q = none → refuses s p q (.debugTablePoke p) erInvalid 36)
          ∧ ∀ k, s.pokeTarget q = some k →
            (∀ d, s.badWrite { q with glob := false, saggar := k } = some d → refuses s p q (.debugTablePoke p) erInvalid d)
            ∧ (s.badWrite { q with glob := false, saggar := k } = none → exec (.debugTablePoke p) s = .next (answer { served s p with
                cfg := { s.cfg with saggars := tset {} s.cfg.saggars k { s.cfg.sag k with
                  active := (q.putAll SaggarSet.put (s.cfg.sag k).active).clean, poked := true } } }
              q (s.port p).version 0 0 false [] true))))

/-- O51. STATE_READ returns the entries of an item from the index asked for, live or, under a snapshot, as copied at its cut; a saggar's
record and its groups are read live while their generations stand. A stale item, an item or an index out of range, an item without
permission, and a snapshot that does not exist are refused. SNAPSHOT replaces its port's snapshot, and a third one is refused;
SNAPSHOT_RELEASE removes it.
The model's own choices behind it: the layout of item 0x000B (assumption log 20); the snapshot's numbers and what a snapshot holds
(log 71). -/
def Obligations.StateReads : Prop :=
  ∀ (p : Nat) (q : Req) (s : State),
    (ready s p 0x0201 q → q.num 2 1 ≠ 0 → s.ctl.snaps.find? (fun x => x.port == p && x.id == q.num 2 1) = none →
      refuses s p q (.stateRead p) erNotFound 0)
    ∧ (ready s p 0x0201 q → ∀ (snap : Option Snapshot) (item : Nat), item = q.num 0 2 →
      ((q.num 2 1 = 0 ∧ snap = none) ∨ (q.num 2 1 ≠ 0 ∧ snap.isSome = true
        ∧ s.ctl.snaps.find? (fun x => x.port == p && x.id == q.num 2 1) = snap)) →
      (itemShape item = none → refuses s p q (.stateRead p) erInvalid 32)
      ∧ (item = 0x08 → snap.isSome = true → refuses s p q (.stateRead p) erInvalid 32)
      ∧ (item = 0x0F → snap = none → refuses s p q (.stateRead p) erInvalid 32)
      ∧ ∀ size space lo hi n, itemShape item = some (size, space) → (item = 0x08 → snap = none) → (item = 0x0F → snap.isSome = true) →
        s.itemSpan q snap item = (lo, hi) → n = min (min (q.num 8 4) (hi - q.num 4 4)) (4048 / size) →
        (∀ err d, s.itemDenied q snap item = some (err, d) → refuses s p q (.stateRead p) err d)
        ∧ (s.itemDenied q snap item = none → (∃ x, snap = some x ∧ s.staleItem x q.glob q.saggar item = true) →
          refuses s p q (.stateRead p) erSnapshotStale 0)
        ∧ (s.itemDenied q snap item = none → (∀ x, snap = some x → s.staleItem x q.glob q.saggar item = false) →
          (q.num 4 4 < lo ∨ (hi ≤ q.num 4 4 ∧ ¬ (item = 0x0F ∧ q.num 4 4 = 0)) → refuses s p q (.stateRead p) erInvalid 36)
          ∧ (lo ≤ q.num 4 4 → (q.num 4 4 < hi ∨ (item = 0x0F ∧ q.num 4 4 = 0)) →
            ∀ entry : Nat → List Byte,
            (∀ i, (snap = none ∨ item = 0x09 ∨ item = 0x0A) → entry i = s.item q.saggar item i) →
            (∀ i x, snap = some x → item ≠ 0x09 → item ≠ 0x0A → entry i = x.item s item i) →
            exec (.stateRead p) s = .next (answer (served s p) q (s.port p).version 0 0 (decide (q.num 4 4 + n < hi))
              (leBytes 4 item ++ leBytes 4 n ++ leBytes 8 (q.num 4 4 + n) ++ ((upFrom (q.num 4 4) n).map entry).flatten) false))))
    ∧ (ready s p 0x0202 q → ∀ others, others = s.ctl.snaps.filter (fun x => x.port != p) →
      (2 ≤ others.length → refuses s p q (.snapshot p) erBusy 6)
      ∧ (others.length < 2 → ∃ x more, exec (.snapshot p) s = .next (answer
            { s with ctl := { s.ctl with lastPort := p, snaps := others ++ [x] } } q (s.port p).version 0 0 false
            (leBytes 8 x.id ++ leBytes 8 s.time.toNat ++ leBytes 4 s.cfg.activeGen.toNat
              ++ leBytes 4 (if q.glob then 0 else (s.cfg.sag q.saggar).activeGen.toNat) ++ leBytes 4 x.entries.length ++ leBytes 1 more) true)
          ∧ more = b2n (decide (2048 < (s.kiln.firings.filter (fun f => q.glob || f.saggar == q.saggar)).length))
          ∧ x = s.cut x.id p (if q.glob then none else some q.saggar) ∧ 1 ≤ x.id ∧ x.id ≤ 3 ∧ ∀ y ∈ others, y.id ≠ x.id))
    ∧ (ready s p 0x0203 q →
      (s.ctl.snaps.any (fun x => x.port == p && x.id == q.num 0 1) = true →
        exec (.snapshotRelease p) s = .next (answer { s with ctl := { s.ctl with
            lastPort := p, snaps := s.ctl.snaps.filter (fun x => !(x.port == p && x.id == q.num 0 1)) } }
          q (s.port p).version 0 0 false [] true))
      ∧ (s.ctl.snaps.any (fun x => x.port == p && x.id == q.num 0 1) = false → refuses s p q (.snapshotRelease p) erNotFound 0))

/-- O52. FIRING_QUERY answers with the record of the firing selected; FIRING_ABORT ends it with ABORTED and no rank, and is refused once
the end is decided. COUNTER_READ returns counters from the index asked for and, with restart, zeroes them; DEBUG_ACC_READ shows an accumulator
that no firing holds. A selection that names no firing, and an operand out of range or without permission, are refused.
The model's own choices behind it: the index of a leaf port's and a copy's SECDED counters (assumption log 21); which counters and
accumulators a saggar may read (log 71); which firings can be selected (log 72); the bytes of an accumulator shown (log 74). -/
def Obligations.FiringsAndCounters : Prop :=
  (∀ (p : Nat) (q : Req) (s : State),
    (∀ err d, ((1 < q.num 0 1 ∧ err = erInvalid ∧ d = 32)
        ∨ (q.num 0 1 ≤ 1 ∧ s.selected q = none ∧ err = erNotFound ∧ d = 0)
        ∨ (q.num 0 1 ≤ 1 ∧ s.asPriv q = false ∧ (∃ f, s.selected q = some f ∧ f.saggar ≠ q.saggar) ∧ err = erDenied ∧ d = 2)) →
      (ready s p 0x0301 q → refuses s p q (.firingQuery p) err d) ∧ (ready s p 0x0302 q → refuses s p q (.firingAbort p) err d))
    ∧ ∀ f, q.num 0 1 ≤ 1 → s.selected q = some f → (s.asPriv q = true ∨ f.saggar = q.saggar) →
      (ready s p 0x0301 q →
        exec (.firingQuery p) s = .next (answer (served s p) q (s.port p).version 0 0 false (leBytes 48 (s.firingRecord f).toNat) false))
      ∧ (ready s p 0x0302 q → f.decided = none → ∃ u : State, exec (.firingAbort p) s
            = .next (answer (u.afterEnd f.group) q (s.port p).version 0 0 false (leBytes 8 0 ++ leBytes 6 f.fn.toNat) true)
          ∧ u = (served s p).decideEnd f.uid stAborted 0xFFFF 0 ∧ kilnOnly (served s p) u)
      ∧ (ready s p 0x0302 q → ∀ st, f.decided = some st → refuses s p q (.firingAbort p) erAlreadyEnded st.toNat))
  ∧ ∀ (p : Nat) (q : Req) (s : State),
    (ready s p 0x0401 q →
      (counterKind (q.num 0 2) = none → refuses s p q (.counterRead p) erInvalid 32)
      ∧ ∀ k, counterKind (q.num 0 2) = some k →
        (k.hi (q.num 4 4) = none → refuses s p q (.counterRead p) erInvalid 36)
        ∧ ∀ hi n, k.hi (q.num 4 4) = some hi → n = min (min (q.num 8 4) (hi - q.num 4 4)) 506 →
          (1 < q.num 12 1 → refuses s p q (.counterRead p) erInvalid 44)
          ∧ (q.num 12 1 ≤ 1 → k.owned (q.num 4 4) = true → ∀ d, s.denied q .ownerOrPriv = some d → refuses s p q (.counterRead p) erDenied d)
          ∧ (q.num 12 1 ≤ 1 → k.owned (q.num 4 4) = true → s.denied q .ownerOrPriv = none → s.asPriv q = false →
            (upFrom (q.num 4 4) n).all (s.mineCounter k q.saggar) = false → refuses s p q (.counterRead p) erDenied 2)
          ∧ (q.num 12 1 ≤ 1 → (k.owned (q.num 4 4) = true → s.denied q .ownerOrPriv = none
              ∧ (s.asPriv q = true ∨ (upFrom (q.num 4 4) n).all (s.mineCounter k q.saggar) = true)) →
            exec (.counterRead p) s = .next (answer
              (if q.num 12 1 = 1 then (upFrom (q.num 4 4) n).foldl (fun a i => a.zeroCounter (q.num 0 2) i) (served s p) else served s p)
              q (s.port p).version 0 0 (decide (q.num 4 4 + n < hi))
              (leBytes 4 (q.num 0 2) ++ leBytes 4 n ++ leBytes 8 (q.num 4 4 + n)
                ++ ((upFrom (q.num 4 4) n).map (fun i => leBytes 8 (s.counter (q.num 0 2) i))).flatten) (q.num 12 1 == 1))))
    ∧ (∀ i, canonical s → (s.zeroCounter 0x0901 i).counter 0x0901 i = 0 ∧ (s.zeroCounter 0x0A01 i).counter 0x0A01 i = 0
        ∧ (s.zeroCounter 0x0C01 i).counter 0x0C01 i = 0 ∧ (s.zeroCounter 0x0C0A i).counter 0x0C0A i = 0)
    ∧ (ready s p 0x0805 q →
      (1 < q.num 0 1 → refuses s p q (.debugAccRead p) erInvalid 32)
      ∧ (q.num 0 1 = 0 → ∀ b, b = tget {} (s.leaf (q.num 2 2)).bisque (q.num 4 1) →
        (s.leafExists (q.num 2 2) = false → refuses s p q (.debugAccRead p) erInvalid 34)
        ∧ (s.leafExists (q.num 2 2) = true → 4 ≤ q.num 4 1 → refuses s p q (.debugAccRead p) erInvalid 36)
        ∧ (s.leafExists (q.num 2 2) = true → q.num 4 1 < 4 →
          (b.tags = [] → exec (.debugAccRead p) s = .next (answer (served s p) q (s.port p).version 0 0 false b.debug false))
          ∧ (b.tags ≠ [] → refuses s p q (.debugAccRead p) erBusy 5)))
      ∧ (q.num 0 1 = 1 →
        (64 ≤ q.num 5 1 → refuses s p q (.debugAccRead p) erInvalid 37)
        ∧ (q.num 5 1 < 64 → (s.kacc (q.num 4 1)).holder ≠ none → refuses s p q (.debugAccRead p) erBusy 5)
        ∧ (q.num 5 1 < 64 → (s.kacc (q.num 4 1)).holder = none →
          exec (.debugAccRead p) s = .next (answer (served s p) q (s.port p).version 0 0 false
            ((s.kacc (q.num 4 1)).debug (q.num 5 1)) false))))

/-- O53. DIGEST_OPEN opens an accumulator of the requester's saggar under a new tag within its quota, with a new opening;
DIGEST_READ answers with the entry and, with restart, zeroes its sums; DIGEST_CLOSE answers with it and closes it; KEY_READ
answers with the keys. A tag that is not open, an operand out of range and a quota that is full are refused.
The model's own choices behind it: which accumulator is opened (assumption log 75); the keys before the first global commit (log 14). -/
def Obligations.DigestCommands : Prop :=
  ∀ (p : Nat) (q : Req) (s : State),
    (ready s p 0x0501 q →
      (q.num 0 2 = 0xFFFF ∨ (s.digestUnder q.saggar (q.num 0 2)).isSome = true → refuses s p q (.digestOpen p) erInvalid 32)
      ∧ (q.num 0 2 ≠ 0xFFFF → s.digestUnder q.saggar (q.num 0 2) = none →
        (qDigest (s.cfg.quota q.saggar) ≤ s.kiln.openDigests q.saggar ∨ ∀ j, j < 4096 → (tget {} s.kiln.digests j).isOpen = true) →
        refuses s p q (.digestOpen p) erLimit 0)
      ∧ (q.num 0 2 ≠ 0xFFFF → s.digestUnder q.saggar (q.num 0 2) = none →
        s.kiln.openDigests q.saggar < qDigest (s.cfg.quota q.saggar) → ∀ i, i < 4096 →
        (tget {} s.kiln.digests i).isOpen = false → (∀ j, j < i → (tget {} s.kiln.digests j).isOpen = true) →
        exec (.digestOpen p) s = .next (answer { served s p with kiln := { s.kiln with
            openings := s.kiln.openings + 1
            digests := tset {} s.kiln.digests i { prov := BitVec.ofNat 64 (q.num 8 8), tag := BitVec.ofNat 16 (q.num 0 2),
                                                  saggar := BitVec.ofNat 12 q.saggar, isOpen := true, opening := s.kiln.openings + 1 } } }
          q (s.port p).version 0 0 false [] true)))
    ∧ (∀ a : DigestAcc, a.restart = { a with sum := 0, firings := 0, fails := 0, poisons := 0, sat := false })
    ∧ (ready s p 0x0502 q →
      (1 < q.num 2 1 → refuses s p q (.digestRead p) erInvalid 34)
      ∧ (q.num 2 1 ≤ 1 → s.digestUnder q.saggar (q.num 0 2) = none → refuses s p q (.digestRead p) erNotFound 0)
      ∧ (q.num 2 1 ≤ 1 → ∀ i a, s.digestUnder q.saggar (q.num 0 2) = some (i, a) →
        exec (.digestRead p) s = .next (answer
          (if q.num 2 1 = 1 then { served s p with kiln := { s.kiln with digests := tmod {} s.kiln.digests i DigestAcc.restart } } else served s p)
          q (s.port p).version 0 0 false a.entry (q.num 2 1 == 1))))
    ∧ (ready s p 0x0503 q → ∀ i a, s.digestUnder q.saggar (q.num 0 2) = some (i, a) →
      exec (.digestClose p) s = .next (answer { served s p with kiln := { s.kiln with digests := tset {} s.kiln.digests i {} } }
        q (s.port p).version 0 0 false a.entry true))
    ∧ (ready s p 0x0503 q → s.digestUnder q.saggar (q.num 0 2) = none → refuses s p q (.digestClose p) erNotFound 0)
    ∧ (ready s p 0x0504 q → exec (.keyRead p) s = .next (answer (served s p) q (s.port p).version 0 0 false
        (leBytes 8 s.cfg.reproKey.toNat ++ leBytes 8 s.cfg.exactKey.toNat ++ leBytes 8 s.cfg.shape.toNat ++ leBytes 4 s.cfg.activeGen.toNat
          ++ padTo 16 (reproImage s) ++ exactImage) false))

/-- O54. The maintenance commands CALIBRATE, SCRUB, SELF_TEST, NODE_OFFLINE, NODE_ONLINE, PLANE_OFFLINE, PLANE_ONLINE, LEAF_OFFLINE and
LEAF_ONLINE: each that passes its own checks starts or queues the activity on the domains of its target, one that fails them is refused,
and one that the conflict matrix refuses is answered BUSY. MAINT_STATUS lists the activities. At its end (MAINT_ACTIVITY_END) an activity
leaves the list, its MAINT record is written, and the queue is examined; an online whose target has a loss that the kiln has not registered
does not end yet, and a scrub's findings are corrected.
The model's own choices behind it: the order of the checks and who is named (assumption log 76); what a test or a scrub finds is an operand
(log 2); a loss that comes up during an online (log 105). -/
def Obligations.MaintenanceCommands : Prop :=
  (∀ (p : Nat) (q : Req) (s : State),
    (ready s p 0x0601 q →
      (s.maskOk (q.num 0 4) = false → refuses s p q (.calibrate p) erInvalid 32)
      ∧ (s.maskOk (q.num 0 4) = true → ∀ as, as = (maskDies (q.num 0 4)).map (fun d => q.act 0x01 d 0 [d] false) →
        (∀ t queued, (served s p).admitAll as = some (t, queued) →
          exec (.calibrate p) s = .next (answer t q (s.port p).version 0 0 false (leBytes 1 (b2n queued)) true))
        ∧ ((served s p).admitAll as = none → refuses s p q (.calibrate p) erBusy 4)))
    ∧ (ready s p 0x0602 q → starts s p q (.scrub p) (q.act 0x02 0 0 [] false))
    ∧ (ready s p 0x0603 q →
      (∀ d, s.badNode q = some d → refuses s p q (.selfTest p) erInvalid d)
      ∧ (s.badNode q = none → (s.siblingOut (q.num 0 4) (q.num 4 1) = true ∨ (q.num 4 1 = 3 ∧ (s.stat (q.num 0 4)).pairOut = false)) →
        refuses s p q (.selfTest p) erInvalid 36)
      ∧ (s.badNode q = none → s.siblingOut (q.num 0 4) (q.num 4 1) = false →
        (q.num 4 1 = 3 → (s.stat (q.num 0 4)).pairOut = true) → starts s p q (.selfTest p) (q.nodeAct 0x03)))
    ∧ (ready s p 0x0604 q →
      (∀ d, s.badNode q = some d → refuses s p q (.nodeOffline p) erInvalid d)
      ∧ (s.badNode q = none → (s.siblingOut (q.num 0 4) (q.num 4 1) = true ∨ (q.num 4 1 = 3 ∧ q.num 0 4 / 4 % 2 = 1)) →
        refuses s p q (.nodeOffline p) erInvalid 36)
      ∧ (s.badNode q = none → s.siblingOut (q.num 0 4) (q.num 4 1) = false →
        (q.num 4 1 = 3 → q.num 0 4 / 4 % 2 = 0) → starts s p q (.nodeOffline p) (q.nodeAct 0x04)))
    ∧ (ready s p 0x0605 q →
      (∀ d, s.badNode q = some d → refuses s p q (.nodeOnline p) erInvalid d)
      ∧ (s.badNode q = none → starts s p q (.nodeOnline p) (q.nodeAct 0x05)))
    ∧ (ready s p 0x0606 q →
      (∀ d, s.badPlane q = some d → refuses s p q (.planeOffline p) erInvalid d)
      ∧ (s.badPlane q = none → s.onlyPlane (q.num 0 1) (maskDies (q.num 4 4)) = true → refuses s p q (.planeOffline p) erInvalid 32)
      ∧ (s.badPlane q = none → s.onlyPlane (q.num 0 1) (maskDies (q.num 4 4)) = false →
        starts s p q (.planeOffline p) (s.planeAct q 0x06)))
    ∧ (ready s p 0x0607 q →
      (∀ d, s.badPlane q = some d → refuses s p q (.planeOnline p) erInvalid d)
      ∧ (s.badPlane q = none → starts s p q (.planeOnline p) (s.planeAct q 0x07)))
    ∧ (ready s p 0x0608 q →
      (s.leafExists (q.num 0 2) = false → refuses s p q (.leafOffline p) erInvalid 32)
      ∧ (s.leafExists (q.num 0 2) = true → starts s p q (.leafOffline p) (q.act 0x08 (q.num 0 2) 0 [q.num 0 2 / 256] false)))
    ∧ (ready s p 0x0609 q →
      (s.leafExists (q.num 0 2) = false → refuses s p q (.leafOnline p) erInvalid 32)
      ∧ (s.leafExists (q.num 0 2) = true → starts s p q (.leafOnline p) (q.act 0x09 (q.num 0 2) 0 [q.num 0 2 / 256] false)))
    ∧ (ready s p 0x060A q → exec (.maintStatus p) s = .next (answer (served s p) q (s.port p).version 0 0
        (decide (253 < s.ctl.acts.length)) (leBytes 8 (s.ctl.acts.take 253).length ++ ((s.ctl.acts.take 253).map (fun a =>
          leBytes 1 a.code ++ leBytes 1 (b2n a.queued) ++ leBytes 1 a.port ++ leBytes 1 a.dieCode ++ leBytes 4 a.tag.toNat
            ++ leBytes 8 a.start.toNat)).flatten) false)))
  ∧ (∀ (a : Activity) (s : State), (s.ctl.judge { a with id := s.ctl.nextAct } = .refuse → s.admitAct a = none)
    ∧ (s.ctl.judge { a with id := s.ctl.nextAct } = .queue → s.admitAct a = some ({ s with ctl := { s.ctl with
        acts := s.ctl.acts ++ [{ a with id := s.ctl.nextAct, queued := true }], nextAct := s.ctl.nextAct + 1 } }, true))
    ∧ (s.ctl.judge { a with id := s.ctl.nextAct } = .start → s.admitAct a = some (({ s with ctl := { s.ctl with
        acts := s.ctl.acts ++ [{ a with id := s.ctl.nextAct, queued := false }], nextAct := s.ctl.nextAct + 1 } } : State).startAct
          { a with id := s.ctl.nextAct }, false)))
  ∧ ∀ (id : Nat) (failed : List Part) (finds : List ScrubFind) (s : State),
    (s.ctl.acts.find? (fun x => x.id == id && !x.queued) = none → exec (.maintActivityEnd id ⟨failed, finds⟩) s = .next s)
    ∧ ∀ a, s.ctl.acts.find? (fun x => x.id == id && !x.queued) = some a →
      (s.actEnds a failed finds = none → exec (.maintActivityEnd id ⟨failed, finds⟩) s = .next s)
      ∧ (∀ t b o, s.actEnds a failed finds = some (t, b, o) → exec (.maintActivityEnd id ⟨failed, finds⟩) s = .next (t.endAct b o).offer)
      ∧ ((s.outParts a).all s.lossKnown = false → s.actEnds a failed finds = none)
      ∧ (a.code = 0x02 → s.actEnds a failed finds = some (finds.foldl State.scrubOne s, a, 0))
      ∧ (a.code = 0x09 → (s.outParts a).all s.lossKnown = true →
        ((s.leafTestFailed a.target failed = true ∨ s.lostSince a ≠ []) → s.actEnds a failed finds = some (s, a, 1))
        ∧ (s.leafTestFailed a.target failed = false → s.lostSince a = [] → s.actEnds a failed finds = some (s.leafBack a.target, a, 0)))

/-- O55. Firmware. FW_STATUS shows the banks. FW_STAGE writes the inactive bank, FW_VERIFY checks it, and both answer at
BACKGROUND_COMMAND_DONE. FW_ACTIVATE of the verified version stops serving; at FW_ACTIVATION_SWITCH the new image takes over and, once the
start-up has been through, serves; it is recorded by FW_BANK_CONFIRM after 100 ms, or FW_FALLBACK starts the previous one; with no valid
image the controller enters safe mode. A CONTROLLER_EXCEPTION or WATCHDOG_EXPIRY that takes the hardware path writes its record, raises
MC_FAULT and takes the controller out of service, and into safe mode at the third restart within 10 s; one on the path is folded into the
record; the datapath goes on. CONTROLLER_RESTART_DONE serves again. A row whose moment has not come changes nothing, and a command that its
bank does not admit is refused.
The model's own choices behind it: the form and signature of an image (assumption log 11); the order of the checks and the effect of the
background commands (log 77); a bank, a session and an event at a switch (log 78); the count of a record and a second exception (log 79);
what a stop abandons (log 80); the keys at a fallback and a restart (log 102); a length of 0 (log 103); the stack limits and the moment of
the watchdog (log 104). -/
def Obligations.FirmwareAndExceptions : Prop :=
  (∀ (p : Nat) (q : Req) (s : State),
    (ready s p 0x0704 q → exec (.fwStatus p) s = .next (answer (served s p) q (s.port p).version 0 0 false
        (s.ctl.bankA.status ++ s.ctl.bankB.status ++ leBytes 1 (b2n s.ctl.activeB)) false))
    ∧ (ready s p 0x0701 q →
      (s.ctl.background ≠ none → refuses s p q (.fwStage p) erBusy 7)
      ∧ (s.ctl.background = none → q.num 4 2 = 0 → refuses s p q (.fwStage p) erInvalid 36)
      ∧ (s.ctl.background = none → q.num 4 2 ≠ 0 → 0x80000 < q.num 0 4 + q.num 4 2 → refuses s p q (.fwStage p) erInvalid 32)
      ∧ (s.ctl.background = none → q.num 4 2 ≠ 0 → q.num 0 4 + q.num 4 2 ≤ 0x80000 →
        exec (.fwStage p) s = .next (working { s with ctl := { (served s p).ctl.modSpare (fun b =>
            { b with st := .staged, bytes := tsetRun 0 b.bytes (q.num 0 4) (bytesAt q.data 16 (q.num 4 2)) }) with
              background := some (p, q.tag, responseBytes (s.port p).version 0x0701 q.tag 0 0 false []) } } q true)))
    ∧ (ready s p 0x0702 q →
      (s.ctl.background ≠ none → refuses s p q (.fwVerify p) erBusy 7)
      ∧ (s.ctl.background = none → s.ctl.verifyFails = none →
        ∃ c, exec (.fwVerify p) s = .next (working { s with ctl := { c with
              background := some (p, q.tag, responseBytes (s.port p).version 0x0702 q.tag 0 0 false
                ([c.spare.major, c.spare.minor] ++ leBytes 2 c.spare.patch.toNat ++ leBytes 2 c.spare.secVer.toNat)) } } q true)
          ∧ c = (served s p).ctl.modSpare (fun b => b.named .verified))
      ∧ (s.ctl.background = none → ∀ d, s.ctl.verifyFails = some d →
        exec (.fwVerify p) s = .next (working { s with ctl := { (served s p).ctl.modSpare (fun b => { b with st := .failed }) with
            background := some (p, q.tag, responseBytes (s.port p).version 0x0702 q.tag erSignature d false []) } } q false)))
    ∧ (ready s p 0x0703 q → ∀ b, b = s.ctl.spare →
      (b.st ≠ .verified → refuses s p q (.fwActivate p) erNotVerified 0)
      ∧ (b.st = .verified → (b.major.toNat ≠ q.num 0 1 ∨ b.minor.toNat ≠ q.num 1 1 ∨ b.patch.toNat ≠ q.num 2 2) →
        refuses s p q (.fwActivate p) erInvalid 32)
      ∧ (b.st = .verified → b.major.toNat = q.num 0 1 → b.minor.toNat = q.num 1 1 → b.patch.toNat = q.num 2 2 →
        (s.ctl.background ≠ none → refuses s p q (.fwActivate p) erBusy 7)
        ∧ (s.ctl.background = none →
          ((served s p).admitAct (q.act 0x0A 0 0 [] false) = none → refuses s p q (.fwActivate p) erBusy 4)
          ∧ ∀ t queued, (served s p).admitAct (q.act 0x0A 0 0 [] false) = some (t, queued) →
            exec (.fwActivate p) s = .next (answer (State.busyPending { t with ctl := { t.ctl with phase := .switching } } (some p)) q
              (s.port p).version 0 0 false [] true)))))
  ∧ (∀ s : State, s.ctl.background = none → exec .backgroundCommandDone s = .next s)
  ∧ (∀ (p : Nat) (tag : BitVec 16) (bytes : List Byte) (s : State), s.ctl.background = some (p, tag, bytes) →
    exec .backgroundCommandDone s = .next (({ s with ctl := { s.ctl with background := none } } : State).setPort p
        ((s.port p).finish tag bytes))
    ∧ ((s.port p).st = .working → (s.port p).curTag = tag → (s.port p).lastTag = some tag →
      (s.port p).finish tag bytes = { s.port p with
        stored := bytes, resp := tsetRun 0 (s.port p).resp 0 bytes, st := .done, intStatus := setBit (s.port p).intStatus mbDone })
    ∧ ((s.port p).st ≠ .working → (s.port p).lastTag ≠ some tag → (s.port p).finish tag bytes = s.port p))
  ∧ (∀ s : State, ((s.ctl.phase ≠ .switching ∨ imageValid s.ctl.spare.image = false) → exec .fwActivationSwitch s = .next s)
    ∧ (s.ctl.phase = .switching → imageValid s.ctl.spare.image = true → ∀ u : State,
      u = ({ s with ctl := { s.ctl with confirm := some (!s.ctl.activeB, s.time) } } : State).imageTakesOver s.ctl.spare →
      (s.ctl.booted = true → exec .fwActivationSwitch s = .next (u.servesAgain 3 0 0))
      ∧ (s.ctl.booted = false → exec .fwActivationSwitch s = .next u ∧ u.ctl.phase = .readConfig)
      ∧ u.ctl.snaps = [] ∧ u.cfg.active = s.cfg.active ∧ u.cfg.shadow = s.cfg.shadow
      ∧ u.ctl.runMajor = s.ctl.spare.major ∧ u.ctl.runMinor = s.ctl.spare.minor ∧ u.ctl.activeB = s.ctl.activeB
      ∧ u.leaves = s.leaves ∧ u.links = s.links ∧ u.nodes = s.nodes ∧ u.kiln = s.kiln))
  ∧ (∀ s : State, (s.ctl.confirm = none → exec .fwBankConfirm s = .next s)
    ∧ ∀ b since, s.ctl.confirm = some (b, since) →
      (s.ctl.phase = .serving → s.passed since 100000000 = true →
        ∃ c, exec .fwBankConfirm s = .next { s with ctl := c } ∧ c = s.ctl.records b ∧ c.activeB = b ∧ c.confirm = none
          ∧ (c.bank b).st = .active ∧ (c.bank (!b)).st ≠ .active)
      ∧ ((s.ctl.phase ≠ .serving ∨ s.passed since 100000000 = false) → exec .fwBankConfirm s = .next s))
  ∧ (∀ s : State, (s.ctl.fallsBack = false → exec .fwFallback s = .next s)
    ∧ (s.ctl.fallsBack = true → ∀ c : Controller,
      c = { s.ctl.modSpare (fun x => { x with st := .failed }) with confirm := none } →
      (imageValid (s.ctl.bank s.ctl.activeB).image = false → exec .fwFallback s = .next (({ s with ctl := c } : State).safeMode 6))
      ∧ (imageValid (s.ctl.bank s.ctl.activeB).image = true → ∀ u : State,
        u = ({ s with ctl := { c with quietFallback := true } } : State).imageTakesOver (s.ctl.bank s.ctl.activeB) →
        (s.ctl.booted = true → exec .fwFallback s = .next (u.servesAgain 4 s.ctl.fallCause 1))
        ∧ (s.ctl.booted = false → exec .fwFallback s = .next ((u.controllerEvent 4 s.ctl.fallCause).endActivation 1)))))
  ∧ (∀ (k : ExcKind) (pc sp : Word) (s : State),
    (s.ctl.excCause k sp = none → exec (.controllerException k pc sp) s = .next s)
    ∧ (∀ c, s.ctl.excCause k sp = some c → exec (.controllerException k pc sp) s = .next (s.controllerFaults c pc sp))
    ∧ (s.timedOut s.ctl.wdFrom 10000000 = true → exec (.watchdogExpiry pc sp) s = .next (s.controllerFaults .watchdog pc sp))
    ∧ (s.timedOut s.ctl.wdFrom 10000000 = false → exec (.watchdogExpiry pc sp) s = .next s)
    ∧ (s.ctl.onEmergency = false → (sp.toNat % 8 ≠ 0 ∨ s.ctl.stackHigh.toNat < sp.toNat ∨ sp.toNat < s.ctl.stackLow.toNat + Config.excFrame) →
      s.ctl.excCause .core sp = some .badStack)
    ∧ (s.ctl.onEmergency = false → sp.toNat % 8 = 0 → sp.toNat ≤ s.ctl.stackHigh.toNat → s.ctl.stackLow.toNat + Config.excFrame ≤ sp.toNat →
      s.ctl.excCause .core sp = none)
    ∧ (s.ctl.onEmergency = true → s.ctl.excCause .core sp = some .onEmergency))
  ∧ (∀ (c : ExcCause) (pc sp : Word) (s : State),
    ((s.ctl.phase = .inReset ∨ s.ctl.phase = .zeroing) → s.controllerFaults c pc sp = s)
    ∧ (s.ctl.phase ≠ .inReset → s.ctl.phase ≠ .zeroing → s.ctl.onEmergency = true →
      s.controllerFaults c pc sp = { s with ctl := { s.ctl with
        log := logFold s.ctl.log, imageOk := false, triedBoth := false, tryB := s.ctl.activeB, wdFrom := s.time } })
    ∧ (s.ctl.phase ≠ .inReset → s.ctl.phase ≠ .zeroing → s.ctl.onEmergency = false → ∀ t, t = s.controllerFaults c pc sp →
      t.ctl.mcFault = true ∧ t.ctl.imageOk = false ∧ t.ctl.snaps = []
      ∧ t.ctl.log = (s.ctl.log ++ [s.excRecord c pc sp]).drop (s.ctl.log.length - 7)
      ∧ t.ctl.restarts = s.ctl.restarts.filter (fun x => !s.passed x 10000000000) ++ [s.time]
      ∧ t.ctl.phase = (if 3 ≤ t.ctl.restarts.length then .safe else s.ctl.phase.afterFault)
      ∧ t.leaves = s.leaves ∧ t.links = s.links ∧ t.kiln = s.kiln ∧ t.cfg = s.cfg ∧ t.faultLog = s.faultLog ∧ t.pending = s.pending
      ∧ (canonical s → ∀ p, p < 18 → (t.port p).lastTag = none ∧ bitOf (t.port p).intStatus.toNat mbMcFault = true)))
  ∧ ∀ s : State, (s.ctl.phase = .restarting → s.ctl.imageOk = true → s.ctl.confirm = none →
      exec .controllerRestartDone s = .next ((s.afterRestart.rekey 2).servesAgain 2 0 2))
    ∧ ((s.ctl.phase ≠ .restarting ∨ s.ctl.imageOk = false ∨ s.ctl.confirm ≠ none) → exec .controllerRestartDone s = .next s)
    ∧ ∀ kind cause outcome, ∃ u v : State, s.servesAgain kind cause outcome = (v.examineQueue).offer
      ∧ v = (u.endActivation outcome).reportAbandoned ∧ v.ctl.abandoned = [] ∧ u.ctl.phase = .serving ∧ u.ctl.mcFault = false
      ∧ u.leaves = s.leaves ∧ u.links = s.links ∧ u.nodes = s.nodes ∧ u.kiln = s.kiln ∧ u.cfg = s.cfg ∧ u.ctl.acts = s.ctl.acts

/-! ### The other ports -/

/-- O56. The SMBus target. SMB_BLK_VERSION, SMB_STATUS and SMB_MBX_READ return what Table 16.6 gives, and the PEC of the transaction after
it; SMB_NOTIFY_CTRL writes the enable and clears the failure; SMB_MBX_WRITE reaches port 16's window; a transaction whose PEC or data are
wrong, or in block reset, is not acknowledged and has no effect, as SMB_TIMEOUT has none, and a command code that Table 16.6 does not list is no
row. A HOST_NOTIFY_ATTEMPT or HOST_NOTIFY_RETRY goes through or fails, and the fourth failure ends the sequence; out of its moment it changes
nothing.
The model's own choices behind it: a row is one transaction, the moment of a Host Notify's data (assumption log 81); the polynomial of the PEC
and the bytes it covers (log 100). -/
def Obligations.SmbusTarget : Prop :=
  (∀ s : State, exec .smbTimeout s = .next { s with smb := { s.smb with reply := none } }
    ∧ (s.awake = false → ∀ r, exec (.hostNotifyAttempt r) s = .next s ∧ exec (.hostNotifyRetry r) s = .next s)
    ∧ (s.awake = false → ∀ i, (i = .smbBlkVersion ∨ i = .smbStatus ∨ (∃ d x, i = .smbNotifyCtrl d x) ∨ (∃ d x, i = .smbMbxWrite d x)
        ∨ ∃ d n, i = .smbMbxRead d n) → exec i s = .next { s with smb := { s.smb with reply := none } })
    ∧ ∀ (c : Byte) data pec, c.toNat ∉ [0x00, 0x01, 0x02, 0x10, 0x11] → smbRow c data pec = none)
  ∧ ∀ s : State, s.awake = true → ∀ w r : Byte, w = BitVec.ofNat 8 (2 * (0x58 + s.straps.smbAddr.toNat)) → r = w + 1 →
    exec .smbBlkVersion s = .next { s with smb := { s.smb with
        reply := some (leBytes 4 s.blkVersion.toNat), pecOut := pecOf ([w, 0x00, r, 4] ++ leBytes 4 s.blkVersion.toNat) } }
    ∧ (∃ b : Byte, exec .smbStatus s = .next { s with smb := { s.smb with reply := some [b], pecOut := pecOf [w, 0x01, r, b] } }
      ∧ bitOf b.toNat 0 = (s.ctl.phase == .serving) ∧ bitOf b.toNat 1 = s.ctl.mcFault ∧ bitOf b.toNat 2 = (s.ctl.phase == .safe)
      ∧ bitOf b.toNat 3 = s.smb.notifyFailed ∧ bitOf b.toNat 4 = s.smb.notifyEn ∧ bitOf b.toNat 5 = s.straps.debug
      ∧ bitOf b.toNat 6 = false ∧ bitOf b.toNat 7 = false)
    ∧ (∀ (d : Byte) (pec : Option Byte),
      (d.toNat &&& 0xF6 = 0 → (pec = none ∨ pec = some (pecOf [w, 0x02, d])) →
        exec (.smbNotifyCtrl d pec) s = .next { s with smb := { s.smb with
          reply := some [], notifyEn := bitOf d.toNat 0, notifyFailed := s.smb.notifyFailed && !bitOf d.toNat 3 } })
      ∧ ((d.toNat &&& 0xF6 ≠ 0 ∨ ∃ x, pec = some x ∧ x ≠ pecOf [w, 0x02, d]) →
        exec (.smbNotifyCtrl d pec) s = .next { s with smb := { s.smb with reply := none } }))
    ∧ (∀ (data : List Byte) (pec : Option Byte) (x : Byte), x = pecOf ([w, 0x10, BitVec.ofNat 8 data.length] ++ data) →
      (mbxWriteOk data = true → (pec = none ∨ pec = some x) → exec (.smbMbxWrite data pec) s
        = .next ((mbxWords data).foldl (fun a e => a.windowWrite 16 e.1 e.2) { s with smb := { s.smb with reply := some [] } }))
      ∧ ((mbxWriteOk data = false ∨ (pec ≠ none ∧ pec ≠ some x)) →
        exec (.smbMbxWrite data pec) s = .next { s with smb := { s.smb with reply := none } }))
    ∧ (∀ (o : Nat) (v : Word), o % 4 = 0 → o < 2 ^ 16 → exec (.smbMbxWrite (leBytes 2 o ++ leBytes 4 v.toNat) none) s
        = .next (({ s with smb := { s.smb with reply := some [] } } : State).windowWrite 16 o v)
      ∧ exec (.smbMbxRead (leBytes 2 o ++ [4]) 3) s
        = .next { s with smb := { s.smb with
            reply := some (leBytes 4 (s.windowRead 16 o).toNat)
            pecOut := pecOf ([w, 0x11, 3] ++ leBytes 2 o ++ [4, r, 4] ++ leBytes 4 (s.windowRead 16 o).toNat) } })
    ∧ (∀ (data : List Byte) (n : Nat), (mbxReadOk data = false ∨ n ≠ data.length) → exec (.smbMbxRead data n) s = .next { s with smb := { s.smb with reply := none } })
    ∧ (∀ (data : List Byte) (out : List Byte), mbxReadOk data = true →
      out = ((List.range (numAt data 2 1 / 4)).map (fun i => leBytes 4 (s.windowRead 16 (numAt data 0 2 + 4 * i)).toNat)).flatten →
      ∃ x, exec (.smbMbxRead data 3) s = .next { s with smb := { s.smb with reply := some out, pecOut := x } })
    ∧ (∀ x, (s.smb.running = false ∨ s.smb.attempts ≠ 0) → exec (.hostNotifyAttempt x) s = .next s)
    ∧ (∀ x, (s.smb.running = false ∨ s.smb.attempts = 0 ∨ s.timedOut s.smb.since 1000000 = false) →
      exec (.hostNotifyRetry x) s = .next s)
    ∧ (s.smb.running = true →
      (s.smb.attempts = 0 →
        exec (.hostNotifyAttempt .acked) s = .next { s with smb := { s.smb with
            running := false, attempts := 0
            sent := some (BitVec.ofNat 8 (0x58 + s.straps.smbAddr.toNat), (s.port 16).intStatus.setWidth 16) } }
        ∧ ∀ x, x ≠ .acked → exec (.hostNotifyAttempt x) s = .next { s with smb := { s.smb with attempts := 1, since := s.time } })
      ∧ (s.smb.attempts ≠ 0 → s.timedOut s.smb.since 1000000 = true →
        exec (.hostNotifyRetry .acked) s = .next { s with smb := { s.smb with
            running := false, attempts := 0
            sent := some (BitVec.ofNat 8 (0x58 + s.straps.smbAddr.toNat), (s.port 16).intStatus.setWidth 16) } }
        ∧ ∀ x, x ≠ .acked →
          (s.smb.attempts < 3 → exec (.hostNotifyRetry x) s = .next { s with smb := { s.smb with
              attempts := s.smb.attempts + 1, since := s.time } })
          ∧ (3 ≤ s.smb.attempts → exec (.hostNotifyRetry x) s = .next { s.bump 0x0C with smb := { s.smb with
              running := false, attempts := 0, notifyFailed := true, since := s.time } })))

/-- O57. The test port's instructions, each with one scan of its data register, and the trace port. EXTEST and SAMPLE/PRELOAD capture the
pins; IDCODE holds the stepping letter, 0x0C08, CX_MFR_ID and a 1; every code that Table 16.4 does not list selects bypass; CX_VERSION and
CX_STRAPS give the version and the straps; CX_MBX acts on port 17's window; the key of CX_RESET asserts block reset; CX_TRACE_CFG reads and
writes the trace configuration; CX_PORT_CNT reads the counter under the code given before; TEST_PORT_RESET resets the port.
TRACE_RECORD_SEND sends the next trace record, after any drop a LOST record, as twenty transfers, two bytes each; while the trace is off, the
reference absent or nothing waits, it changes nothing.
The model's own choices behind it: what CX_RESET captures (assumption log 12); a row is one scan, and CX_TRACE_CFG stays at TRST_N (log 82). -/
def Obligations.TestAndTrace : Prop :=
  (∀ (pins din : List Bool) (s : State),
    exec (.extest pins din) s = .next { s with test := { s.test with ir := 0x00, dr := pins, boundary := din, driving := true } }
    ∧ exec (.samplePreload pins din) s = .next { s with test := { s.test with ir := 0x02, dr := pins, boundary := din, driving := false } })
  ∧ (∀ s : State,
    (∃ c : BitVec 32, exec .idcode s = .next { s with test := { s.test with ir := 0x01, dr := bitsOf 32 c.toNat, driving := false } }
      ∧ c.extractLsb' 28 4 = s.blkVersion.extractLsb' 16 4 ∧ c.extractLsb' 12 16 = 0x0C08 ∧ c.extractLsb' 1 11 = s.straps.mfrId
      ∧ c.extractLsb' 0 1 = 1)
    ∧ exec .bypass s = .next { s with test := { s.test with ir := 0xFF, dr := [false], driving := false } }
    ∧ (∀ (ir : Byte) (pins din : List Bool) (u : Bool), ir.toNat ∉ [0x00, 0x01, 0x02, 0x20, 0x21, 0x22, 0x23, 0x24, 0x25] →
      tapRow ir pins din u = .bypass)
    ∧ exec .cxVersion s = .next { s with test := { s.test with ir := 0x20, dr := bitsOf 32 s.blkVersion.toNat, driving := false } }
    ∧ exec .cxStraps s = .next { s with test := { s.test with
        ir := 0x24, driving := false
        dr := bitsOf 32 (s.straps.ndieM1.toNat * 2 ^ 27 + b2n s.straps.debug * 2 ^ 26 + s.straps.smbAddr.toNat * 2 ^ 23 + s.straps.mfrId.toNat * 2 ^ 12) } }
    ∧ exec .testPortReset s = .next { s with test := {} })
  ∧ (∀ (d : BitVec 64) (s : State),
    exec (.cxPortCnt d) s = .next { s with test := { s.test with
        ir := 0x25, driving := false, cntCode := d.setWidth 8
        dr := bitsOf 64 ((s.portCounter s.test.cntCode.toNat).toNat * 2 ^ 8 + s.test.cntCode.toNat) } })
  ∧ (∀ (z : BitVec 16) (o : BitVec 14) (v : Word) (s t : State),
    t = { s with test := { s.test with ir := 0x21, driving := false, dr := bitsOf 64 s.test.mbxWord } } →
    (s.awake = true →
      exec (.cxMbx (1#2 ++ z ++ o ++ v)) s = .next { t.windowWrite 17 (4 * o.toNat) v with test := { t.test with mbxDone := true } }
      ∧ exec (.cxMbx (2#2 ++ z ++ o ++ v)) s
        = .next { t with test := { t.test with mbxDone := true, mbxData := t.windowRead 17 (4 * o.toNat) } }
      ∧ exec (.cxMbx (0#2 ++ z ++ o ++ v)) s = .next t ∧ exec (.cxMbx (3#2 ++ z ++ o ++ v)) s = .next t)
    ∧ (s.awake = false → ∀ w, exec (.cxMbx w) s = .next t))
  ∧ (∀ (w : Word) (s : State), exec (.cxReset 0xC0800000) s = exec (.blockResetAssert .cxReset) s
    ∧ (∃ t, exec (.cxReset 0xC0800000) s = .next t)
    ∧ (w ≠ 0xC0800000 → ∃ t, exec (.cxReset w) s = .next t
      ∧ t = { s with tick := s.tick + 1, test := { s.test with ir := 0x22, driving := false, dr := t.test.dr } }))
  ∧ (∀ (w : Word) (s t : State), t = { s with test := { s.test with ir := 0x23, driving := false, dr := bitsOf 32 s.trace.cfg.toNat } } →
      exec (.cxTraceCfg none) s = .next t
      ∧ (s.awake = true → exec (.cxTraceCfg (some w)) s = .next { t with trace := { s.trace with cfg := w &&& 0xCFFF037E } })
      ∧ (s.awake = false → exec (.cxTraceCfg (some w)) s = .next t))
  ∧ (∀ s : State, (s.awake = false ∨ s.refLost = true ∨ bitOf s.trace.cfg.toNat 31 = false) → exec .traceRecordSend s = .next s)
  ∧ (∀ r : BitVec 320, (trcTransfers r).length = 20 ∧ ∀ i, i < 20 →
      (trcTransfers r)[i]? = some (r.extractLsb' (16 * i) 16, decide (i = 0)))
  ∧ ∀ s : State, s.awake = true → s.refLost = false → bitOf s.trace.cfg.toNat 31 = true →
    (s.trace.dropped = 0 → s.trace.queue = [] → exec .traceRecordSend s = .next s)
    ∧ (s.trace.dropped = 0 → ∀ r rs, s.trace.queue = r :: rs →
      exec .traceRecordSend s = .next { s with trace := { s.trace with out := trcTransfers r, queue := rs } })
    ∧ (s.trace.dropped ≠ 0 → exec .traceRecordSend s
        = .next { s with trace := { s.trace with
            out := trcTransfers (eventRecord s.trace.seq 0x12 (bodyOf [(s.trace.dropped.toNat, 0, 4)])), seq := s.trace.seq + 1, dropped := 0 } })

/-- O58. The gateway port. A member's GW_TX_HDR claims an idle buffer, its TRANSMIT_DATA fills it, its GW_TX_GO sends it or gives the result
that R536 names, and each GW_TX_FLIT_ACCEPT moves it on; a GW_RX_FLIT fills its box, waits on a collision, or is discarded and counted;
GW_BOX_STALE, GW_CLAIM_EXPIRE and GW_COLLIDE_EXPIRE end boxes, claims and collisions; a GW_BOX_FREE empties a box; GW_PKG_RANK_SAMPLE and
GW_PKG_RANK_VALID_FALL set and clear the package's rank. An access without membership is counted and has no other effect, and a row whose
condition fails changes nothing.
The model's own choices behind it: which group's membership a header store needs, an inbound flit's reserved bits, and when a held flit enters
(assumption log 83); when a time has come (log 89). -/
def Obligations.GatewayPort : Prop :=
  (∀ (s : State) (i : Instr), s.awake = false →
    ((∃ r, i = .gwPkgRankSample r) ∨ i = .gwPkgRankValidFall ∨ (∃ w b h, i = .gwTxHdr w b h) ∨ (∃ w b o d, i = .transmitData w b o d)
      ∨ (∃ w b v, i = .gwTxGo w b v) ∨ (∃ b, i = .gwTxFlitAccept b) ∨ (∃ b, i = .gwClaimExpire b) ∨ (∃ f, i = .gwRxFlit f)
      ∨ (∃ x, i = .gwBoxStale x) ∨ i = .gwCollideExpire ∨ ∃ w x v, i = .gwBoxFree w x v) → exec i s = .next s)
  ∧ ∀ s : State, s.awake = true →
    (∀ r, s.gw.rank = none → exec (.gwPkgRankSample r) s = .next { s with gw := { s.gw with rank := some r } })
    ∧ (∀ r, s.gw.rank ≠ none → exec (.gwPkgRankSample r) s = .next s)
    ∧ exec .gwPkgRankValidFall s = .next { s with gw := { s.gw with rank := none } }
    ∧ (∀ (who : BitVec 16) (b : Nat) (h : BitVec 128), 64 ≤ b → exec (.gwTxHdr who b h) s = .next s ∧ exec (.gwTxFlitAccept b) s = .next s
      ∧ (∀ off data, exec (.transmitData who b off data) s = .next s) ∧ ∀ v, exec (.gwTxGo who b v) s = .next s)
    ∧ (∀ (who : BitVec 16) (b : Nat) (h : BitVec 128), b < 64 →
      (s.gwMember who (hGroup h.toNat) = true → (s.txBuf b).st = 0 → exec (.gwTxHdr who b h) s = .next (s.modTx b (fun t =>
          { t with hdr := h, owner := who, st := 1, result := 0, since := s.time })))
      ∧ (s.gwMember who (hGroup h.toNat) = true → (s.txBuf b).st = 1 →
        exec (.gwTxHdr who b h) s = .next (if (s.txBuf b).owner = who then s.modTx b (fun t => { t with hdr := h }) else s))
      ∧ (s.gwMember who (hGroup h.toNat) = true → (s.txBuf b).st ≠ 0 → (s.txBuf b).st ≠ 1 → exec (.gwTxHdr who b h) s = .next s)
      ∧ (s.gwMember who (hGroup h.toNat) = false → exec (.gwTxHdr who b h) s = .next (s.bump 0x07)))
    ∧ (∀ (who : BitVec 16) (b off : Nat) (data : List Byte), b < 64 →
      ((4096 < off + data.length ∨ gwAligned off data.length = false) → exec (.transmitData who b off data) s = .next s)
      ∧ (off + data.length ≤ 4096 → gwAligned off data.length = true →
        (s.gwMember who (hGroup (s.txBuf b).hdr.toNat) = false → exec (.transmitData who b off data) s = .next (s.bump 0x07))
        ∧ (s.gwMember who (hGroup (s.txBuf b).hdr.toNat) = true →
          exec (.transmitData who b off data) s = .next (if (s.txBuf b).st = 1 ∧ (s.txBuf b).owner = who then
            s.modTx b (fun t => { t with data := tsetRun 0 t.data off data }) else s))))
    ∧ (∀ (b : Nat) (v : Word), b < 64 →
      ((s.txBuf b).st = 1 → ∀ who, who = (s.txBuf b).owner →
        (s.gw.rank = none → exec (.gwTxGo who b v) s = .next (s.modTx b (fun t => { t with st := 0, result := 5 })))
        ∧ ∀ r, s.gw.rank = some r →
          (s.gwMember who (hGroup (s.txBuf b).hdr.toNat) = false →
            exec (.gwTxGo who b v) s = .next (s.modTx b (fun t => { t with st := 0, result := 2 })))
          ∧ (s.gwMember who (hGroup (s.txBuf b).hdr.toNat) = true →
            (goInvalid (s.txBuf b).hdr.toNat v = true →
              exec (.gwTxGo who b v) s = .next (s.modTx b (fun t => { t with st := 0, result := 3 })))
            ∧ (goInvalid (s.txBuf b).hdr.toNat v = false →
              exec (.gwTxGo who b v) s = .next (s.modTx b (fun t => { t with
                st := 2, length := v.toNat % 2 ^ 13, sent := 0
                hdr := BitVec.ofNat 128 (fillHeader t.hdr.toNat r.toNat (v.toNat % 2 ^ 13)) })))))
      ∧ ∀ who, ((s.txBuf b).st ≠ 1 ∨ who ≠ (s.txBuf b).owner) → exec (.gwTxGo who b v) s
          = .next (if s.gwMember who (hGroup (s.txBuf b).hdr.toNat) = true then s else s.bump 0x07))
    ∧ (∀ b, b < 64 →
      ((s.txBuf b).st ≠ 2 → exec (.gwTxFlitAccept b) s = .next s)
      ∧ ((s.txBuf b).st = 2 →
        (hDst (s.txBuf b).hdr.toNat ≠ hSrc (s.txBuf b).hdr.toNat → ∃ t, exec (.gwTxFlitAccept b) s = .next t
          ∧ t = { (s.modTx b TxBuf.accepted).bump 0x01 with gw := { (s.modTx b TxBuf.accepted).gw with out := some (s.txBuf b).next } })
        ∧ (hDst (s.txBuf b).hdr.toNat = hSrc (s.txBuf b).hdr.toNat →
          (s.gw.hold = none → exec (.gwTxFlitAccept b) s = .next ((s.modTx b TxBuf.accepted).gwReceive (s.txBuf b).next))
          ∧ (s.gw.hold ≠ none → exec (.gwTxFlitAccept b) s = .next s))))
    ∧ (∀ b, ((s.txBuf b).st = 1 → s.timedOut (s.txBuf b).since 1000000 = true →
        exec (.gwClaimExpire b) s = .next (s.modTx b (fun t => { t with st := 0, result := 4 })))
      ∧ (((s.txBuf b).st ≠ 1 ∨ s.timedOut (s.txBuf b).since 1000000 = false) → exec (.gwClaimExpire b) s = .next s))
    ∧ (∀ f : BitVec 664, s.gw.hold ≠ none → exec (.gwRxFlit f) s = .next s)
    ∧ (∀ f : BitVec 664, s.gw.hold = none → ∀ h x, h = numAt (gwBytes f) 0 16 → x = s.rxBox (hBox h) →
      exec (.gwRxFlit f) s = .next ((s.bump 0x02).gwReceive f)
      ∧ (numAt (gwBytes f) 80 3 ≠ crc24 ((gwBytes f).take 80) → exec (.gwRxFlit f) s = .next ((s.bump 0x02).bump 0x03))
      ∧ (numAt (gwBytes f) 80 3 = crc24 ((gwBytes f).take 80) → (∀ r, s.gw.rank = some r → r.toNat ≠ hDst h) →
        exec (.gwRxFlit f) s = .next ((s.bump 0x02).bump 0x04))
      ∧ (numAt (gwBytes f) 80 3 = crc24 ((gwBytes f).take 80) → s.gw.rank = some (BitVec.ofNat 16 (hDst h)) →
        (x.st = 0 → exec (.gwRxFlit f) s = .next ((s.bump 0x02).modBox (hBox h) (fun _ =>
            ({ hdr := BitVec.ofNat 128 (boxHeader h), st := 1 } : RxBox).store h (bytesAt (gwBytes f) 16 64) s.time)))
        ∧ (x.st ≠ 0 → hKey x.hdr.toNat ≠ hKey h →
          exec (.gwRxFlit f) s = .next { s.bump 0x02 with gw := { s.gw with hold := some f, since := s.time } })
        ∧ (x.st ≠ 0 → x.st ≠ 1 → hKey x.hdr.toNat = hKey h → exec (.gwRxFlit f) s = .next ((s.bump 0x02).bump 0x06))
        ∧ (x.st = 1 → hKey x.hdr.toNat = hKey h → hRecord x.hdr.toNat ≠ hRecord h →
          exec (.gwRxFlit f) s = .next ((s.bump 0x02).modBox (hBox h) (fun y => { y with st := 3 })))
        ∧ (x.st = 1 → hKey x.hdr.toNat = hKey h → hRecord x.hdr.toNat = hRecord h → hFlit h ∈ x.got →
          exec (.gwRxFlit f) s = .next ((s.bump 0x02).bump 0x06))
        ∧ (x.st = 1 → hKey x.hdr.toNat = hKey h → hRecord x.hdr.toNat = hRecord h → hFlit h ∉ x.got →
          exec (.gwRxFlit f) s = .next ((s.bump 0x02).modBox (hBox h) (fun y => y.store h (bytesAt (gwBytes f) 16 64) s.time)))))
    ∧ (∀ h, hReserved (boxHeader h) = 0 ∧ hKey (boxHeader h) = hKey h ∧ hRecord (boxHeader h) = hRecord h ∧ hFlit (boxHeader h) = 0)
    ∧ (∀ x, ((s.rxBox x).st = 1 → s.timedOut (s.rxBox x).since 10000000 = true →
        exec (.gwBoxStale x) s = .next (s.modBox x (fun y => { y with st := 4 })))
      ∧ (((s.rxBox x).st ≠ 1 ∨ s.timedOut (s.rxBox x).since 10000000 = false) → exec (.gwBoxStale x) s = .next s))
    ∧ ((∀ f, s.gw.hold = some f → s.timedOut s.gw.since 1000000 = true →
        exec .gwCollideExpire s = .next { s.bump 0x05 with gw := { s.gw with hold := none } })
      ∧ ((s.gw.hold = none ∨ s.timedOut s.gw.since 1000000 = false) → exec .gwCollideExpire s = .next s))
    ∧ ∀ (who : BitVec 16) (x : Nat) (v : Word),
      (256 ≤ x → exec (.gwBoxFree who x v) s = .next s)
      ∧ (x < 256 → s.gwMember who (hGroup (s.rxBox x).hdr.toNat) = false → exec (.gwBoxFree who x v) s = .next (s.bump 0x07))
      ∧ (x < 256 → s.gwMember who (hGroup (s.rxBox x).hdr.toNat) = true →
        (bitOf v.toNat 0 = false → exec (.gwBoxFree who x v) s = .next s)
        ∧ (bitOf v.toNat 0 = true →
          ((∀ f, s.gw.hold = some f → hBox (numAt (gwBytes f) 0 16) ≠ x) → exec (.gwBoxFree who x v) s = .next (s.modBox x (fun _ => {})))
          ∧ ∀ f, s.gw.hold = some f → hBox (numAt (gwBytes f) 0 16) = x → exec (.gwBoxFree who x v) s
              = .next (({ s with gw := { s.gw with box := tmod {} s.gw.box x (fun _ => {}), hold := none } } : State).gwReceive f)))

/-! ### Invariants -/

/-- O59. The state after reset has the canonical form.
The model's own choices behind it: assumption log 15. -/
def Obligations.ResetCanonical : Prop := canonical State.reset

/-- O60. Every step keeps the canonical form, from every state that has it.
The model's own choices behind it: assumption log 15. -/
def Obligations.StepKeepsCanonical : Prop := ∀ s t : State, canonical s → step s = .next t → canonical t
end

