-- ==== Sys2Proof/Laws/Table.lean ====
section
/-! SUPPORT. The laws of sparse tables: reading after writing, what a write leaves alone, and that every operation keeps the
canonical form. -/

namespace Sys2Proof.Machine

variable {α : Type}

theorem keysRise_mono {t : Table α} : ∀ {lo hi : Nat}, lo ≤ hi → keysRise hi t = true → keysRise lo t = true := by
  cases t with
  | nil => simp [keysRise]
  | cons e t =>
    intro lo hi h hr
    simp only [keysRise, Bool.and_eq_true, decide_eq_true_eq] at hr ⊢
    exact ⟨by omega, hr.2⟩

theorem tget_of_lt (d : α) {t : Table α} : ∀ {lo k : Nat}, keysRise lo t = true → k < lo → tget d t k = d := by
  induction t with
  | nil => simp [tget]
  | cons e t ih =>
    intro lo k h hk
    simp only [keysRise, Bool.and_eq_true, decide_eq_true_eq] at h
    have : e.1 ≠ k := by omega
    simp only [tget, this, if_false]
    exact ih h.2 (by omega)

@[simp] theorem tget_tinsert_self (d : α) (k : Nat) (v : α) (t : Table α) : tget d (tinsert k v t) k = v := by
  induction t with
  | nil => simp [tinsert, tget]
  | cons e t ih =>
    simp only [tinsert]
    split
    · simp [tget]
    · split
      · simp [tget]
      · rename_i h1 h2
        have : e.1 ≠ k := fun h => h2 h.symm
        simp [tget, this, ih]

theorem tget_tinsert_ne (d : α) {k j : Nat} (v : α) (t : Table α) (h : j ≠ k) : tget d (tinsert k v t) j = tget d t j := by
  induction t with
  | nil => simp [tinsert, tget, h.symm]
  | cons e t ih =>
    simp only [tinsert]
    split
    · simp [tget, h.symm]
    · split
      · rename_i h2
        subst h2
        simp [tget, h.symm]
      · simp only [tget, ih]

theorem tget_terase_ne (d : α) {k j : Nat} (t : Table α) (h : j ≠ k) : tget d (terase k t) j = tget d t j := by
  induction t with
  | nil => rfl
  | cons e t ih =>
    simp only [terase]
    split
    · rename_i h2
      have : e.1 ≠ j := by omega
      simp [tget, this]
    · simp only [tget, ih]

theorem tget_terase_self (d : α) (k : Nat) {t : Table α} : ∀ {lo : Nat}, keysRise lo t = true → tget d (terase k t) k = d := by
  induction t with
  | nil => simp [terase, tget]
  | cons e t ih =>
    intro lo h
    simp only [keysRise, Bool.and_eq_true, decide_eq_true_eq] at h
    simp only [terase]
    split
    · rename_i h2
      exact tget_of_lt d h.2 (by omega)
    · rename_i h2
      simp only [tget, h2, if_false]
      exact ih h.2

theorem keysRise_tinsert {k : Nat} (v : α) {t : Table α} :
    ∀ {lo : Nat}, lo ≤ k → keysRise lo t = true → keysRise lo (tinsert k v t) = true := by
  induction t with
  | nil => intro lo h _; simp [tinsert, keysRise, h]
  | cons e t ih =>
    intro lo h hr
    simp only [keysRise, Bool.and_eq_true, decide_eq_true_eq] at hr
    simp only [tinsert]
    split
    · simp only [keysRise, Bool.and_eq_true, decide_eq_true_eq]
      exact ⟨h, by omega, hr.2⟩
    · split
      · rename_i h2
        simp only [keysRise, Bool.and_eq_true, decide_eq_true_eq]
        exact ⟨h, by rw [h2]; exact hr.2⟩
      · simp only [keysRise, Bool.and_eq_true, decide_eq_true_eq]
        exact ⟨hr.1, ih (by omega) hr.2⟩

theorem keysRise_terase (k : Nat) {t : Table α} : ∀ {lo : Nat}, keysRise lo t = true → keysRise lo (terase k t) = true := by
  induction t with
  | nil => simp [terase]
  | cons e t ih =>
    intro lo hr
    simp only [keysRise, Bool.and_eq_true, decide_eq_true_eq] at hr
    simp only [terase]
    split
    · exact keysRise_mono (by omega) hr.2
    · simp only [keysRise, Bool.and_eq_true, decide_eq_true_eq]
      exact ⟨hr.1, ih hr.2⟩

theorem mem_tinsert {k : Nat} {v : α} {t : Table α} {e : Nat × α} (h : e ∈ tinsert k v t) : e = (k, v) ∨ e ∈ t := by
  induction t with
  | nil => simpa [tinsert] using h
  | cons f t ih =>
    simp only [tinsert] at h
    split at h
    · simp only [List.mem_cons] at h ⊢; tauto
    · split at h
      · simp only [List.mem_cons] at h ⊢; tauto
      · simp only [List.mem_cons] at h ⊢
        rcases h with h | h
        · tauto
        · rcases ih h with h | h <;> tauto

theorem mem_terase {k : Nat} {t : Table α} {e : Nat × α} (h : e ∈ terase k t) : e ∈ t := by
  induction t with
  | nil => simp [terase] at h
  | cons f t ih =>
    simp only [terase] at h
    split at h
    · exact List.mem_cons_of_mem _ h
    · simp only [List.mem_cons] at h ⊢
      rcases h with h | h
      · tauto
      · exact Or.inr (ih h)

variable [DecidableEq α]

/-- A write leaves every other entry alone. -/
theorem tget_tset_ne (d : α) {k j : Nat} (t : Table α) (v : α) (h : j ≠ k) : tget d (tset d t k v) j = tget d t j := by
  unfold tset
  split
  · exact tget_terase_ne d t h
  · exact tget_tinsert_ne d v t h

theorem keysRise_of_wf {d : α} {t : Table α} (h : tableWf d t = true) : keysRise 0 t = true := by
  simp only [tableWf, Bool.and_eq_true] at h
  exact h.1

/-- A read after a write of the same entry gives what was written. -/
theorem tget_tset_self {d : α} {t : Table α} (h : tableWf d t = true) (k : Nat) (v : α) : tget d (tset d t k v) k = v := by
  unfold tset
  split
  · rename_i hv
    rw [hv]
    exact tget_terase_self d k (keysRise_of_wf h)
  · exact tget_tinsert_self d k v t

/-- A write keeps the canonical form. -/
theorem tableWf_tset {d : α} {t : Table α} (h : tableWf d t = true) (k : Nat) (v : α) : tableWf d (tset d t k v) = true := by
  simp only [tableWf, Bool.and_eq_true, List.all_eq_true, decide_eq_true_eq] at h ⊢
  unfold tset
  split
  · exact ⟨keysRise_terase k h.1, fun e he => h.2 e (mem_terase he)⟩
  · rename_i hv
    refine ⟨keysRise_tinsert v (Nat.zero_le k) h.1, fun e he => ?_⟩
    rcases mem_tinsert he with rfl | he
    · exact hv
    · exact h.2 e he

/-- Changing an entry keeps the canonical form. -/
theorem tableWf_tmod {d : α} {t : Table α} (h : tableWf d t = true) (k : Nat) (f : α → α) : tableWf d (tmod d t k f) = true :=
  tableWf_tset h k _

/-- Writing consecutive entries keeps the canonical form. -/
theorem tableWf_tsetRun {d : α} {vs : List α} : ∀ {t : Table α} {k : Nat}, tableWf d t = true →
    tableWf d (tsetRun d t k vs) = true := by
  induction vs with
  | nil => intro t k h; simpa [tsetRun] using h
  | cons v vs ih => intro t k h; exact ih (tableWf_tset h k v)

/-- Consecutive writes leave the entries outside them alone. -/
theorem tget_tsetRun_out {d : α} {vs : List α} : ∀ {t : Table α} {k j : Nat}, (j < k ∨ k + vs.length ≤ j) →
    tget d (tsetRun d t k vs) j = tget d t j := by
  induction vs with
  | nil => intro t k j _; rfl
  | cons v vs ih =>
    intro t k j h
    simp only [List.length_cons] at h
    rw [tsetRun, ih (by omega), tget_tset_ne d t v (by omega)]

theorem keysRise_tmapAll {d : α} {f : α → α} {t : Table α} :
    ∀ {lo : Nat}, keysRise lo t = true → keysRise lo (tmapAll d f t) = true := by
  induction t with
  | nil => simp [tmapAll]
  | cons e t ih =>
    intro lo hr
    simp only [keysRise, Bool.and_eq_true, decide_eq_true_eq] at hr
    simp only [tmapAll]
    split
    · exact keysRise_mono (by omega) (ih hr.2)
    · simp only [keysRise, Bool.and_eq_true, decide_eq_true_eq]
      exact ⟨hr.1, ih hr.2⟩

/-- Changing every listed value keeps the canonical form. -/
theorem tableWf_tmapAll {d : α} {f : α → α} {t : Table α} (h : tableWf d t = true) : tableWf d (tmapAll d f t) = true := by
  simp only [tableWf, Bool.and_eq_true] at h ⊢
  refine ⟨keysRise_tmapAll h.1, ?_⟩
  clear h
  induction t with
  | nil => rfl
  | cons e t ih =>
    simp only [tmapAll]
    split
    · exact ih
    · rename_i hv
      simp only [List.all_cons, Bool.and_eq_true, decide_eq_true_eq]
      exact ⟨hv, ih⟩

@[simp] theorem tableWf_nil (d : α) : tableWf d ([] : Table α) = true := rfl

end Sys2Proof.Machine
end

