-- ==== Sys2Proof/Laws/Canonical.lean ====
section
/-! SUPPORT. The canonical form of a state, as a check that can be evaluated. -/

namespace Sys2Proof.Laws
open Sys2Proof.Machine

/-- What `canonical` asks, over the entries that are listed. -/
def canonicalCheck (s : State) : Bool :=
  tableWf {} s.leaves && tableWf {} s.links && tableWf {} s.nodes && tableWf {} s.ctls && tableWf {} s.dies && tableWf {} s.ports
    && tableWf 0 s.counters && tableWf {} s.cfg.saggars && s.ctls.all (fun e => tableWf 0 e.2.counts)
    && s.leaves.all (fun e => tableWf 0 e.2.scratch) && s.kiln.firings.all (fun f => decide (f.uid < s.kiln.nextUid))
    && decide ((s.kiln.firings.map (·.uid)).Nodup) && decide (s.faultLog.length ≤ 1024) && decide (s.trace.queue.length ≤ 256)

/-- What every listed value and the default have, every entry has. -/
theorem tget_of_all {α : Type} {d : α} {p : α → Prop} (hd : p d) : ∀ {t : Table α}, (∀ e ∈ t, p e.2) → ∀ k, p (tget d t k)
  | [], _, _ => hd
  | (j, v) :: t, h, k => by
    simp only [tget]
    split
    · exact h (j, v) (by simp)
    · exact tget_of_all hd (fun e he => h e (by simp [he])) k

theorem canonical_of_check {s : State} (h : canonicalCheck s = true) : canonical s := by
  simp only [canonicalCheck, Bool.and_eq_true, List.all_eq_true, decide_eq_true_eq] at h
  obtain ⟨⟨⟨⟨⟨⟨⟨⟨⟨⟨⟨⟨⟨h1, h2⟩, h3⟩, h4⟩, h5⟩, h6⟩, h7⟩, h8⟩, h9⟩, h10⟩, h11⟩, h12⟩, h13⟩, h14⟩ := h
  exact ⟨h1, h2, h3, h4, h5, h6, h7, h8, tget_of_all (p := fun n : CtlNode => tableWf 0 n.counts = true) rfl h9,
    tget_of_all (p := fun n : LeafPort => tableWf 0 n.scratch = true) rfl h10, h11, h12, h13, h14⟩

end Sys2Proof.Laws
end

