-- ==== Sys2Proof/Laws/State.lean ====
section
/-! SUPPORT. What each named update of the state gives for each field: one lemma per field per update, so that no proof
unfolds a record update. -/

namespace Sys2Proof.Machine

/-! ### State.setLeaf -/

@[simp] theorem setLeaf_pending (s : State) (l : Nat) (p : LeafPort) : (s.setLeaf l p).pending = s.pending := rfl
@[simp] theorem setLeaf_tick (s : State) (l : Nat) (p : LeafPort) : (s.setLeaf l p).tick = s.tick := rfl
@[simp] theorem setLeaf_handles (s : State) (l : Nat) (p : LeafPort) : (s.setLeaf l p).handles = s.handles := rfl
@[simp] theorem setLeaf_pwrokLow (s : State) (l : Nat) (p : LeafPort) : (s.setLeaf l p).pwrokLow = s.pwrokLow := rfl
@[simp] theorem setLeaf_rstLow (s : State) (l : Nat) (p : LeafPort) : (s.setLeaf l p).rstLow = s.rstLow := rfl
@[simp] theorem setLeaf_cxReset (s : State) (l : Nat) (p : LeafPort) : (s.setLeaf l p).cxReset = s.cxReset := rfl
@[simp] theorem setLeaf_straps (s : State) (l : Nat) (p : LeafPort) : (s.setLeaf l p).straps = s.straps := rfl
@[simp] theorem setLeaf_time (s : State) (l : Nat) (p : LeafPort) : (s.setLeaf l p).time = s.time := rfl
@[simp] theorem setLeaf_refLost (s : State) (l : Nat) (p : LeafPort) : (s.setLeaf l p).refLost = s.refLost := rfl
@[simp] theorem setLeaf_paceLocked (s : State) (l : Nat) (p : LeafPort) : (s.setLeaf l p).paceLocked = s.paceLocked := rfl
@[simp] theorem setLeaf_paceMode (s : State) (l : Nat) (p : LeafPort) : (s.setLeaf l p).paceMode = s.paceMode := rfl
@[simp] theorem setLeaf_releaseTarget (s : State) (l : Nat) (p : LeafPort) : (s.setLeaf l p).releaseTarget = s.releaseTarget := rfl
@[simp] theorem setLeaf_ctl (s : State) (l : Nat) (p : LeafPort) : (s.setLeaf l p).ctl = s.ctl := rfl
@[simp] theorem setLeaf_cfg (s : State) (l : Nat) (p : LeafPort) : (s.setLeaf l p).cfg = s.cfg := rfl
@[simp] theorem setLeaf_leaves (s : State) (l : Nat) (p : LeafPort) : (s.setLeaf l p).leaves = tset {} s.leaves l p := rfl
@[simp] theorem setLeaf_links (s : State) (l : Nat) (p : LeafPort) : (s.setLeaf l p).links = s.links := rfl
@[simp] theorem setLeaf_nodes (s : State) (l : Nat) (p : LeafPort) : (s.setLeaf l p).nodes = s.nodes := rfl
@[simp] theorem setLeaf_ctls (s : State) (l : Nat) (p : LeafPort) : (s.setLeaf l p).ctls = s.ctls := rfl
@[simp] theorem setLeaf_kiln (s : State) (l : Nat) (p : LeafPort) : (s.setLeaf l p).kiln = s.kiln := rfl
@[simp] theorem setLeaf_dies (s : State) (l : Nat) (p : LeafPort) : (s.setLeaf l p).dies = s.dies := rfl
@[simp] theorem setLeaf_ports (s : State) (l : Nat) (p : LeafPort) : (s.setLeaf l p).ports = s.ports := rfl
@[simp] theorem setLeaf_faultLog (s : State) (l : Nat) (p : LeafPort) : (s.setLeaf l p).faultLog = s.faultLog := rfl
@[simp] theorem setLeaf_smb (s : State) (l : Nat) (p : LeafPort) : (s.setLeaf l p).smb = s.smb := rfl
@[simp] theorem setLeaf_test (s : State) (l : Nat) (p : LeafPort) : (s.setLeaf l p).test = s.test := rfl
@[simp] theorem setLeaf_trace (s : State) (l : Nat) (p : LeafPort) : (s.setLeaf l p).trace = s.trace := rfl
@[simp] theorem setLeaf_gw (s : State) (l : Nat) (p : LeafPort) : (s.setLeaf l p).gw = s.gw := rfl
@[simp] theorem setLeaf_dep (s : State) (l : Nat) (p : LeafPort) : (s.setLeaf l p).dep = s.dep := rfl
@[simp] theorem setLeaf_counters (s : State) (l : Nat) (p : LeafPort) : (s.setLeaf l p).counters = s.counters := rfl

/-! ### State.setLink -/

@[simp] theorem setLink_pending (s : State) (k : Nat) (x : Link) : (s.setLink k x).pending = s.pending := rfl
@[simp] theorem setLink_tick (s : State) (k : Nat) (x : Link) : (s.setLink k x).tick = s.tick := rfl
@[simp] theorem setLink_handles (s : State) (k : Nat) (x : Link) : (s.setLink k x).handles = s.handles := rfl
@[simp] theorem setLink_pwrokLow (s : State) (k : Nat) (x : Link) : (s.setLink k x).pwrokLow = s.pwrokLow := rfl
@[simp] theorem setLink_rstLow (s : State) (k : Nat) (x : Link) : (s.setLink k x).rstLow = s.rstLow := rfl
@[simp] theorem setLink_cxReset (s : State) (k : Nat) (x : Link) : (s.setLink k x).cxReset = s.cxReset := rfl
@[simp] theorem setLink_straps (s : State) (k : Nat) (x : Link) : (s.setLink k x).straps = s.straps := rfl
@[simp] theorem setLink_time (s : State) (k : Nat) (x : Link) : (s.setLink k x).time = s.time := rfl
@[simp] theorem setLink_refLost (s : State) (k : Nat) (x : Link) : (s.setLink k x).refLost = s.refLost := rfl
@[simp] theorem setLink_paceLocked (s : State) (k : Nat) (x : Link) : (s.setLink k x).paceLocked = s.paceLocked := rfl
@[simp] theorem setLink_paceMode (s : State) (k : Nat) (x : Link) : (s.setLink k x).paceMode = s.paceMode := rfl
@[simp] theorem setLink_releaseTarget (s : State) (k : Nat) (x : Link) : (s.setLink k x).releaseTarget = s.releaseTarget := rfl
@[simp] theorem setLink_ctl (s : State) (k : Nat) (x : Link) : (s.setLink k x).ctl = s.ctl := rfl
@[simp] theorem setLink_cfg (s : State) (k : Nat) (x : Link) : (s.setLink k x).cfg = s.cfg := rfl
@[simp] theorem setLink_leaves (s : State) (k : Nat) (x : Link) : (s.setLink k x).leaves = s.leaves := rfl
@[simp] theorem setLink_links (s : State) (k : Nat) (x : Link) : (s.setLink k x).links = tset {} s.links k x := rfl
@[simp] theorem setLink_nodes (s : State) (k : Nat) (x : Link) : (s.setLink k x).nodes = s.nodes := rfl
@[simp] theorem setLink_ctls (s : State) (k : Nat) (x : Link) : (s.setLink k x).ctls = s.ctls := rfl
@[simp] theorem setLink_kiln (s : State) (k : Nat) (x : Link) : (s.setLink k x).kiln = s.kiln := rfl
@[simp] theorem setLink_dies (s : State) (k : Nat) (x : Link) : (s.setLink k x).dies = s.dies := rfl
@[simp] theorem setLink_ports (s : State) (k : Nat) (x : Link) : (s.setLink k x).ports = s.ports := rfl
@[simp] theorem setLink_faultLog (s : State) (k : Nat) (x : Link) : (s.setLink k x).faultLog = s.faultLog := rfl
@[simp] theorem setLink_smb (s : State) (k : Nat) (x : Link) : (s.setLink k x).smb = s.smb := rfl
@[simp] theorem setLink_test (s : State) (k : Nat) (x : Link) : (s.setLink k x).test = s.test := rfl
@[simp] theorem setLink_trace (s : State) (k : Nat) (x : Link) : (s.setLink k x).trace = s.trace := rfl
@[simp] theorem setLink_gw (s : State) (k : Nat) (x : Link) : (s.setLink k x).gw = s.gw := rfl
@[simp] theorem setLink_dep (s : State) (k : Nat) (x : Link) : (s.setLink k x).dep = s.dep := rfl
@[simp] theorem setLink_counters (s : State) (k : Nat) (x : Link) : (s.setLink k x).counters = s.counters := rfl

/-! ### State.setNode -/

@[simp] theorem setNode_pending (s : State) (k : Nat) (x : Node) : (s.setNode k x).pending = s.pending := rfl
@[simp] theorem setNode_tick (s : State) (k : Nat) (x : Node) : (s.setNode k x).tick = s.tick := rfl
@[simp] theorem setNode_handles (s : State) (k : Nat) (x : Node) : (s.setNode k x).handles = s.handles := rfl
@[simp] theorem setNode_pwrokLow (s : State) (k : Nat) (x : Node) : (s.setNode k x).pwrokLow = s.pwrokLow := rfl
@[simp] theorem setNode_rstLow (s : State) (k : Nat) (x : Node) : (s.setNode k x).rstLow = s.rstLow := rfl
@[simp] theorem setNode_cxReset (s : State) (k : Nat) (x : Node) : (s.setNode k x).cxReset = s.cxReset := rfl
@[simp] theorem setNode_straps (s : State) (k : Nat) (x : Node) : (s.setNode k x).straps = s.straps := rfl
@[simp] theorem setNode_time (s : State) (k : Nat) (x : Node) : (s.setNode k x).time = s.time := rfl
@[simp] theorem setNode_refLost (s : State) (k : Nat) (x : Node) : (s.setNode k x).refLost = s.refLost := rfl
@[simp] theorem setNode_paceLocked (s : State) (k : Nat) (x : Node) : (s.setNode k x).paceLocked = s.paceLocked := rfl
@[simp] theorem setNode_paceMode (s : State) (k : Nat) (x : Node) : (s.setNode k x).paceMode = s.paceMode := rfl
@[simp] theorem setNode_releaseTarget (s : State) (k : Nat) (x : Node) : (s.setNode k x).releaseTarget = s.releaseTarget := rfl
@[simp] theorem setNode_ctl (s : State) (k : Nat) (x : Node) : (s.setNode k x).ctl = s.ctl := rfl
@[simp] theorem setNode_cfg (s : State) (k : Nat) (x : Node) : (s.setNode k x).cfg = s.cfg := rfl
@[simp] theorem setNode_leaves (s : State) (k : Nat) (x : Node) : (s.setNode k x).leaves = s.leaves := rfl
@[simp] theorem setNode_links (s : State) (k : Nat) (x : Node) : (s.setNode k x).links = s.links := rfl
@[simp] theorem setNode_nodes (s : State) (k : Nat) (x : Node) : (s.setNode k x).nodes = tset {} s.nodes k x := rfl
@[simp] theorem setNode_ctls (s : State) (k : Nat) (x : Node) : (s.setNode k x).ctls = s.ctls := rfl
@[simp] theorem setNode_kiln (s : State) (k : Nat) (x : Node) : (s.setNode k x).kiln = s.kiln := rfl
@[simp] theorem setNode_dies (s : State) (k : Nat) (x : Node) : (s.setNode k x).dies = s.dies := rfl
@[simp] theorem setNode_ports (s : State) (k : Nat) (x : Node) : (s.setNode k x).ports = s.ports := rfl
@[simp] theorem setNode_faultLog (s : State) (k : Nat) (x : Node) : (s.setNode k x).faultLog = s.faultLog := rfl
@[simp] theorem setNode_smb (s : State) (k : Nat) (x : Node) : (s.setNode k x).smb = s.smb := rfl
@[simp] theorem setNode_test (s : State) (k : Nat) (x : Node) : (s.setNode k x).test = s.test := rfl
@[simp] theorem setNode_trace (s : State) (k : Nat) (x : Node) : (s.setNode k x).trace = s.trace := rfl
@[simp] theorem setNode_gw (s : State) (k : Nat) (x : Node) : (s.setNode k x).gw = s.gw := rfl
@[simp] theorem setNode_dep (s : State) (k : Nat) (x : Node) : (s.setNode k x).dep = s.dep := rfl
@[simp] theorem setNode_counters (s : State) (k : Nat) (x : Node) : (s.setNode k x).counters = s.counters := rfl

/-! ### State.setCtl -/

@[simp] theorem setCtl_pending (s : State) (k : Nat) (x : CtlNode) : (s.setCtl k x).pending = s.pending := rfl
@[simp] theorem setCtl_tick (s : State) (k : Nat) (x : CtlNode) : (s.setCtl k x).tick = s.tick := rfl
@[simp] theorem setCtl_handles (s : State) (k : Nat) (x : CtlNode) : (s.setCtl k x).handles = s.handles := rfl
@[simp] theorem setCtl_pwrokLow (s : State) (k : Nat) (x : CtlNode) : (s.setCtl k x).pwrokLow = s.pwrokLow := rfl
@[simp] theorem setCtl_rstLow (s : State) (k : Nat) (x : CtlNode) : (s.setCtl k x).rstLow = s.rstLow := rfl
@[simp] theorem setCtl_cxReset (s : State) (k : Nat) (x : CtlNode) : (s.setCtl k x).cxReset = s.cxReset := rfl
@[simp] theorem setCtl_straps (s : State) (k : Nat) (x : CtlNode) : (s.setCtl k x).straps = s.straps := rfl
@[simp] theorem setCtl_time (s : State) (k : Nat) (x : CtlNode) : (s.setCtl k x).time = s.time := rfl
@[simp] theorem setCtl_refLost (s : State) (k : Nat) (x : CtlNode) : (s.setCtl k x).refLost = s.refLost := rfl
@[simp] theorem setCtl_paceLocked (s : State) (k : Nat) (x : CtlNode) : (s.setCtl k x).paceLocked = s.paceLocked := rfl
@[simp] theorem setCtl_paceMode (s : State) (k : Nat) (x : CtlNode) : (s.setCtl k x).paceMode = s.paceMode := rfl
@[simp] theorem setCtl_releaseTarget (s : State) (k : Nat) (x : CtlNode) : (s.setCtl k x).releaseTarget = s.releaseTarget := rfl
@[simp] theorem setCtl_ctl (s : State) (k : Nat) (x : CtlNode) : (s.setCtl k x).ctl = s.ctl := rfl
@[simp] theorem setCtl_cfg (s : State) (k : Nat) (x : CtlNode) : (s.setCtl k x).cfg = s.cfg := rfl
@[simp] theorem setCtl_leaves (s : State) (k : Nat) (x : CtlNode) : (s.setCtl k x).leaves = s.leaves := rfl
@[simp] theorem setCtl_links (s : State) (k : Nat) (x : CtlNode) : (s.setCtl k x).links = s.links := rfl
@[simp] theorem setCtl_nodes (s : State) (k : Nat) (x : CtlNode) : (s.setCtl k x).nodes = s.nodes := rfl
@[simp] theorem setCtl_ctls (s : State) (k : Nat) (x : CtlNode) : (s.setCtl k x).ctls = tset {} s.ctls k x := rfl
@[simp] theorem setCtl_kiln (s : State) (k : Nat) (x : CtlNode) : (s.setCtl k x).kiln = s.kiln := rfl
@[simp] theorem setCtl_dies (s : State) (k : Nat) (x : CtlNode) : (s.setCtl k x).dies = s.dies := rfl
@[simp] theorem setCtl_ports (s : State) (k : Nat) (x : CtlNode) : (s.setCtl k x).ports = s.ports := rfl
@[simp] theorem setCtl_faultLog (s : State) (k : Nat) (x : CtlNode) : (s.setCtl k x).faultLog = s.faultLog := rfl
@[simp] theorem setCtl_smb (s : State) (k : Nat) (x : CtlNode) : (s.setCtl k x).smb = s.smb := rfl
@[simp] theorem setCtl_test (s : State) (k : Nat) (x : CtlNode) : (s.setCtl k x).test = s.test := rfl
@[simp] theorem setCtl_trace (s : State) (k : Nat) (x : CtlNode) : (s.setCtl k x).trace = s.trace := rfl
@[simp] theorem setCtl_gw (s : State) (k : Nat) (x : CtlNode) : (s.setCtl k x).gw = s.gw := rfl
@[simp] theorem setCtl_dep (s : State) (k : Nat) (x : CtlNode) : (s.setCtl k x).dep = s.dep := rfl
@[simp] theorem setCtl_counters (s : State) (k : Nat) (x : CtlNode) : (s.setCtl k x).counters = s.counters := rfl

/-! ### State.setDie -/

@[simp] theorem setDie_pending (s : State) (d : Nat) (x : Die) : (s.setDie d x).pending = s.pending := rfl
@[simp] theorem setDie_tick (s : State) (d : Nat) (x : Die) : (s.setDie d x).tick = s.tick := rfl
@[simp] theorem setDie_handles (s : State) (d : Nat) (x : Die) : (s.setDie d x).handles = s.handles := rfl
@[simp] theorem setDie_pwrokLow (s : State) (d : Nat) (x : Die) : (s.setDie d x).pwrokLow = s.pwrokLow := rfl
@[simp] theorem setDie_rstLow (s : State) (d : Nat) (x : Die) : (s.setDie d x).rstLow = s.rstLow := rfl
@[simp] theorem setDie_cxReset (s : State) (d : Nat) (x : Die) : (s.setDie d x).cxReset = s.cxReset := rfl
@[simp] theorem setDie_straps (s : State) (d : Nat) (x : Die) : (s.setDie d x).straps = s.straps := rfl
@[simp] theorem setDie_time (s : State) (d : Nat) (x : Die) : (s.setDie d x).time = s.time := rfl
@[simp] theorem setDie_refLost (s : State) (d : Nat) (x : Die) : (s.setDie d x).refLost = s.refLost := rfl
@[simp] theorem setDie_paceLocked (s : State) (d : Nat) (x : Die) : (s.setDie d x).paceLocked = s.paceLocked := rfl
@[simp] theorem setDie_paceMode (s : State) (d : Nat) (x : Die) : (s.setDie d x).paceMode = s.paceMode := rfl
@[simp] theorem setDie_releaseTarget (s : State) (d : Nat) (x : Die) : (s.setDie d x).releaseTarget = s.releaseTarget := rfl
@[simp] theorem setDie_ctl (s : State) (d : Nat) (x : Die) : (s.setDie d x).ctl = s.ctl := rfl
@[simp] theorem setDie_cfg (s : State) (d : Nat) (x : Die) : (s.setDie d x).cfg = s.cfg := rfl
@[simp] theorem setDie_leaves (s : State) (d : Nat) (x : Die) : (s.setDie d x).leaves = s.leaves := rfl
@[simp] theorem setDie_links (s : State) (d : Nat) (x : Die) : (s.setDie d x).links = s.links := rfl
@[simp] theorem setDie_nodes (s : State) (d : Nat) (x : Die) : (s.setDie d x).nodes = s.nodes := rfl
@[simp] theorem setDie_ctls (s : State) (d : Nat) (x : Die) : (s.setDie d x).ctls = s.ctls := rfl
@[simp] theorem setDie_kiln (s : State) (d : Nat) (x : Die) : (s.setDie d x).kiln = s.kiln := rfl
@[simp] theorem setDie_dies (s : State) (d : Nat) (x : Die) : (s.setDie d x).dies = tset {} s.dies d x := rfl
@[simp] theorem setDie_ports (s : State) (d : Nat) (x : Die) : (s.setDie d x).ports = s.ports := rfl
@[simp] theorem setDie_faultLog (s : State) (d : Nat) (x : Die) : (s.setDie d x).faultLog = s.faultLog := rfl
@[simp] theorem setDie_smb (s : State) (d : Nat) (x : Die) : (s.setDie d x).smb = s.smb := rfl
@[simp] theorem setDie_test (s : State) (d : Nat) (x : Die) : (s.setDie d x).test = s.test := rfl
@[simp] theorem setDie_trace (s : State) (d : Nat) (x : Die) : (s.setDie d x).trace = s.trace := rfl
@[simp] theorem setDie_gw (s : State) (d : Nat) (x : Die) : (s.setDie d x).gw = s.gw := rfl
@[simp] theorem setDie_dep (s : State) (d : Nat) (x : Die) : (s.setDie d x).dep = s.dep := rfl
@[simp] theorem setDie_counters (s : State) (d : Nat) (x : Die) : (s.setDie d x).counters = s.counters := rfl

/-! ### State.modKiln -/

@[simp] theorem modKiln_pending (s : State) (f : Kiln → Kiln) : (s.modKiln f).pending = s.pending := rfl
@[simp] theorem modKiln_tick (s : State) (f : Kiln → Kiln) : (s.modKiln f).tick = s.tick := rfl
@[simp] theorem modKiln_handles (s : State) (f : Kiln → Kiln) : (s.modKiln f).handles = s.handles := rfl
@[simp] theorem modKiln_pwrokLow (s : State) (f : Kiln → Kiln) : (s.modKiln f).pwrokLow = s.pwrokLow := rfl
@[simp] theorem modKiln_rstLow (s : State) (f : Kiln → Kiln) : (s.modKiln f).rstLow = s.rstLow := rfl
@[simp] theorem modKiln_cxReset (s : State) (f : Kiln → Kiln) : (s.modKiln f).cxReset = s.cxReset := rfl
@[simp] theorem modKiln_straps (s : State) (f : Kiln → Kiln) : (s.modKiln f).straps = s.straps := rfl
@[simp] theorem modKiln_time (s : State) (f : Kiln → Kiln) : (s.modKiln f).time = s.time := rfl
@[simp] theorem modKiln_refLost (s : State) (f : Kiln → Kiln) : (s.modKiln f).refLost = s.refLost := rfl
@[simp] theorem modKiln_paceLocked (s : State) (f : Kiln → Kiln) : (s.modKiln f).paceLocked = s.paceLocked := rfl
@[simp] theorem modKiln_paceMode (s : State) (f : Kiln → Kiln) : (s.modKiln f).paceMode = s.paceMode := rfl
@[simp] theorem modKiln_releaseTarget (s : State) (f : Kiln → Kiln) : (s.modKiln f).releaseTarget = s.releaseTarget := rfl
@[simp] theorem modKiln_ctl (s : State) (f : Kiln → Kiln) : (s.modKiln f).ctl = s.ctl := rfl
@[simp] theorem modKiln_cfg (s : State) (f : Kiln → Kiln) : (s.modKiln f).cfg = s.cfg := rfl
@[simp] theorem modKiln_leaves (s : State) (f : Kiln → Kiln) : (s.modKiln f).leaves = s.leaves := rfl
@[simp] theorem modKiln_links (s : State) (f : Kiln → Kiln) : (s.modKiln f).links = s.links := rfl
@[simp] theorem modKiln_nodes (s : State) (f : Kiln → Kiln) : (s.modKiln f).nodes = s.nodes := rfl
@[simp] theorem modKiln_ctls (s : State) (f : Kiln → Kiln) : (s.modKiln f).ctls = s.ctls := rfl
@[simp] theorem modKiln_kiln (s : State) (f : Kiln → Kiln) : (s.modKiln f).kiln = f s.kiln := rfl
@[simp] theorem modKiln_dies (s : State) (f : Kiln → Kiln) : (s.modKiln f).dies = s.dies := rfl
@[simp] theorem modKiln_ports (s : State) (f : Kiln → Kiln) : (s.modKiln f).ports = s.ports := rfl
@[simp] theorem modKiln_faultLog (s : State) (f : Kiln → Kiln) : (s.modKiln f).faultLog = s.faultLog := rfl
@[simp] theorem modKiln_smb (s : State) (f : Kiln → Kiln) : (s.modKiln f).smb = s.smb := rfl
@[simp] theorem modKiln_test (s : State) (f : Kiln → Kiln) : (s.modKiln f).test = s.test := rfl
@[simp] theorem modKiln_trace (s : State) (f : Kiln → Kiln) : (s.modKiln f).trace = s.trace := rfl
@[simp] theorem modKiln_gw (s : State) (f : Kiln → Kiln) : (s.modKiln f).gw = s.gw := rfl
@[simp] theorem modKiln_dep (s : State) (f : Kiln → Kiln) : (s.modKiln f).dep = s.dep := rfl
@[simp] theorem modKiln_counters (s : State) (f : Kiln → Kiln) : (s.modKiln f).counters = s.counters := rfl

/-! ### State.modCtlr -/

@[simp] theorem modCtlr_pending (s : State) (f : Controller → Controller) : (s.modCtlr f).pending = s.pending := rfl
@[simp] theorem modCtlr_tick (s : State) (f : Controller → Controller) : (s.modCtlr f).tick = s.tick := rfl
@[simp] theorem modCtlr_handles (s : State) (f : Controller → Controller) : (s.modCtlr f).handles = s.handles := rfl
@[simp] theorem modCtlr_pwrokLow (s : State) (f : Controller → Controller) : (s.modCtlr f).pwrokLow = s.pwrokLow := rfl
@[simp] theorem modCtlr_rstLow (s : State) (f : Controller → Controller) : (s.modCtlr f).rstLow = s.rstLow := rfl
@[simp] theorem modCtlr_cxReset (s : State) (f : Controller → Controller) : (s.modCtlr f).cxReset = s.cxReset := rfl
@[simp] theorem modCtlr_straps (s : State) (f : Controller → Controller) : (s.modCtlr f).straps = s.straps := rfl
@[simp] theorem modCtlr_time (s : State) (f : Controller → Controller) : (s.modCtlr f).time = s.time := rfl
@[simp] theorem modCtlr_refLost (s : State) (f : Controller → Controller) : (s.modCtlr f).refLost = s.refLost := rfl
@[simp] theorem modCtlr_paceLocked (s : State) (f : Controller → Controller) : (s.modCtlr f).paceLocked = s.paceLocked := rfl
@[simp] theorem modCtlr_paceMode (s : State) (f : Controller → Controller) : (s.modCtlr f).paceMode = s.paceMode := rfl
@[simp] theorem modCtlr_releaseTarget (s : State) (f : Controller → Controller) : (s.modCtlr f).releaseTarget = s.releaseTarget := rfl
@[simp] theorem modCtlr_ctl (s : State) (f : Controller → Controller) : (s.modCtlr f).ctl = f s.ctl := rfl
@[simp] theorem modCtlr_cfg (s : State) (f : Controller → Controller) : (s.modCtlr f).cfg = s.cfg := rfl
@[simp] theorem modCtlr_leaves (s : State) (f : Controller → Controller) : (s.modCtlr f).leaves = s.leaves := rfl
@[simp] theorem modCtlr_links (s : State) (f : Controller → Controller) : (s.modCtlr f).links = s.links := rfl
@[simp] theorem modCtlr_nodes (s : State) (f : Controller → Controller) : (s.modCtlr f).nodes = s.nodes := rfl
@[simp] theorem modCtlr_ctls (s : State) (f : Controller → Controller) : (s.modCtlr f).ctls = s.ctls := rfl
@[simp] theorem modCtlr_kiln (s : State) (f : Controller → Controller) : (s.modCtlr f).kiln = s.kiln := rfl
@[simp] theorem modCtlr_dies (s : State) (f : Controller → Controller) : (s.modCtlr f).dies = s.dies := rfl
@[simp] theorem modCtlr_ports (s : State) (f : Controller → Controller) : (s.modCtlr f).ports = s.ports := rfl
@[simp] theorem modCtlr_faultLog (s : State) (f : Controller → Controller) : (s.modCtlr f).faultLog = s.faultLog := rfl
@[simp] theorem modCtlr_smb (s : State) (f : Controller → Controller) : (s.modCtlr f).smb = s.smb := rfl
@[simp] theorem modCtlr_test (s : State) (f : Controller → Controller) : (s.modCtlr f).test = s.test := rfl
@[simp] theorem modCtlr_trace (s : State) (f : Controller → Controller) : (s.modCtlr f).trace = s.trace := rfl
@[simp] theorem modCtlr_gw (s : State) (f : Controller → Controller) : (s.modCtlr f).gw = s.gw := rfl
@[simp] theorem modCtlr_dep (s : State) (f : Controller → Controller) : (s.modCtlr f).dep = s.dep := rfl
@[simp] theorem modCtlr_counters (s : State) (f : Controller → Controller) : (s.modCtlr f).counters = s.counters := rfl

/-! ### State.modCfg -/

@[simp] theorem modCfg_pending (s : State) (f : Config → Config) : (s.modCfg f).pending = s.pending := rfl
@[simp] theorem modCfg_tick (s : State) (f : Config → Config) : (s.modCfg f).tick = s.tick := rfl
@[simp] theorem modCfg_handles (s : State) (f : Config → Config) : (s.modCfg f).handles = s.handles := rfl
@[simp] theorem modCfg_pwrokLow (s : State) (f : Config → Config) : (s.modCfg f).pwrokLow = s.pwrokLow := rfl
@[simp] theorem modCfg_rstLow (s : State) (f : Config → Config) : (s.modCfg f).rstLow = s.rstLow := rfl
@[simp] theorem modCfg_cxReset (s : State) (f : Config → Config) : (s.modCfg f).cxReset = s.cxReset := rfl
@[simp] theorem modCfg_straps (s : State) (f : Config → Config) : (s.modCfg f).straps = s.straps := rfl
@[simp] theorem modCfg_time (s : State) (f : Config → Config) : (s.modCfg f).time = s.time := rfl
@[simp] theorem modCfg_refLost (s : State) (f : Config → Config) : (s.modCfg f).refLost = s.refLost := rfl
@[simp] theorem modCfg_paceLocked (s : State) (f : Config → Config) : (s.modCfg f).paceLocked = s.paceLocked := rfl
@[simp] theorem modCfg_paceMode (s : State) (f : Config → Config) : (s.modCfg f).paceMode = s.paceMode := rfl
@[simp] theorem modCfg_releaseTarget (s : State) (f : Config → Config) : (s.modCfg f).releaseTarget = s.releaseTarget := rfl
@[simp] theorem modCfg_ctl (s : State) (f : Config → Config) : (s.modCfg f).ctl = s.ctl := rfl
@[simp] theorem modCfg_cfg (s : State) (f : Config → Config) : (s.modCfg f).cfg = f s.cfg := rfl
@[simp] theorem modCfg_leaves (s : State) (f : Config → Config) : (s.modCfg f).leaves = s.leaves := rfl
@[simp] theorem modCfg_links (s : State) (f : Config → Config) : (s.modCfg f).links = s.links := rfl
@[simp] theorem modCfg_nodes (s : State) (f : Config → Config) : (s.modCfg f).nodes = s.nodes := rfl
@[simp] theorem modCfg_ctls (s : State) (f : Config → Config) : (s.modCfg f).ctls = s.ctls := rfl
@[simp] theorem modCfg_kiln (s : State) (f : Config → Config) : (s.modCfg f).kiln = s.kiln := rfl
@[simp] theorem modCfg_dies (s : State) (f : Config → Config) : (s.modCfg f).dies = s.dies := rfl
@[simp] theorem modCfg_ports (s : State) (f : Config → Config) : (s.modCfg f).ports = s.ports := rfl
@[simp] theorem modCfg_faultLog (s : State) (f : Config → Config) : (s.modCfg f).faultLog = s.faultLog := rfl
@[simp] theorem modCfg_smb (s : State) (f : Config → Config) : (s.modCfg f).smb = s.smb := rfl
@[simp] theorem modCfg_test (s : State) (f : Config → Config) : (s.modCfg f).test = s.test := rfl
@[simp] theorem modCfg_trace (s : State) (f : Config → Config) : (s.modCfg f).trace = s.trace := rfl
@[simp] theorem modCfg_gw (s : State) (f : Config → Config) : (s.modCfg f).gw = s.gw := rfl
@[simp] theorem modCfg_dep (s : State) (f : Config → Config) : (s.modCfg f).dep = s.dep := rfl
@[simp] theorem modCfg_counters (s : State) (f : Config → Config) : (s.modCfg f).counters = s.counters := rfl

/-! ### State.tock -/

@[simp] theorem tock_pending (s : State) : (s.tock).pending = s.pending := rfl
@[simp] theorem tock_tick (s : State) : (s.tock).tick = s.tick + 1 := rfl
@[simp] theorem tock_handles (s : State) : (s.tock).handles = s.handles := rfl
@[simp] theorem tock_pwrokLow (s : State) : (s.tock).pwrokLow = s.pwrokLow := rfl
@[simp] theorem tock_rstLow (s : State) : (s.tock).rstLow = s.rstLow := rfl
@[simp] theorem tock_cxReset (s : State) : (s.tock).cxReset = s.cxReset := rfl
@[simp] theorem tock_straps (s : State) : (s.tock).straps = s.straps := rfl
@[simp] theorem tock_time (s : State) : (s.tock).time = s.time := rfl
@[simp] theorem tock_refLost (s : State) : (s.tock).refLost = s.refLost := rfl
@[simp] theorem tock_paceLocked (s : State) : (s.tock).paceLocked = s.paceLocked := rfl
@[simp] theorem tock_paceMode (s : State) : (s.tock).paceMode = s.paceMode := rfl
@[simp] theorem tock_releaseTarget (s : State) : (s.tock).releaseTarget = s.releaseTarget := rfl
@[simp] theorem tock_ctl (s : State) : (s.tock).ctl = s.ctl := rfl
@[simp] theorem tock_cfg (s : State) : (s.tock).cfg = s.cfg := rfl
@[simp] theorem tock_leaves (s : State) : (s.tock).leaves = s.leaves := rfl
@[simp] theorem tock_links (s : State) : (s.tock).links = s.links := rfl
@[simp] theorem tock_nodes (s : State) : (s.tock).nodes = s.nodes := rfl
@[simp] theorem tock_ctls (s : State) : (s.tock).ctls = s.ctls := rfl
@[simp] theorem tock_kiln (s : State) : (s.tock).kiln = s.kiln := rfl
@[simp] theorem tock_dies (s : State) : (s.tock).dies = s.dies := rfl
@[simp] theorem tock_ports (s : State) : (s.tock).ports = s.ports := rfl
@[simp] theorem tock_faultLog (s : State) : (s.tock).faultLog = s.faultLog := rfl
@[simp] theorem tock_smb (s : State) : (s.tock).smb = s.smb := rfl
@[simp] theorem tock_test (s : State) : (s.tock).test = s.test := rfl
@[simp] theorem tock_trace (s : State) : (s.tock).trace = s.trace := rfl
@[simp] theorem tock_gw (s : State) : (s.tock).gw = s.gw := rfl
@[simp] theorem tock_dep (s : State) : (s.tock).dep = s.dep := rfl
@[simp] theorem tock_counters (s : State) : (s.tock).counters = s.counters := rfl

/-! ### State.bump -/

@[simp] theorem bump_pending (s : State) (c : Nat) : (s.bump c).pending = s.pending := rfl
@[simp] theorem bump_tick (s : State) (c : Nat) : (s.bump c).tick = s.tick := rfl
@[simp] theorem bump_handles (s : State) (c : Nat) : (s.bump c).handles = s.handles := rfl
@[simp] theorem bump_pwrokLow (s : State) (c : Nat) : (s.bump c).pwrokLow = s.pwrokLow := rfl
@[simp] theorem bump_rstLow (s : State) (c : Nat) : (s.bump c).rstLow = s.rstLow := rfl
@[simp] theorem bump_cxReset (s : State) (c : Nat) : (s.bump c).cxReset = s.cxReset := rfl
@[simp] theorem bump_straps (s : State) (c : Nat) : (s.bump c).straps = s.straps := rfl
@[simp] theorem bump_time (s : State) (c : Nat) : (s.bump c).time = s.time := rfl
@[simp] theorem bump_refLost (s : State) (c : Nat) : (s.bump c).refLost = s.refLost := rfl
@[simp] theorem bump_paceLocked (s : State) (c : Nat) : (s.bump c).paceLocked = s.paceLocked := rfl
@[simp] theorem bump_paceMode (s : State) (c : Nat) : (s.bump c).paceMode = s.paceMode := rfl
@[simp] theorem bump_releaseTarget (s : State) (c : Nat) : (s.bump c).releaseTarget = s.releaseTarget := rfl
@[simp] theorem bump_ctl (s : State) (c : Nat) : (s.bump c).ctl = s.ctl := rfl
@[simp] theorem bump_cfg (s : State) (c : Nat) : (s.bump c).cfg = s.cfg := rfl
@[simp] theorem bump_leaves (s : State) (c : Nat) : (s.bump c).leaves = s.leaves := rfl
@[simp] theorem bump_links (s : State) (c : Nat) : (s.bump c).links = s.links := rfl
@[simp] theorem bump_nodes (s : State) (c : Nat) : (s.bump c).nodes = s.nodes := rfl
@[simp] theorem bump_ctls (s : State) (c : Nat) : (s.bump c).ctls = s.ctls := rfl
@[simp] theorem bump_kiln (s : State) (c : Nat) : (s.bump c).kiln = s.kiln := rfl
@[simp] theorem bump_dies (s : State) (c : Nat) : (s.bump c).dies = s.dies := rfl
@[simp] theorem bump_ports (s : State) (c : Nat) : (s.bump c).ports = s.ports := rfl
@[simp] theorem bump_faultLog (s : State) (c : Nat) : (s.bump c).faultLog = s.faultLog := rfl
@[simp] theorem bump_smb (s : State) (c : Nat) : (s.bump c).smb = s.smb := rfl
@[simp] theorem bump_test (s : State) (c : Nat) : (s.bump c).test = s.test := rfl
@[simp] theorem bump_trace (s : State) (c : Nat) : (s.bump c).trace = s.trace := rfl
@[simp] theorem bump_gw (s : State) (c : Nat) : (s.bump c).gw = s.gw := rfl
@[simp] theorem bump_dep (s : State) (c : Nat) : (s.bump c).dep = s.dep := rfl
@[simp] theorem bump_counters (s : State) (c : Nat) : (s.bump c).counters = tset 0 s.counters c (satInc (tget 0 s.counters c)) := rfl

/-! ### The updates by a function -/

@[simp] theorem modLeaf_eq (s : State) (l : Nat) (f : LeafPort → LeafPort) : s.modLeaf l f = s.setLeaf l (f (s.leaf l)) := rfl
@[simp] theorem modLink_eq (s : State) (k : Nat) (f : Link → Link) : s.modLink k f = s.setLink k (f (s.link k)) := rfl
@[simp] theorem modNode_eq (s : State) (k : Nat) (f : Node → Node) : s.modNode k f = s.setNode k (f (s.node k)) := rfl
@[simp] theorem modCtl_eq (s : State) (k : Nat) (f : CtlNode → CtlNode) : s.modCtl k f = s.setCtl k (f (s.ctlNode k)) := rfl
@[simp] theorem modDie_eq (s : State) (d : Nat) (f : Die → Die) : s.modDie d f = s.setDie d (f (s.die d)) := rfl
@[simp] theorem modPort_eq (s : State) (p : Nat) (f : Port → Port) : s.modPort p f = s.setPort p (f (s.port p)) := rfl

/-! ### Reading a unit after writing it -/

theorem leaf_setLeaf {s : State} (h : tableWf {} s.leaves = true) (l : Nat) (p : LeafPort) : (s.setLeaf l p).leaf l = p :=
  tget_tset_self h l p
theorem leaf_setLeaf_ne (s : State) {l k : Nat} (p : LeafPort) (h : k ≠ l) : (s.setLeaf l p).leaf k = s.leaf k :=
  tget_tset_ne _ _ p h
theorem link_setLink {s : State} (h : tableWf {} s.links = true) (k : Nat) (x : Link) : (s.setLink k x).link k = x :=
  tget_tset_self h k x
theorem link_setLink_ne (s : State) {k j : Nat} (x : Link) (h : j ≠ k) : (s.setLink k x).link j = s.link j :=
  tget_tset_ne _ _ x h
theorem node_setNode {s : State} (h : tableWf {} s.nodes = true) (k : Nat) (x : Node) : (s.setNode k x).node k = x :=
  tget_tset_self h k x
theorem node_setNode_ne (s : State) {k j : Nat} (x : Node) (h : j ≠ k) : (s.setNode k x).node j = s.node j :=
  tget_tset_ne _ _ x h
theorem ctl_setCtl {s : State} (h : tableWf {} s.ctls = true) (k : Nat) (x : CtlNode) : (s.setCtl k x).ctlNode k = x :=
  tget_tset_self h k x
theorem ctl_setCtl_ne (s : State) {k j : Nat} (x : CtlNode) (h : j ≠ k) : (s.setCtl k x).ctlNode j = s.ctlNode j :=
  tget_tset_ne _ _ x h
theorem die_setDie {s : State} (h : tableWf {} s.dies = true) (d : Nat) (x : Die) : (s.setDie d x).die d = x :=
  tget_tset_self h d x
theorem die_setDie_ne (s : State) {d e : Nat} (x : Die) (h : e ≠ d) : (s.setDie d x).die e = s.die e :=
  tget_tset_ne _ _ x h
theorem port_setPort {s : State} (h : tableWf {} s.ports = true) (p : Nat) (x : Port) : (s.setPort p x).port p = x := by
  unfold State.setPort State.port
  dsimp only
  split <;> exact tget_tset_self h p x
theorem port_setPort_ne (s : State) {p q : Nat} (x : Port) (h : q ≠ p) : (s.setPort p x).port q = s.port q := by
  unfold State.setPort State.port
  dsimp only
  split <;> exact tget_tset_ne _ _ x h

/-- Writing a port changes that port and, for port 16, what Host Notify does. -/
theorem setPort_eq (s : State) (p : Nat) (x : Port) :
    s.setPort p x = { s with ports := tset {} s.ports p x, smb := (s.setPort p x).smb } := by
  unfold State.setPort
  dsimp only
  split <;> rfl

/-- Only port 16 reaches the SMBus. -/
theorem setPort_smb (s : State) {p : Nat} (x : Port) (h : p ≠ 16) : (s.setPort p x).smb = s.smb := by
  unfold State.setPort
  have : (p == 16) = false := by simpa using h
  simp [this]

@[simp] theorem setPort_ports (s : State) (p : Nat) (x : Port) : (s.setPort p x).ports = tset {} s.ports p x := by
  rw [setPort_eq]

@[simp] theorem setPort_pending (s : State) (p : Nat) (x : Port) : (s.setPort p x).pending = s.pending := by rw [setPort_eq]
@[simp] theorem setPort_tick (s : State) (p : Nat) (x : Port) : (s.setPort p x).tick = s.tick := by rw [setPort_eq]
@[simp] theorem setPort_handles (s : State) (p : Nat) (x : Port) : (s.setPort p x).handles = s.handles := by rw [setPort_eq]
@[simp] theorem setPort_pwrokLow (s : State) (p : Nat) (x : Port) : (s.setPort p x).pwrokLow = s.pwrokLow := by rw [setPort_eq]
@[simp] theorem setPort_rstLow (s : State) (p : Nat) (x : Port) : (s.setPort p x).rstLow = s.rstLow := by rw [setPort_eq]
@[simp] theorem setPort_cxReset (s : State) (p : Nat) (x : Port) : (s.setPort p x).cxReset = s.cxReset := by rw [setPort_eq]
@[simp] theorem setPort_straps (s : State) (p : Nat) (x : Port) : (s.setPort p x).straps = s.straps := by rw [setPort_eq]
@[simp] theorem setPort_time (s : State) (p : Nat) (x : Port) : (s.setPort p x).time = s.time := by rw [setPort_eq]
@[simp] theorem setPort_refLost (s : State) (p : Nat) (x : Port) : (s.setPort p x).refLost = s.refLost := by rw [setPort_eq]
@[simp] theorem setPort_paceLocked (s : State) (p : Nat) (x : Port) : (s.setPort p x).paceLocked = s.paceLocked := by rw [setPort_eq]
@[simp] theorem setPort_paceMode (s : State) (p : Nat) (x : Port) : (s.setPort p x).paceMode = s.paceMode := by rw [setPort_eq]
@[simp] theorem setPort_releaseTarget (s : State) (p : Nat) (x : Port) : (s.setPort p x).releaseTarget = s.releaseTarget := by rw [setPort_eq]
@[simp] theorem setPort_ctl (s : State) (p : Nat) (x : Port) : (s.setPort p x).ctl = s.ctl := by rw [setPort_eq]
@[simp] theorem setPort_cfg (s : State) (p : Nat) (x : Port) : (s.setPort p x).cfg = s.cfg := by rw [setPort_eq]
@[simp] theorem setPort_leaves (s : State) (p : Nat) (x : Port) : (s.setPort p x).leaves = s.leaves := by rw [setPort_eq]
@[simp] theorem setPort_links (s : State) (p : Nat) (x : Port) : (s.setPort p x).links = s.links := by rw [setPort_eq]
@[simp] theorem setPort_nodes (s : State) (p : Nat) (x : Port) : (s.setPort p x).nodes = s.nodes := by rw [setPort_eq]
@[simp] theorem setPort_ctls (s : State) (p : Nat) (x : Port) : (s.setPort p x).ctls = s.ctls := by rw [setPort_eq]
@[simp] theorem setPort_kiln (s : State) (p : Nat) (x : Port) : (s.setPort p x).kiln = s.kiln := by rw [setPort_eq]
@[simp] theorem setPort_dies (s : State) (p : Nat) (x : Port) : (s.setPort p x).dies = s.dies := by rw [setPort_eq]
@[simp] theorem setPort_faultLog (s : State) (p : Nat) (x : Port) : (s.setPort p x).faultLog = s.faultLog := by rw [setPort_eq]
@[simp] theorem setPort_test (s : State) (p : Nat) (x : Port) : (s.setPort p x).test = s.test := by rw [setPort_eq]
@[simp] theorem setPort_trace (s : State) (p : Nat) (x : Port) : (s.setPort p x).trace = s.trace := by rw [setPort_eq]
@[simp] theorem setPort_gw (s : State) (p : Nat) (x : Port) : (s.setPort p x).gw = s.gw := by rw [setPort_eq]
@[simp] theorem setPort_dep (s : State) (p : Nat) (x : Port) : (s.setPort p x).dep = s.dep := by rw [setPort_eq]
@[simp] theorem setPort_counters (s : State) (p : Nat) (x : Port) : (s.setPort p x).counters = s.counters := by rw [setPort_eq]

end Sys2Proof.Machine
end

