-- ==== Sys2Proof/Laws/Records.lean ====
section
/-! SUPPORT. What forming a record can change: an event, a fault event and a trace record touch the queues of the hosts and of
the trace and nothing else, and the relations that say so compose. -/

namespace Sys2Proof
open Machine

/-! ### The relations compose -/

theorem samePort.refl (p : Port) : samePort p p := rfl
theorem samePort.trans {p q r : Port} (h : samePort p q) (k : samePort q r) : samePort p r := by
  have h' : q = _ := h
  have k' : r = _ := k
  rw [h'] at k'
  exact k'

theorem recordsOnly.refl (s : State) : recordsOnly s s := ⟨rfl, fun h => ⟨h, fun _ => rfl⟩⟩
theorem recordsOnly.trans {s t u : State} (h : recordsOnly s t) (k : recordsOnly t u) : recordsOnly s u := by
  refine ⟨?_, fun w => ?_⟩
  · rw [k.eq, h.eq]
  · exact ⟨(k.ports (h.ports w).1).1, fun p => samePort.trans ((h.ports w).2 p) ((k.ports (h.ports w).1).2 p)⟩

theorem faultsOnly.refl (s : State) : faultsOnly s s := ⟨rfl⟩
theorem faultsOnly.trans {s t u : State} (h : faultsOnly s t) (k : faultsOnly t u) : faultsOnly s u := ⟨by rw [k.eq, h.eq]⟩
theorem recordsOnly.faultsOnly {s t : State} (h : recordsOnly s t) : faultsOnly s t := ⟨by rw [h.eq]⟩

theorem kilnOnly.refl (s : State) : kilnOnly s s := ⟨rfl⟩
theorem kilnOnly.trans {s t u : State} (h : kilnOnly s t) (k : kilnOnly t u) : kilnOnly s u := ⟨by rw [k.eq, h.eq]⟩
theorem faultsOnly.kilnOnly {s t : State} (h : faultsOnly s t) : kilnOnly s t := ⟨by rw [h.eq]⟩
theorem recordsOnly.kilnOnly {s t : State} (h : recordsOnly s t) : kilnOnly s t := h.faultsOnly.kilnOnly

/-- A relation that holds across every step of a fold holds across the fold. -/
theorem foldl_rel {α : Type} {R : State → State → Prop} (refl : ∀ s, R s s) (trans : ∀ {s t u}, R s t → R t u → R s u)
    {f : State → α → State} (step : ∀ s a, R s (f s a)) (xs : List α) : ∀ s, R s (xs.foldl f s) := by
  induction xs with
  | nil => exact refl
  | cons x xs ih => intro s; exact trans (step s x) (ih (f s x))

/-! ### Records -/

theorem samePort_offer (p : Port) (cls : Nat) (body : BitVec 256) : samePort p (p.offer cls body) := by
  unfold Port.offer
  split <;> rfl

/-- Offering a record to one port touches that port's queue, and Host Notify where it is port 16. -/
theorem recordsOnly_modPort (s : State) (p : Nat) (f : Port → Port) (h : ∀ x, samePort x (f x)) :
    recordsOnly s (s.modPort p f) := by
  simp only [modPort_eq]
  refine ⟨by rw [setPort_eq], fun w => ⟨by rw [setPort_ports]; exact tableWf_tset w _ _, fun q => ?_⟩⟩
  by_cases e : q = p
  · subst e
    rw [port_setPort w]
    exact h _
  · rw [port_setPort_ne s _ e]
    rfl

/-- A trace record touches the trace and its drop counter. -/
theorem traceOffer_frame (s : State) (cls : Nat) (body : BitVec 256) (sags : List Nat) :
    s.traceOffer cls body sags = { s with trace := (s.traceOffer cls body sags).trace,
                                          counters := (s.traceOffer cls body sags).counters } := by
  unfold State.traceOffer
  dsimp only
  split_ifs <;> rfl

theorem recordsOnly_traceOffer (s : State) (cls : Nat) (body : BitVec 256) (sags : List Nat) :
    recordsOnly s (s.traceOffer cls body sags) := by
  have e := traceOffer_frame s cls body sags
  refine ⟨?_, fun w => ?_⟩
  · rw [e]
  · rw [e]
    exact ⟨w, fun p => rfl⟩

/-- An event touches records only. -/
theorem recordsOnly_event (s : State) (cls : Nat) (body : BitVec 256) (sags : List Nat) :
    recordsOnly s (s.event cls body sags) := by
  unfold State.event
  refine recordsOnly.trans ?_ (recordsOnly_traceOffer _ _ _ _)
  refine foldl_rel recordsOnly.refl recordsOnly.trans (fun a p => ?_) _ s
  split
  · exact recordsOnly_modPort a p _ (fun x => samePort_offer x cls body)
  · exact recordsOnly.refl a

theorem recordsOnly_timingEvent (s : State) (kind die : Nat) : recordsOnly s (s.timingEvent kind die) := recordsOnly_event ..
theorem recordsOnly_controllerEvent (s : State) (kind cause : Nat) : recordsOnly s (s.controllerEvent kind cause) :=
  recordsOnly_event ..
theorem recordsOnly_maintEvent (s : State) (a : Activity) (o : Nat) : recordsOnly s (s.maintEvent a o) := recordsOnly_event ..
theorem recordsOnly_firingEvent (s : State) (kind fn group sag rank : Nat) (sags : List Nat) :
    recordsOnly s (s.firingEvent kind fn group sag rank sags) := recordsOnly_event ..

/-- A fault event touches the fault log and records only. -/
theorem faultsOnly_fault (s : State) (e : FaultEv) (sags : List Nat) : faultsOnly s (s.fault e sags) := by
  unfold State.fault
  dsimp only
  have h := (recordsOnly_event { s with faultLog := (s.faultLog ++ [e.word s.time]).drop (s.faultLog.length + 1 - 1024) }
    1 (e.word s.time) sags).eq
  exact ⟨by rw [h]⟩

/-- What a fault event leaves in the log: at most 1,024, the newest last. -/
theorem faultLog_fault (s : State) (e : FaultEv) (sags : List Nat) :
    (s.fault e sags).faultLog = (s.faultLog ++ [e.word s.time]).drop (s.faultLog.length + 1 - 1024) := by
  unfold State.fault
  dsimp only
  rw [(recordsOnly_event _ _ _ _).eq]

end Sys2Proof
end

