-- ==== Sys2Proof/Laws/Keeps.lean ====
section
/-! SUPPORT. What each shared operation on the state keeps: the canonical form across every write of a unit, every record, every
change of a firing, and what a record or a change of one unit leaves alone. -/

namespace Sys2Proof
open Machine

/-! ### Writing one unit keeps the canonical form -/

theorem canonical.leafBank {s : State} (h : canonical s) (l : Nat) : tableWf 0 (s.leaf l).scratch = true := h.scratch l

/-- A state with the same banks, configuration, firings, log and trace is as canonical as the first. -/
theorem canonical.congr {s t : State} (h : canonical s) (h1 : t.leaves = s.leaves) (h2 : t.links = s.links) (h3 : t.nodes = s.nodes)
    (h4 : t.ctls = s.ctls) (h5 : t.dies = s.dies) (h6 : t.ports = s.ports) (h7 : t.counters = s.counters)
    (h8 : t.cfg.saggars = s.cfg.saggars) (h9 : t.kiln.firings = s.kiln.firings) (h10 : t.kiln.nextUid = s.kiln.nextUid)
    (h11 : t.faultLog = s.faultLog) (h12 : t.trace.queue = s.trace.queue) : canonical t := by
  constructor
  · rw [h1]; exact h.leaves
  · rw [h2]; exact h.links
  · rw [h3]; exact h.nodes
  · rw [h4]; exact h.ctls
  · rw [h5]; exact h.dies
  · rw [h6]; exact h.ports
  · rw [h7]; exact h.counters
  · rw [h8]; exact h.saggars
  · intro k; have := h.counts k; unfold State.ctlNode at this ⊢; rw [h4]; exact this
  · intro k; have := h.scratch k; unfold State.leaf at this ⊢; rw [h1]; exact this
  · rw [h9, h10]; exact h.fresh
  · rw [h9]; exact h.single
  · rw [h11]; exact h.faultLog
  · rw [h12]; exact h.trace

theorem canonical.setLeaf {s : State} (h : canonical s) (l : Nat) (p : LeafPort) (hp : tableWf 0 p.scratch = true) :
    canonical (s.setLeaf l p) := by
  refine ⟨tableWf_tset h.leaves l p, h.links, h.nodes, h.ctls, h.dies, h.ports, h.counters, h.saggars, h.counts, fun k => ?_,
    h.fresh, h.single, h.faultLog, h.trace⟩
  by_cases e : k = l
  · subst e
    rw [show (s.setLeaf k p).leaf k = p from tget_tset_self h.leaves k p]
    exact hp
  · rw [show (s.setLeaf l p).leaf k = s.leaf k from tget_tset_ne _ s.leaves p e]
    exact h.scratch k

/-- Changing a leaf port keeps the canonical form when the change keeps its scratchpad in form. -/
theorem canonical.modLeaf {s : State} (h : canonical s) (l : Nat) (f : LeafPort → LeafPort)
    (hf : tableWf 0 (f (s.leaf l)).scratch = true) : canonical (s.modLeaf l f) := h.setLeaf l _ hf

/-- Writing bytes to scratchpad keeps its canonical form. -/
theorem scratch_store {p : LeafPort} (h : tableWf 0 p.scratch = true) (a : Nat) (bs : List Byte) :
    tableWf 0 (p.store a bs).scratch = true := tableWf_tsetRun h

theorem canonical.setLink {s : State} (h : canonical s) (k : Nat) (x : Link) : canonical (s.setLink k x) :=
  ⟨h.leaves, tableWf_tset h.links k x, h.nodes, h.ctls, h.dies, h.ports, h.counters, h.saggars, h.counts, h.scratch,
    h.fresh, h.single, h.faultLog, h.trace⟩

theorem canonical.modLink {s : State} (h : canonical s) (k : Nat) (f : Link → Link) : canonical (s.modLink k f) := h.setLink k _

theorem canonical.setNode {s : State} (h : canonical s) (k : Nat) (x : Node) : canonical (s.setNode k x) :=
  ⟨h.leaves, h.links, tableWf_tset h.nodes k x, h.ctls, h.dies, h.ports, h.counters, h.saggars, h.counts, h.scratch,
    h.fresh, h.single, h.faultLog, h.trace⟩

theorem canonical.modNode {s : State} (h : canonical s) (k : Nat) (f : Node → Node) : canonical (s.modNode k f) := h.setNode k _

theorem canonical.setCtl {s : State} (h : canonical s) (k : Nat) (x : CtlNode) (hx : tableWf 0 x.counts = true) :
    canonical (s.setCtl k x) := by
  refine ⟨h.leaves, h.links, h.nodes, tableWf_tset h.ctls k x, h.dies, h.ports, h.counters, h.saggars, fun j => ?_, h.scratch,
    h.fresh, h.single, h.faultLog, h.trace⟩
  by_cases e : j = k
  · subst e
    rw [show (s.setCtl j x).ctlNode j = x from tget_tset_self h.ctls j x]
    exact hx
  · rw [show (s.setCtl k x).ctlNode j = s.ctlNode j from tget_tset_ne _ s.ctls x e]
    exact h.counts j

/-- Changing a control-path node keeps the canonical form when the change keeps its counts in form. -/
theorem canonical.modCtl {s : State} (h : canonical s) (k : Nat) (f : CtlNode → CtlNode)
    (hf : tableWf 0 (f (s.ctlNode k)).counts = true) : canonical (s.modCtl k f) := h.setCtl k _ hf

theorem canonical.setDie {s : State} (h : canonical s) (d : Nat) (x : Die) : canonical (s.setDie d x) :=
  ⟨h.leaves, h.links, h.nodes, h.ctls, tableWf_tset h.dies d x, h.ports, h.counters, h.saggars, h.counts, h.scratch,
    h.fresh, h.single, h.faultLog, h.trace⟩

theorem canonical.modDie {s : State} (h : canonical s) (d : Nat) (f : Die → Die) : canonical (s.modDie d f) := h.setDie d _

theorem canonical.setPort {s : State} (h : canonical s) (p : Nat) (x : Port) : canonical (s.setPort p x) := by
  have e := setPort_eq s p x
  rw [e]
  refine ⟨h.leaves, h.links, h.nodes, h.ctls, h.dies, ?_, h.counters, h.saggars, h.counts, h.scratch,
    h.fresh, h.single, h.faultLog, h.trace⟩
  exact tableWf_tset h.ports p x

theorem canonical.modPort {s : State} (h : canonical s) (p : Nat) (f : Port → Port) : canonical (s.modPort p f) := h.setPort p _

/-- Changing the kiln keeps the canonical form when the change keeps the firings' numbers apart and below the next. -/
theorem canonical.modKiln {s : State} (h : canonical s) (f : Kiln → Kiln) (hf : ∀ x ∈ (f s.kiln).firings, x.uid < (f s.kiln).nextUid)
    (hn : ((f s.kiln).firings.map (·.uid)).Nodup) : canonical (s.modKiln f) :=
  ⟨h.leaves, h.links, h.nodes, h.ctls, h.dies, h.ports, h.counters, h.saggars, h.counts, h.scratch, hf, hn, h.faultLog, h.trace⟩

/-- A change of the kiln that leaves the firings and the next number alone keeps the canonical form. -/
theorem canonical.modKiln_same {s : State} (h : canonical s) (f : Kiln → Kiln) (hf : (f s.kiln).firings = s.kiln.firings)
    (hn : (f s.kiln).nextUid = s.kiln.nextUid) : canonical (s.modKiln f) :=
  h.modKiln f (by rw [hf, hn]; exact h.fresh) (by rw [hf]; exact h.single)

theorem canonical.modCtlr {s : State} (h : canonical s) (f : Controller → Controller) : canonical (s.modCtlr f) :=
  h.congr rfl rfl rfl rfl rfl rfl rfl rfl rfl rfl rfl rfl

/-- Changing the configuration keeps the canonical form when the change keeps the saggars in form. -/
theorem canonical.modCfg {s : State} (h : canonical s) (f : Config → Config) (hf : tableWf {} (f s.cfg).saggars = true) :
    canonical (s.modCfg f) :=
  ⟨h.leaves, h.links, h.nodes, h.ctls, h.dies, h.ports, h.counters, hf, h.counts, h.scratch, h.fresh, h.single, h.faultLog, h.trace⟩

/-- Changing one saggar keeps the table of saggars in form. -/
theorem saggars_modSag {c : Config} (h : tableWf {} c.saggars = true) (k : Nat) (f : Saggar → Saggar) :
    tableWf {} (c.modSag k f).saggars = true := tableWf_tmod h k f

theorem canonical.bump {s : State} (h : canonical s) (code : Nat) : canonical (s.bump code) :=
  ⟨h.leaves, h.links, h.nodes, h.ctls, h.dies, h.ports, tableWf_tset h.counters _ _, h.saggars, h.counts, h.scratch,
    h.fresh, h.single, h.faultLog, h.trace⟩

theorem canonical.bumpBy {s : State} (h : canonical s) (code k : Nat) : canonical (s.bumpBy code k) :=
  ⟨h.leaves, h.links, h.nodes, h.ctls, h.dies, h.ports, tableWf_tset h.counters _ _, h.saggars, h.counts, h.scratch,
    h.fresh, h.single, h.faultLog, h.trace⟩

theorem canonical.tock {s : State} (h : canonical s) : canonical s.tock :=
  h.congr rfl rfl rfl rfl rfl rfl rfl rfl rfl rfl rfl rfl

/-! ### Records keep the canonical form -/

theorem canonical.setQueue {s : State} (h : canonical s) (t : Trace) (ht : t.queue.length ≤ 256) : canonical { s with trace := t } :=
  ⟨h.leaves, h.links, h.nodes, h.ctls, h.dies, h.ports, h.counters, h.saggars, h.counts, h.scratch, h.fresh, h.single, h.faultLog, ht⟩

theorem canonical.setLog {s : State} (h : canonical s) (l : List (BitVec 256)) (hl : l.length ≤ 1024) :
    canonical { s with faultLog := l } :=
  ⟨h.leaves, h.links, h.nodes, h.ctls, h.dies, h.ports, h.counters, h.saggars, h.counts, h.scratch, h.fresh, h.single, hl, h.trace⟩

/-- A trace record keeps the canonical form: the queue never passes 256 (R522). -/
theorem canonical.traceOffer {s : State} (h : canonical s) (cls : Nat) (body : BitVec 256) (sags : List Nat) :
    canonical (s.traceOffer cls body sags) := by
  have k := h.bump 0x0D
  unfold State.traceOffer
  dsimp only
  split_ifs <;> first
    | exact h
    | exact h.setQueue _ (by simp only [List.length_append, List.length_singleton]; omega)
    | exact k.setQueue _ h.trace

theorem canonical.event {s : State} (h : canonical s) (cls : Nat) (body : BitVec 256) (sags : List Nat) :
    canonical (s.event cls body sags) := by
  unfold State.event
  refine canonical.traceOffer ?_ cls body sags
  exact foldl_rel (R := fun a b => canonical a → canonical b) (fun _ x => x) (fun f g x => g (f x))
    (fun a p x => by
      split
      · exact x.modPort p _
      · exact x) _ s h

/-- A fault event keeps the canonical form: the log never passes 1,024 (R419). -/
theorem canonical.fault {s : State} (h : canonical s) (e : FaultEv) (sags : List Nat) : canonical (s.fault e sags) := by
  unfold State.fault
  dsimp only
  refine (h.setLog _ ?_).event 1 _ sags
  have := h.faultLog
  simp only [List.length_drop, List.length_append, List.length_singleton]
  omega

/-! ### Firings -/

/-- What changing the first member with a property leaves: the same members, or the changed one among them. -/
theorem mem_modFirst {α : Type} {p : α → Bool} {f : α → α} {xs : List α} {y : α} (h : y ∈ modFirst p f xs) :
    y ∈ xs ∨ ∃ x ∈ xs, p x = true ∧ y = f x := by
  induction xs with
  | nil => simp [modFirst] at h
  | cons x xs ih =>
    simp only [modFirst] at h
    split at h
    · rename_i hp
      simp only [List.mem_cons] at h ⊢
      rcases h with rfl | h
      · exact Or.inr ⟨x, Or.inl rfl, hp, rfl⟩
      · exact Or.inl (Or.inr h)
    · simp only [List.mem_cons] at h ⊢
      rcases h with rfl | h
      · exact Or.inl (Or.inl rfl)
      · rcases ih h with h | ⟨z, hz, hp, rfl⟩
        · exact Or.inl (Or.inr h)
        · exact Or.inr ⟨z, Or.inr hz, hp, rfl⟩

/-- A change that keeps a reading of every member it is made to keeps the list of the readings. -/
theorem map_modFirst {α β : Type} {p : α → Bool} {f : α → α} {g : α → β} (h : ∀ x, p x = true → g (f x) = g x) (xs : List α) :
    (modFirst p f xs).map g = xs.map g := by
  induction xs with
  | nil => rfl
  | cons x xs ih =>
    simp only [modFirst]
    split
    · rename_i hp
      simp [h x hp]
    · simp [ih]

/-- Changing a firing keeps the canonical form when the change keeps its number. -/
theorem canonical.modFiring {s : State} (h : canonical s) (uid : Nat) (f : Firing → Firing)
    (hf : ∀ x : Firing, x.uid = uid → (f x).uid = uid) : canonical (s.modFiring uid f) := by
  unfold State.modFiring
  refine h.modKiln _ ?_ ?_
  · intro x hx
    rcases mem_modFirst hx with hx | ⟨z, hz, hp, rfl⟩
    · exact h.fresh x hx
    · have e : z.uid = uid := by simpa using hp
      rw [hf z e, ← e]
      exact h.fresh z hz
  · have : (modFirst (fun x : Firing => x.uid == uid) f s.kiln.firings).map (·.uid) = s.kiln.firings.map (·.uid) :=
      map_modFirst (fun x hx => by have e : x.uid = uid := by simpa using hx
                                   rw [hf x e, e]) _
    dsimp only
    rw [this]
    exact h.single

/-- Opening a position keeps the canonical form, and the number it answers is of a firing that is there. -/
theorem canonical.position {s t : State} {g ord uid : Nat} (h : canonical s) (hp : s.position g ord = some (t, uid)) : canonical t := by
  unfold State.position at hp
  split at hp
  · cases hp; exact h
  · split at hp
    · cases hp
    · cases hp
      refine h.modKiln _ ?_ ?_
      · intro x hx
        simp only [List.mem_append, List.mem_singleton] at hx
        rcases hx with hx | rfl
        · exact Nat.lt_succ_of_lt (h.fresh x hx)
        · exact Nat.lt_succ_self _
      · simp only [List.map_append, List.map_cons, List.map_nil]
        refine List.nodup_append.mpr ⟨h.single, by simp, ?_⟩
        intro a ha b hb
        simp only [List.mem_map] at ha
        obtain ⟨x, hx, rfl⟩ := ha
        simp only [List.mem_singleton] at hb
        subst hb
        exact Nat.ne_of_lt (h.fresh x hx)

/-- Dropping firings keeps the canonical form. -/
theorem canonical.filterFirings {s : State} (h : canonical s) (p : Firing → Bool) :
    canonical (s.modKiln (fun k => { k with firings := k.firings.filter p })) :=
  h.modKiln _ (fun x hx => h.fresh x (List.mem_filter.mp hx).1) (h.single.sublist (List.filter_sublist.map _))

end Sys2Proof
end

