-- ==== Sys2Proof/WellFormed.lean ====
section
/-! DEFINITION. Which operands a command can have: the ranges of the indices that the spec fixes. A command outside them names
nothing of the block; its meaning leaves the state as it was (R11, R28). -/

namespace Sys2Proof
open Machine

/-- A leaf index fits its 13-bit field (R27). -/
def leafOk (l : Nat) : Bool := decide (l < 8192)

/-- A die slot (R18). -/
def dieOk (d : Nat) : Bool := decide (d < 32)

/-- A mailbox port, the two logical ports included (R421). -/
def portOk (p : Nat) : Bool := decide (p < 18)

/-- A plane (R37). -/
def planeOk (p : Nat) : Bool := decide (p < 4)

/-- A ring slot: a ring holds at most 256 (R254). -/
def slotOk (s : Nat) : Bool := decide (s < 256)

/-- A setter (R306). -/
def setterOk (s : Nat) : Bool := decide (s < 1024)

/-- A group index of this product (R472). -/
def groupOk (g : Nat) : Bool := decide (g < 65536)

/-- A node index (R446): q at most 544, and no plane bits on the control path. -/
def nodeOk (n : Nat) : Bool := decide (n / 8 < 545) && (decide (n / 4 % 2 = 0) || decide (n % 4 = 0))

/-- A gateway transmit buffer (R535). -/
def bufOk (b : Nat) : Bool := decide (b < 64)

/-- A gateway receive box (R535). -/
def boxOk (x : Nat) : Bool := decide (x < 256)

/-- A segment of a die slice (R490). -/
def segOk (g : Nat) : Bool := decide (g < 640)

/-- The operands of a command lie in their ranges. -/
def wellFormed : Instr → Bool
  | .lpEnable l _ | .lpDisable l _ | .lpReset l _ | .lpResetDone l | .lpDoorbell l _ | .lpCqHeadWrite l _
  | .lpIntStatusClear l _ | .takeDescriptor l _ _ | .sendArm l | .bisqueClear l | .bisqueLoad l _ | .bisqueAddSum l _
  | .bisqueAddSumsq l _ | .bisqueAddDot l _ _ | .bisqueAddSherd l _ | .bisqueStore l _ | .grantReceive l
  | .redealGrantReceive l | .endReceive l | .barrierRelease l _ | .leafFailureRegister l | .leafPortFailureSignal l => leafOk l
  | .lpPush l off _ _ => leafOk l && decide (off < 4096)
  | .tileDrain l s _ _ | .tileLanded l s _ | .ragTailProbe l s _ | .chunkReadDone l s _ _ _ | .chunkWriteDone l s _ _
  | .completionRecordWrite l s _ => leafOk l && slotOk s
  | .registerWrite (.leaf l) _ _ _ => leafOk l
  | .registerWrite (.port p) _ _ _ => portOk p
  | .armMerge n _ | .controlPathDownwardMessage n => nodeOk n && decide (n / 4 % 2 = 1)
  | .armAtKiln i => dieOk i
  | .leafFlitSend l p | .resultFlitReceive l p _ => leafOk l && planeOk p
  | .nodeFlitArrive n _ i _ _ => nodeOk n && decide (n / 4 % 2 = 0) && dieOk i
  | .twinResidueFire n _ => nodeOk n
  | .overflowReplay k | .setterRestEnd k => setterOk k
  | .firingEnd g _ | .firingConeExpiry g _ | .barrierArrive g => groupOk g
  | .pyroPassStart d | .pyroPassComplete d _ | .pyroPassAbandon d | .loadCorrection d | .trimEpochFlip d | .trimStaleSet d
  | .tempSample d _ | .quietHoldStart d | .quietHoldEnd d | .activityEstimate d _ | .governorSlot d _ _ | .wakeSlot d => dieOk d
  | .wakeRampEnd d g | .parkRampEnd d g | .parkDue d g => dieOk d && segOk g
  | .saggarDestroyEffect n => decide (n < 4096)
  | .mbxRing p _ | .mbxPortReset p _ | .mbxIntStatusClear p _ | .hello p | .goodbye p | .saggarCreate p | .saggarDestroy p
  | .saggarList p | .shadowWrite p | .shadowRead p | .commit p | .discard p | .stateRead p | .snapshot p | .snapshotRelease p
  | .firingQuery p | .firingAbort p | .counterRead p | .digestOpen p | .digestRead p | .digestClose p | .keyRead p
  | .calibrate p | .scrub p | .selfTest p | .nodeOffline p | .nodeOnline p | .planeOffline p | .planeOnline p
  | .leafOffline p | .leafOnline p | .maintStatus p | .fwStage p | .fwVerify p | .fwActivate p | .fwStatus p
  | .energyRead p | .eventSubscribe p | .eventRead p | .faultLogRead p | .debugAccRead p | .debugTablePoke p
  | .controllerLogRead p => portOk p
  | .gwTxHdr _ b _ | .gwTxGo _ b _ | .gwTxFlitAccept b | .gwClaimExpire b => bufOk b
  | .transmitData _ b off d => bufOk b && decide (off + d.length ≤ 4096)
  | .gwBoxStale x | .gwBoxFree _ x _ => boxOk x
  | .depositResponse i _ _ => decide (i < 256)
  | .blockResetAssert _ | .blockResetEnd _ | .sramZeroed | .imageCheck _ | .configRecordLoad _ | .startupSelfTestDone _
  | .firstGlobalCommit | .controllerServes | .refclkEdge | .refLost | .refReturn | .paceLock | .paceSwitch | .grant
  | .bridgeFlitReceive _ _ | .linkNakReceive _ _ | .linkNakRepeat _ | .bridgeRetryExhausted _ | .stageConeExpiry _
  | .lossRegister | .redealResourceFree | .configWordUncorrectable _ _ _ _ | .memoryUncorrectable _ | .scrubPeriodic _
  | .commitSwap | .maintActivityEnd _ _ | .backgroundCommandDone | .fwActivationSwitch | .fwBankConfirm | .fwFallback
  | .controllerException _ _ _ | .watchdogExpiry _ _ | .controllerRestartDone | .smbBlkVersion | .smbStatus
  | .smbNotifyCtrl _ _ | .smbMbxWrite _ _ | .smbMbxRead _ _ | .smbTimeout | .hostNotifyAttempt _ | .hostNotifyRetry _
  | .extest _ _ | .idcode | .samplePreload _ _ | .bypass | .cxVersion | .cxMbx _ | .cxReset _ | .cxTraceCfg _ | .cxStraps
  | .cxPortCnt _ | .testPortReset | .traceRecordSend | .gwPkgRankSample _ | .gwRxFlit _ | .gwCollideExpire
  | .depositRequestAccept _ | .gwPkgRankValidFall => true

end Sys2Proof
end

