-- ==== Sys2Proof/Tests/Slice0.lean ====
section
/-! SUPPORT. Tests of the model. First the ranges of operands that `wellFormed` refuses, then single commands on small states with results
taken from the spec, then for every statement with hypotheses states and operands that meet them. -/

set_option Elab.async false

namespace Sys2Proof.Tests
open Sys2Proof.Machine Sys2Proof.Laws

/-! ### Operands out of range -/

theorem test_wf_refuses :
    wellFormed (.sendArm 8192) = false ∧ wellFormed (.pyroPassStart 32) = false ∧ wellFormed (.hello 18) = false
      ∧ wellFormed (.leafFlitSend 0 4) = false ∧ wellFormed (.tileDrain 0 256 1 []) = false ∧ wellFormed (.overflowReplay 1024) = false
      ∧ wellFormed (.barrierArrive 65536) = false ∧ wellFormed (.twinResidueFire 4360 ⟨.a, .residue⟩) = false ∧ wellFormed (.twinResidueFire 13 ⟨.a, .residue⟩) = false
      ∧ wellFormed (.armMerge 8 0) = false ∧ wellFormed (.nodeFlitArrive 12 .up 0 0 ⟨false, false, false⟩) = false
      ∧ wellFormed (.gwClaimExpire 64) = false ∧ wellFormed (.gwBoxStale 256) = false ∧ wellFormed (.parkDue 0 640) = false
      ∧ wellFormed (.lpPush 0 4096 true 0) = false ∧ wellFormed (.saggarDestroyEffect 4096) = false
      ∧ wellFormed (.transmitData 0 0 4096 [0]) = false ∧ wellFormed (.depositResponse 256 .ok 0) = false
      ∧ wellFormed (.registerWrite (.leaf 8192) 0 false 0) = false ∧ wellFormed (.registerWrite (.port 18) 0 false 0) = false := by decide

theorem test_wf_accepts :
    wellFormed (.sendArm 8191) = true ∧ wellFormed (.parkDue 31 639) = true ∧ wellFormed (.armMerge 12 0) = true
      ∧ wellFormed (.twinResidueFire 4355 ⟨.b, .residue⟩) = true ∧ wellFormed (.transmitData 0 63 4092 [0, 0, 0, 0]) = true := by decide

/-! ### Small states -/

/-- A word of fields: lowest bit and value. -/
def wd (fs : List (Nat × Nat)) : BitVec 1024 := BitVec.ofNat 1024 (fs.foldl (fun a e => a + e.2 * 2 ^ e.1) 0)

/-- The block with four die slots, its controller serving; its block handle is 7. -/
def on : State := { State.reset with
  pwrokLow := false, rstLow := false, straps := { ndieM1 := 3, mfrId := 5, smbAddr := 2, debug := true }
  ctl := { phase := .serving, selfTested := true, imageOk := true, blockHandle := 7 } }

/-- `on` with its controller in a phase. -/
def inPhase (p : CtlPhase) : State := { on with ctl := { on.ctl with phase := p } }

/-- `on` with a leaf port 0. -/
def leaf0 (p : LeafPort) : State := { on with leaves := [(0, p)] }

/-- `on` with firings at the kiln. -/
def kiln0 (fs : List Firing) : State := { on with kiln := { on.kiln with firings := fs, nextUid := 9 } }

/-- An ALLREDUCE of four FP64 elements in group 3 (Table 8.7). -/
def sumWords : BitVec 1024 := wd [(0, 1), (8, 1), (16, 1), (24, 1), (32, 3), (128, 4), (192, 0x1000), (256, 0x2000)]

/-- The same with stream set. -/
def streamWords : BitVec 1024 := wd [(0, 1), (8, 1), (16, 1), (24, 1), (32, 3), (128, 4), (192, 0x1000), (256, 0x2000), (622, 1)]

/-- The same with ragged_tail set. -/
def tailWords : BitVec 1024 := wd [(0, 1), (8, 1), (16, 1), (24, 1), (32, 3), (128, 4), (192, 0x1000), (256, 0x2000), (623, 1)]

/-- A bisque pass of an action on accumulator 1 (Table 8.8). -/
def passWords (action first len : Nat) : BitVec 1024 :=
  wd [(0, 0x10), (8, action), (16, if 2 ≤ action ∧ action ≤ 4 then 1 else 0), (32, 1), (34, first), (192, if action = 6 ∨ action = 0 then 0 else 0x1000),
      (224, if action = 4 then 0x1800 else 0), (256, if action = 6 then 0x2000 else 0), (320, len)]

/-! ### Witnesses: reset, start-up, reference -/

theorem witness_StepRunsFront : ({ on with pending := [.idcode, .bypass] } : State).pending = .idcode :: [.bypass] ∧ on.pending = [] := ⟨rfl, rfl⟩

theorem witness_BlockReset : canonical on ∧ State.reset.ctl.phase = .inReset
    ∧ 3 ≤ ({ ndieM1 := 3, mfrId := 0, smbAddr := 0, debug := false } : Straps).ndieM1.toNat
    ∧ ({ ndieM1 := 2, mfrId := 0, smbAddr := 0, debug := false } : Straps).ndieM1.toNat < 3 :=
  ⟨canonical_of_check (by decide +kernel), by decide⟩

/-- An image whose header and hash are sound (Table 13.16). -/
def image : List Byte :=
  leBytes 4 0x5A0ED4A2 ++ leBytes 2 1 ++ [2, 4] ++ leBytes 2 1 ++ leBytes 2 3 ++ leBytes 4 1 ++ leBytes 8 0 ++ sha384 [0x55] ++ leBytes 184 0
    ++ [0x55]

theorem image_sound : imageForm image = true ∧ bytesAt image 24 48 = sha384 (bytesAt image 256 (numAt image 12 4)) := by decide +kernel

/-- The verdict on a signature is a free value: where it accepts, the image is valid. -/
theorem image_valid (h : ∀ d r s, Config.signatureValid d r s = true) : imageValid image = true := by
  simp only [imageValid, imageSigned, h, image_sound.1, image_sound.2, Bool.and_true, beq_self_eq_true]

theorem witness_BootImage : (inPhase .zeroing).ctl.phase = .zeroing ∧ (inPhase .readImage).ctl.phase = .readImage ∧ imageValid [] = false
    ∧ (inPhase .readImage).ctl.triedBoth = false
    ∧ ({ on with ctl := { on.ctl with phase := .readImage, triedBoth := true } } : State).ctl.triedBoth = true
    ∧ ((∀ d r s, Config.signatureValid d r s = true) → imageValid image = true) :=
  ⟨rfl, rfl, by decide, rfl, rfl, image_valid⟩

/-- A configuration record of four die slots (Table 17.5) with the least budgets, less its CRC. -/
def recordBody : List Byte :=
  leBytes 4 0xC0F16A5E ++ leBytes 2 1 ++ [3, 0] ++ leBytes 16 0x110000004 ++ leBytes 1024 0 ++ (List.replicate 32 (leBytes 2 10)).flatten

/-- The record with its CRC. -/
def record : List Byte := recordBody ++ leBytes 8 (crc64 recordBody).toNat

set_option maxRecDepth 20000 in
theorem record_ok : recordOk 4 record = true := by decide +kernel

/-- `on` before its self-test. -/
def starting (p : CtlPhase) : State := { on with ctl := { on.ctl with phase := p, selfTested := false } }

theorem witness_StartupConfig : (starting .readConfig).ctl.selfTested = false ∧ (starting .readConfig).kiln.failedLeaves = []
    ∧ recordOk (starting .readConfig).n record = true ∧ recordOk (starting .readConfig).n [] = false
    ∧ (starting .selfTest).ctl.phase = .selfTest ∧ canonical (starting .selfTest) ∧ (starting .selfTest).leafExists 1023 = true
    ∧ ((starting .selfTest).leaf 1023).failed = false :=
  ⟨rfl, rfl, record_ok, by decide, rfl, canonical_of_check (by decide +kernel), by decide, rfl⟩

theorem witness_StartupServes : (inPhase .firstCommit).ctl.phase = .firstCommit ∧ (inPhase .beforeServe).ctl.phase = .beforeServe
    ∧ canonical (inPhase .beforeServe) := ⟨rfl, rfl, canonical_of_check (by decide +kernel)⟩

theorem witness_BlockTime : exec (.blockResetAssert .pwrok) on = .next (on.assertReset .pwrok) ∧ on.awake = true ∧ on.refLost = false
    ∧ ({ on with refLost := true } : State).refLost = true := ⟨rfl, by decide⟩

/-- `on` with every governor at rest and a pacing mode to come. -/
def pacing : State := { on with
  dies := [(0, { settled := true }), (1, { settled := true }), (2, { settled := true }), (3, { settled := true })]
  kiln := { on.kiln with paceHold := true } }

theorem witness_ReferenceAndPace : on.awake = true ∧ on.refLost = false ∧ ({ on with refLost := true } : State).refLost = true
    ∧ pacing.kiln.paceHold = true ∧ (∀ f ∈ pacing.kiln.firings, f.st ≠ .granted)
    ∧ (∀ d, d < pacing.n → pacing.dieLive d = true → (pacing.die d).moved pacing.paceWanted = true) ∧ canonical pacing
    ∧ pacing.dieLive 3 = true :=
  ⟨by decide, rfl, rfl, rfl, by decide, by decide +kernel, canonical_of_check (by decide +kernel), by decide⟩

/-! ### Witnesses: the leaf port's registers -/

theorem witness_LeafControl : on.leafLive 1023 = true ∧ bitOf (0x0801 : Word).toNat 1 = false ∧ bitOf (0x0801 : Word).toNat 0 = true
    ∧ 8 ≤ slice (0x0801 : Word).toNat 8 4 ∧ slice (0x0C01 : Word).toNat 8 4 ≤ 12 ∧ (on.leaf 0).ringOk = true ∧ (on.leaf 0).outstanding = 0
    ∧ (on.leaf 0).failed = false ∧ (on.leaf 0).enable = false ∧ ¬ 8 ≤ slice (0x0701 : Word).toNat 8 4
    ∧ ((leaf0 { enable := true }).leaf 0).enable = true ∧ BitVec.ofNat 4 (slice (0x0801 : Word).toNat 8 4) ≠ ((leaf0 { enable := true }).leaf 0).chunkLog2
    ∧ bitOf (0x0C00 : Word).toNat 0 = false ∧ BitVec.ofNat 4 (slice (0x0C00 : Word).toNat 8 4) = ((leaf0 { enable := true }).leaf 0).chunkLog2 := by
  decide +kernel

theorem witness_LeafReset : on.leafLive 0 = true ∧ bitOf (2 : Word).toNat 1 = true ∧ ((leaf0 { resetBusy := true }).leaf 0).resetBusy = true
    ∧ canonical on ∧ (on.leaf 0).resetBusy = false ∧ ((leaf0 { resetBusy := true }).leaf 0).allEnded = true
    ∧ ((leaf0 { resetBusy := true }).leaf 0).taken = [] := ⟨by decide, by decide, by decide, canonical_of_check (by decide +kernel), by decide⟩

/-- Head 0 and tail 2 in a ring and a queue of 256. -/
def ring2 : State := leaf0 { ringTail := 2, cqTail := 2 }

theorem witness_Doorbell : ring2.leafLive 0 = true
    ∧ (((0x100 : Word).setWidth 16 - (ring2.leaf 0).ringHead : BitVec 16).toNat ≤ (ring2.leaf 0).e
      ∧ ((0x100 : Word).setWidth 16 - (ring2.leaf 0).ringTail : BitVec 16).toNat ≤ (ring2.leaf 0).e)
    ∧ ¬ (((0x101 : Word).setWidth 16 - (ring2.leaf 0).ringHead : BitVec 16).toNat ≤ (ring2.leaf 0).e)
    ∧ canonical ring2 ∧ ((ring2.leaf 0).ringTail - (ring2.leaf 0).ringHead).toNat ≤ (ring2.leaf 0).e
    ∧ (2 : Word).setWidth 16 = (ring2.leaf 0).ringTail :=
  ⟨by decide +kernel, by decide +kernel, by decide +kernel, canonical_of_check (by decide +kernel), by decide +kernel, by decide +kernel⟩

theorem witness_CqHead : ring2.leafLive 0 = true
    ∧ ((2 : Word).setWidth 16 - (ring2.leaf 0).cqHead : BitVec 16).toNat ≤ ((ring2.leaf 0).cqTail - (ring2.leaf 0).cqHead).toNat
    ∧ ((ring2.leaf 0).cqTail - (ring2.leaf 0).cqHead).toNat < ((3 : Word).setWidth 16 - (ring2.leaf 0).cqHead : BitVec 16).toNat := by
  decide +kernel

theorem witness_RegisterWrites : on.leafLive 0 = true ∧ (on.leaf 0).enable = false ∧ (on.leaf 0).outstanding = 0
    ∧ ((leaf0 { enable := true }).leaf 0).enable = true ∧ 0x14 ∈ [0x0C, 0x10, 0x14] ∧ 15 < 16 := by decide +kernel

/-- A running leaf port. -/
def running : LeafPort := { enable := true, ringTail := 1 }

/-- A firing taken whose source lies in the push window. -/
def pushed : Taken := { cnt := 0, words := wd [(0, 1), (8, 1), (16, 1), (24, 1), (128, 4), (192, 0xFFFFF000)], phase := .waiting }

theorem witness_Push : (leaf0 running).leafLive 0 = true ∧ 4080 < 4096 ∧ 4080 % 16 = 0 ∧ ((leaf0 running).leaf 0).running = true
    ∧ ((leaf0 running).leaf 0).lineLocked (4080 / 16) = false ∧ (on.leaf 0).running = false
    ∧ ((leaf0 { running with taken := [pushed] }).leaf 0).lineLocked 0 = true := by decide +kernel

/-- A firing that takes its source as drained tiles. -/
def tiled : Taken := { cnt := 0, words := streamWords, phase := .taken }

theorem witness_TileDrain : (leaf0 { taken := [tiled] }).leafLive 0 = true ∧ ((leaf0 { taken := [tiled] }).leaf 0).inSlot 0 = some tiled
    ∧ tiled.phase ≠ .pass ∧ tiled.desc.stream = true ∧ 1 = tiled.desc.inF ∧ drainFmt 1 = true ∧ tiled.tilesIn < tilesOf tiled.desc
    ∧ tiled.ended = none ∧ (on.leaf 0).inSlot 0 = none
    ∧ ((leaf0 { taken := [{ tiled with tilesIn := 1 }] }).leaf 0).inSlot 0 = some { tiled with tilesIn := 1 } ∧ 0 < ({ tiled with tilesIn := 1 } : Taken).tilesIn := by
  decide +kernel

/-! ### Witnesses: taking, arming, chunks and passes -/

theorem witness_TakeDescriptor : canonical (leaf0 running) ∧ ((leaf0 running).leaf 0).running = true ∧ ((leaf0 running).leaf 0).failed = false
    ∧ ((leaf0 running).leaf 0).held = [] ∧ ((leaf0 running).leaf 0).next ≠ ((leaf0 running).leaf 0).ringTail ∧ isPass sumWords = false
    ∧ ((leaf0 running).leaf 0).takeRule [] 0 sumWords = .free ∧ isPass (passWords 0 0 0) = true ∧ passInvalid (passWords 0 0 0) = none
    ∧ ((leaf0 running).leaf 0).tagHeld (passIdx (passWords 0 0 0)) = false :=
  ⟨canonical_of_check (by decide +kernel), by decide +kernel, by decide +kernel, by decide +kernel, by decide +kernel, by decide +kernel,
    by decide +kernel, by decide +kernel, by decide +kernel, by decide +kernel⟩

/-- A firing taken and not armed. -/
def fresh : Taken := { cnt := 0, words := sumWords }

/-- A leaf of rank 0 with `fresh`. -/
def arming : State := leaf0 { enable := true, rank := 0, taken := [fresh] }

theorem witness_SendArm : canonical arming ∧ (arming.leaf 0).failed = false
    ∧ (arming.leaf 0).taken.find? (fun t => t.phase == .taken && t.ended.isNone) = some fresh ∧ (arming.leaf 0).rank ≠ 0xFFFF
    ∧ fresh.desc.ragTail = false ∧ arming.paceActive = false ∧ ((leaf0 { taken := [fresh] }).leaf 0).rank = 0xFFFF :=
  ⟨canonical_of_check (by decide +kernel), by decide +kernel⟩

/-- A firing whose count is not yet measured. -/
def tail0 : Taken := { cnt := 0, words := tailWords }

theorem witness_RagTailProbe : ((leaf0 { taken := [tail0] }).leaf 0).inSlot 0 = some tail0 ∧ tail0.phase = .taken ∧ tail0.desc.ragTail = true
    ∧ tail0.invalid = none ∧ tail0.probe = none ∧ tail0.ended = none ∧ 0 < 3 ∧ 3 < tail0.desc.count ∧ 0 < tail0.desc.count := by decide +kernel

/-- A running firing, and one with a result byte to write. -/
def run0 : Taken := { cnt := 0, words := sumWords, phase := .running, rank := 0, m := 1, idx := 0, planes := [0], deals := [[0]] }

theorem witness_Chunks : ((leaf0 { taken := [run0] }).leaf 0).inSlot 0 = some run0
    ∧ run0.areaOf ((leaf0 { taken := [run0] }).leaf 0).chunk 0 = some (0, ⟨.src, 0, 0x1000, 32, 0x40, 8, true⟩)
    ∧ run0.phase = .running ∧ run0.ended = none ∧ run0.invalid = none ∧ run0.desc.ragTail = false
    ∧ run0.tilesLanded ⟨.src, 0, 0x1000, 32, 0x40, 8, true⟩ 0x1000 32 = true
    ∧ run0.areaOf ((leaf0 { taken := [run0] }).leaf 0).chunk 1 = some (1, ⟨.result, 0, 0x2000, 32, 0x42, 8, false⟩)
    ∧ (chunkSpan ((leaf0 {}).leaf 0).chunk 1 1 ⟨.result, 0, 0x2000, 32, 0x42, 8, false⟩) = (0x2000, 32)
    ∧ ((leaf0 { taken := [{ run0 with writes := [(0x201F, 5)] }] }).leaf 0).inSlot 0 = some { run0 with writes := [(0x201F, 5)] }
    ∧ canonical (leaf0 { taken := [{ run0 with writes := [(0x201F, 5)] }] }) :=
  ⟨by decide +kernel, by decide +kernel, rfl, rfl, rfl, by decide +kernel, by decide +kernel, by decide +kernel, by decide +kernel,
    by decide +kernel, canonical_of_check (by decide +kernel)⟩

/-- A leaf port with one pass, and its accumulator held at zero. -/
def passing (action first : Nat) (a : Bisque) : State :=
  leaf0 { bisque := tset {} [] 1 a, taken := [{ cnt := 0, words := passWords action first 1, phase := .pass }] }

/-- The pass of `passing`. -/
def pass0 (action first : Nat) : Taken := { cnt := 0, words := passWords action first 1, phase := .pass }

/-- The bytes of a sherd of value zero, filled to the longest sherd. -/
def zeroSherd : List Byte := padTo sherdMax (sherdBytes (Sherd.canon {}))

theorem witness_BisquePasses : (tget {} ((passing 0 0 {}).leaf 0).bisque (passIdx (pass0 0 0).words)).damaged = false
    ∧ ((passing 0 0 {}).leaf 0).pass 0 = some (pass0 0 0) ∧ ((passing 1 0 {}).leaf 0).pass 1 = some (pass0 1 0)
    ∧ readOneSherd (((passing 1 0 {}).leaf 0).sourceBytes 0x1000 zeroSherd sherdMax) = some (some {})
    ∧ ((passing 2 1 {}).leaf 0).pass 2 = some (pass0 2 1) ∧ passFirst (pass0 2 1).words = true
    ∧ (sherdSum (none, false) ((passElems (pass0 2 1) [0, 0, 0, 0, 0, 0, 240, 63]).map (sherdOfValue (passFmt (pass0 2 1).words)))).2 = false
    ∧ ((passing 3 1 {}).leaf 0).pass 3 = some (pass0 3 1)
    ∧ (sherdSum (none, false) ((passElems (pass0 3 1) [0, 0, 0, 0, 0, 0, 240, 63]).map (fun e => sherdOfProduct (passFmt (pass0 3 1).words) e e))).2 = false
    ∧ ((passing 4 1 {}).leaf 0).pass 4 = some (pass0 4 1)
    ∧ ((passing 5 0 { st := .held }).leaf 0).pass 5 = some (pass0 5 0)
    ∧ (tget {} ((passing 5 0 { st := .held }).leaf 0).bisque (passIdx (pass0 5 0).words)).st ≠ .neverWritten
    ∧ (sherdSum (passBase (pass0 5 0) { st := .held }, false) [{}]).2 = false
    ∧ ((passing 6 0 { st := .held }).leaf 0).pass 6 = some (pass0 6 0)
    ∧ (tget {} ((passing 6 0 { st := .held }).leaf 0).bisque (passIdx (pass0 6 0).words)).st = .held := by decide +kernel

theorem witness_PassRefusals : (tget {} ((passing 2 0 {}).leaf 0).bisque (passIdx (pass0 2 0).words)).damaged = false
    ∧ (tget {} ((passing 2 0 {}).leaf 0).bisque (passIdx (pass0 2 0).words)).st = .neverWritten ∧ passFirst (pass0 2 0).words = false
    ∧ ((passing 2 0 {}).leaf 0).pass 2 = some (pass0 2 0) ∧ ((passing 3 0 {}).leaf 0).pass 3 = some (pass0 3 0)
    ∧ ((passing 4 0 {}).leaf 0).pass 4 = some (pass0 4 0) ∧ ((passing 5 0 {}).leaf 0).pass 5 = some (pass0 5 0)
    ∧ ((passing 6 0 {}).leaf 0).pass 6 = some (pass0 6 0) ∧ ((passing 1 0 {}).leaf 0).pass 1 = some (pass0 1 0) := by decide +kernel

/-! ### Witnesses: arming and granting -/

/-- Group 3 of saggar 0: ranks 0 and 1, on leaves 0 and 256 (Table 14.5). -/
def groupCfg : Sys2Proof.Machine.Config := { on.cfg with
  saggars := [(0, { inUse := true, handle := 5, active := { groups := [(3, BitVec.ofNat 256 (2 ^ 89 + 2 * 2 ^ 144))] } })]
  active := { on.cfg.active with
    quota := [(0, BitVec.ofNat 128 (16 * 2 ^ 88 + 1 * 2 ^ 68 + 2 * 2 ^ 55))]
    leafSag := [(0, BitVec.ofNat 64 (0xFFFFFFFFFFFF0000)), (256, BitVec.ofNat 64 (0xFFFFFFFFFFFF0000))] }
  rankToLeaf := [(0, 0), (1, 256)], leafToRank := [(0, 0), (256, 1)], nRanks := 2 }

/-- The cached record of group 3 at a node whose inputs are given. -/
def rec3 (is : List Nat) : GroupRec := { group := 3, digest := 0, inputs := is }

/-- The ARM of leaf 0 for group 3. -/
def arm0 : Arm := { group := 3, refIx := 0, desc := sumWords, who := [(0, 4)] }

/-- A block with group 3 whose cluster node 33, die node 1 and kiln have `arm0` at input 0. -/
def armed : State := { on with
  cfg := groupCfg
  ctls := [(12, { inq := [(0, arm0)], cache := [rec3 [0]] }), (268, { inq := [(0, arm0)], cache := [rec3 [0]] })]
  kiln := { on.kiln with inq := [(0, arm0)], cache := [rec3 [0, 1]] } }

theorem witness_ArmMerge : isCtlIx 268 = true ∧ (armed.ctlNode 268).stat.pairOut = false
    ∧ takeInput 0 (armed.ctlNode 268).inq = some (arm0, []) ∧ ({ arm0 with late := true } : Arm).late = true
    ∧ 33 ≤ qOf 268 ∧ arm0.reset = false ∧ arm0.foreign = false ∧ arm0.late = false ∧ arm0.abort = false
    ∧ (useRec (armed.ctlNode 268).cache none arm0.group).1 = some (rec3 [0]) ∧ armed.foreignArm (some (rec3 [0])) (qOf 268) arm0.group 0 = false
    ∧ ((armed.ctlNode 268).ended.contains (arm0.group, (armed.groupRun arm0.group).base + tget 0 (armed.ctlNode 268).counts (64 * arm0.group))) = false
    ∧ isCtlIx 12 = true ∧ qOf 12 < 33 ∧ 1 ≤ qOf 12 ∧ takeInput 0 (armed.ctlNode 12).inq = some (arm0, [])
    ∧ (useRec (armed.ctlNode 12).cache none arm0.group).1 = some (rec3 [0]) ∧ ((armed.ctlNode 12).ended.contains (arm0.group, arm0.ord)) = false
    ∧ armed.posOver arm0.group arm0.ord = false := by decide +kernel

theorem armed_canonical : canonical armed := canonical_of_check (by decide +kernel)

theorem witness_ArmAtKiln : (armed.ctlNode (nodeIx 0 true 0)).stat.pairOut = false ∧ takeInput 0 armed.kiln.inq = some (arm0, [])
    ∧ ({ arm0 with foreign := true } : Arm).foreign = true ∧ (armed.groupRun arm0.group).base ≤ arm0.ord ∧ armed.posAt arm0.group arm0.ord = none
    ∧ armed.cfg.groupSaggar arm0.group = some 0 ∧ armed.firstArmEnd arm0.group = none
    ∧ (useRec armed.kiln.cache none arm0.group).1 = some (rec3 [0, 1]) ∧ 1 ∈ (rec3 [0, 1]).inputs
    ∧ armed.inputDone 0 arm0.group 1 [0] = false := by decide +kernel

/-- A GRANT of group 3 on plane 0. -/
def grant0 : GrantMsg := { fn := 1, setter := 0, group := 3, planes := 1 }

/-- Nodes 268 and 12 with `grant0` to copy down. -/
def granting : State := { on with ctls := [(12, { downq := [.grant grant0 [0]] }), (268, { downq := [.grant grant0 [0]] })] }

theorem witness_DownwardMessage : canonical granting ∧ isCtlIx 268 = true ∧ (granting.ctlNode 268).stat.pairOut = false
    ∧ (granting.ctlNode 268).downq = .grant grant0 [0] :: [] ∧ 33 ≤ qOf 268 ∧ [0].Nodup ∧ bitOf grant0.planes.toNat 1 = false
    ∧ isCtlIx 12 = true ∧ (granting.ctlNode 12).downq = .grant grant0 [0] :: [] ∧ 1 ≤ qOf 12 ∧ qOf 12 < 33 :=
  ⟨canonical_of_check (by decide +kernel), by decide +kernel⟩

/-- An armed firing of group 3. -/
def firing0 : Firing := { group := 3, seq := 0, st := .armed, arm := arm0, leaves := [0, 256], ranks := [0, 1], latBytes := 1024 }

/-- Every segment awake in die slots 0 and 1, so that the paths of group 3 may be used. -/
def awakeDie : Die := { segs := (List.range 640).map (fun i => (i, .awake)), trimStale := false, passed := true }

/-- `firing0` waits. -/
def waiting : State := { on with
  cfg := groupCfg, dies := [(0, awakeDie), (1, awakeDie)], kiln := { on.kiln with firings := [firing0], nextUid := 1 } }

theorem witness_Grant : waiting.kiln.paceHold = false ∧ waiting.kiln.admitStopped = false
    ∧ waiting.offer.pickGrant.any (fun f =>
        (waiting.offer.kaccCheck f).isNone && (waiting.offer.depCheck f).isNone && (waiting.offer.firing? f.uid).isSome) = true := by
  decide +kernel

/-- A leaf whose firing of group 3 waits for its grant. -/
def wait0 : Taken := { cnt := 0, words := sumWords, phase := .waiting }

/-- A running firing under firing number 1. -/
def run1 : Taken := { run0 with fn := 1 }

theorem witness_GrantReceive :
    ((leaf0 { inbox := [.grant grant0 [0]], taken := [wait0] }).leaf 0).inbox = .grant grant0 [0] :: []
    ∧ ((leaf0 { inbox := [.grant grant0 [0]], taken := [wait0] }).leaf 0).runningOf grant0 = none
    ∧ ((leaf0 { inbox := [.grant grant0 [0]], taken := [wait0] }).leaf 0).taken.find?
        (fun t => t.phase == .waiting && t.ended.isNone && t.desc.group == grant0.group.toNat) = some wait0
    ∧ ((leaf0 { inbox := [.grant grant0 [0]], taken := [run1] }).leaf 0).runningOf grant0 = some run1 ∧ run1.attempt = grant0.attempt := by
  decide +kernel

/-! ### Witnesses: flits -/

/-- A running firing whose one chunk is staged: four FP64 zeros. -/
def staged : Taken := { run0 with chunks := [⟨.src, 0, some (List.replicate 32 0)⟩] }

theorem witness_LeafFlitSend : ((leaf0 { taken := [staged] }).leaf 0).failed = false ∧ (on.link (leafLinkKey 0 .up 0)).failed = false
    ∧ (on.link (leafLinkKey 0 .up 0)).offer = none
    ∧ (((leaf0 { taken := [staged] }).leaf 0).sender 0).any (fun r => (((leaf0 { taken := [staged] }).leaf 0).lostSources r.1).isEmpty
        && !r.2.1.flit.poison && !r.2.2.1) = true := by decide +kernel

/-- A flit on setter 0. -/
def carry0 : Carry := { flit := { type := 1, last := true, payload := List.replicate 64 0 } }

/-- Links with `carry0` on them: from leaf 0 up and from die node 1 down, the latter through the bridge. -/
def flying : State := { on with links := [
  (8, { rxq := [carry0] }), (12, { rxq := [carry0] }), (linkKey 33 .down 0, ({} : Link).put false 0 carry0),
  (leafLinkKey 0 .up 0, ({} : Link).put false 0 carry0), (leafLinkKey 0 .down 0, ({} : Link).put false 0 carry0)] }

theorem witness_NodeFlit : flying.dataIx 264 = true ∧ (flying.node 264).stat.pairOut = false ∧ 15 < radix (qOf 264)
    ∧ (flying.takeFlit (inLink (qOf 264) (planeOf 264) .up 0) 0).any (fun r => r.1.isSome) = true
    ∧ (flying.takeFlit (inLink (qOf 264) (planeOf 264) .down 0) 0).any (fun r => r.1.isSome) = true ∧ 33 ≤ qOf 264 ∧ qOf 264 ≠ 0
    ∧ flying.dataIx 0 = true ∧ qOf 0 = 0 ∧ (flying.takeFlit (inLink (qOf 0) (planeOf 0) .up 0) 0).any (fun r => r.1.isSome) = true
    ∧ flying.dataIx 8 = true ∧ 1 ≤ qOf 8 ∧ qOf 8 ≤ 32
    ∧ (flying.takeFlit (inLink (qOf 8) (planeOf 8) .down 0) 0).any (fun r => r.1.isSome) = true
    ∧ flying.granted? carry0.flit.setter.toNat = none
    ∧ (kiln0 [{ firing0 with st := .granted, setter := some 0 }]).downFiring carry0.flit.setter.toNat
        = some { firing0 with st := .granted, setter := some 0 }
    ∧ (flying.link (inLink (qOf 264) (planeOf 264) .up 0)).failed = false
    ∧ (flying.link (inLink (qOf 264) (planeOf 264) .up 0)).offer = some carry0
    ∧ (flying.link (inLink (qOf 264) (planeOf 264) .up 0)).arrived carry0 1 = none := by decide +kernel

theorem flying_canonical : canonical flying := canonical_of_check (by decide +kernel)

/-- Node 264 with twin B out. -/
def alone : State := { on with nodes := [(264, { stat := { bOut := true } })] }

theorem witness_TwinsAndCones : canonical on ∧ on.dataIx 264 = true ∧ (on.node 264).stat.pairOut = false ∧ (on.node 264).stat.aOut = false
    ∧ (on.node 264).stat.bOut = false ∧ canonical alone ∧ (alone.node 264).stat.bOut = true ∧ (alone.node 264).stat.pairOut = false
    ∧ (flying.link (leafLinkKey 0 .up 0)).failed = false ∧ (flying.link (leafLinkKey 0 .up 0)).offer.isSome = true
    ∧ on.leafExists 1023 = true ∧ (on.leaf 1023).ctlA = false :=
  ⟨canonical_of_check (by decide +kernel), by decide +kernel, by decide +kernel, by decide +kernel, by decide +kernel,
    canonical_of_check (by decide +kernel), by decide +kernel⟩

/-- A LINK_NAK that asks again for flit 0. -/
def nak0 : Carry := { flit := { type := 0xF0, last := true, payload := List.replicate 64 0 } }

/-- Bridge link 8 with something on it, its reverse 12 with one flit still in its retry buffer. -/
def bridged (k : Link) : State := { on with links := [(8, k), (12, { sentCount := 1, retry := [carry0] })] }

theorem witness_BridgeRetry : isBridge 8 = true ∧ (bridged (({} : Link).put true 0 carry0)).link 8 = ({} : Link).put true 0 carry0
    ∧ (({} : Link).put true 0 carry0).failed = false ∧ (({} : Link).put true 0 carry0).offer = some carry0 ∧ carry0.flit.type ≠ 0xF0
    ∧ flitOk ((({} : Link).put true 0 carry0).read true 0) = true ∧ (({} : Link).put true 0 carry0).waiting = none
    ∧ flitOk ((({} : Link).put true 0 carry0).read true 1) = false
    ∧ (({ waiting := some 0 } : Link).put true 0 carry0).waiting = some 0
    ∧ (flitOf ((({ waiting := some 0 } : Link).put true 0 carry0).read true 0)).replay = false
    ∧ (({} : Link).put true 0 nak0).offer = some nak0 ∧ nak0.flit.type = 0xF0 ∧ flitOk ((({} : Link).put true 0 nak0).read true 0) = true
    ∧ ((((bridged (({} : Link).put true 0 nak0)).setLink 8 ((({} : Link).put true 0 nak0).took true 0)).link (keyReverse 8)).resendFrom
        (BitVec.ofNat 16 (numAt (flitOf ((({} : Link).put true 0 nak0).read true 0)).payload 0 2))).isSome = true
    ∧ ((bridged { waiting := some 0, noReplay := 32 }).link 8).waiting = some 0 ∧ 32 ≤ ((bridged { waiting := some 0, noReplay := 32 }).link 8).noReplay
    ∧ ((bridged { waiting := some 0, noReplay := 32 }).link 8).repeated = false
    ∧ ((bridged { waiting := some 0, noReplay := 32, repeated := true }).link 8).repeated = true := by decide +kernel

theorem bridged_canonical : canonical (bridged { waiting := some 0, noReplay := 32, repeated := true }) := canonical_of_check (by decide +kernel)

/-! ### Witnesses: losses, replays and ends -/

/-- A granted firing on setter 0 and plane 0, whose kiln part is done. -/
def granted0 : Firing := { firing0 with st := .granted, setter := some 0, fn := 1, planes := [0], deals := [[0]], doneIx := [(0, 1)] }

/-- The same with an overflow in scaled INT32. -/
def overflowed : Firing := { granted0 with
  ovf := true, arm := { arm0 with desc := wd [(0, 1), (8, 1), (16, 9), (24, 9), (32, 3), (128, 4), (192, 0x1000), (256, 0x2000)] } }

theorem witness_LossAndReplay : canonical on ∧ on.kiln.miscomp = [] ∧ (∀ f ∈ on.kiln.firings, f.st ≠ .granted)
    ∧ (kiln0 [{ granted0 with waitPlane := some 0 }]).kiln.firings.find? (fun f => f.st == .granted
        && f.waitPlane.any (fun p => (kiln0 [{ granted0 with waitPlane := some 0 }]).fits {} (f.needs [p]))) = some { granted0 with waitPlane := some 0 }
    ∧ (kiln0 [{ granted0 with waitPlane := some 0 }]).fits {} (granted0.needs [pickPlane granted0.planes granted0.fn.toNat]) = true
    ∧ (kiln0 [overflowed]).granted? 0 = some overflowed ∧ overflowed.ovf = true ∧ overflowed.allDone = true ∧ overflowed.cause = none
    ∧ overflowed.attempt < 3 ∧ -15 ≤ scaleAt overflowed.desc (overflowed.attempt + 1) ∧ (kiln0 [overflowed]).replayFits overflowed = true
    ∧ (kiln0 [{ overflowed with attempt := 3 }]).granted? 0 = some { overflowed with attempt := 3 } ∧ ({ overflowed with attempt := 3 } : Firing).allDone = true :=
  ⟨canonical_of_check (by decide +kernel), by decide +kernel⟩

/-- An ended firing whose setter has rested. -/
def resting : Firing := { granted0 with st := .ended, restEnd := some 0 }

theorem witness_FiringEnd : (kiln0 [granted0]).kiln.firings.find? (fun f => f.group == 3 && f.seq.toNat == 0 && f.st == .granted) = some granted0
    ∧ (kiln0 [granted0]).ranThrough granted0 = true ∧ granted0.desc.kind ≠ 4 ∧ granted0.depPoison = false ∧ granted0.range = false
    ∧ ({ granted0 with range := true } : Firing).range = true ∧ ({ granted0 with depPoison := true } : Firing).depPoison = true
    ∧ (kiln0 [granted0]).firing? granted0.uid = some granted0 ∧ granted0.cause = none ∧ granted0.usesPlane = true ∧ granted0.setter = some 0
    ∧ (kiln0 [resting]).kiln.firings.find? (fun f => f.st == .ended && f.setter == some 0
        && f.restEnd.any (fun t => t.toNat ≤ (kiln0 [resting]).time.toNat)) = some resting := by decide +kernel

theorem granted_canonical : canonical (kiln0 [granted0]) := canonical_of_check (by decide +kernel)

/-- The end message of firing number 1. -/
def done0 : EndMsg := { fn := 1, group := 3, status := stOk }

/-- A leaf with its firing's end and a flit for it on the downward link. -/
def ending : State := { flying with leaves := [(0, { inbox := [.done done0 [0]], taken := [run1] })] }

theorem witness_ResultsAndEnds : ending.leafExists 0 = true
    ∧ (ending.takeFlit (leafLinkKey 0 .down 0) 0).any (fun r => r.1.isSome && !(r.2.leaf 0).failed
        && ((r.2.leaf 0).taken.find? (fun x => x.listens && x.setter == carry0.flit.setter)).isSome) = true
    ∧ (ending.leaf 0).failed = false ∧ (ending.leaf 0).inbox = .done done0 [0] :: [] ∧ (ending.leaf 0).endsFor done0 = some run1
    ∧ run1.lostAreas (ending.leaf 0).chunk done0 = [] := by decide +kernel

theorem ending_canonical : canonical ending := canonical_of_check (by decide +kernel)

/-- A firing ended with OK whose record is due. -/
def ended0 : Taken := { run1 with ended := some done0, stopped := true, badAt := [] }

/-- A leaf with `ended0` and a queue whose tail is given. -/
def recording (t : BitVec 16) : State := leaf0 { enable := true, cqTail := t, taken := [ended0] }

theorem witness_CompletionRecord : ((recording 0).leaf 0).inSlot 0 = some ended0 ∧ (((recording 0).leaf 0).record ended0).isSome = true
    ∧ ((recording 0).leaf 0).recordDue ended0 = true ∧ (recording 0).allTaken 0 ended0 = true
    ∧ ((recording 0).leaf 0).unconsumed < ((recording 0).leaf 0).e ∧ ((recording 0).leaf 0).failed = false
    ∧ ((recording 256).leaf 0).inSlot 0 = some ended0 ∧ (((recording 256).leaf 0).record ended0).isSome = true
    ∧ ((recording 256).leaf 0).recordDue ended0 = true ∧ (recording 256).allTaken 0 ended0 = true
    ∧ ((recording 256).leaf 0).e ≤ ((recording 256).leaf 0).unconsumed := by decide +kernel

theorem witness_FiringCone : (kiln0 [firing0]).kiln.firings.find? (fun f => f.group == 3 && f.seq.toNat == 0 && f.st != .ended && f.cause.isNone)
      = some firing0
    ∧ firing0.service = true ∧ firing0.coneEnd.toNat ≤ (kiln0 [firing0]).time.toNat ∧ firing0.st = .armed ∧ granted0.st = .granted
    ∧ (kiln0 [granted0]).kiln.firings.find? (fun f => f.group == 3 && f.seq.toNat == 0 && f.st != .ended && f.cause.isNone) = some granted0
    ∧ (kiln0 [{ firing0 with st := .arming }]).kiln.firings.find? (fun f => f.group == 3 && f.seq.toNat == 0 && f.st != .ended && f.cause.isNone)
      = some { firing0 with st := .arming }
    ∧ ({ firing0 with service := false } : Firing).service = false
    ∧ (kiln0 [{ firing0 with coneEnd := 1 }]).time.toNat < ({ firing0 with coneEnd := 1 } : Firing).coneEnd.toNat := by decide +kernel

/-- A barrier that every member has reached. -/
def barrier0 : Firing := { firing0 with arm := { arm0 with desc := wd [(0, 4), (32, 3)] } }

theorem witness_Barrier : (kiln0 [barrier0]).kiln.paceHold = false ∧ (kiln0 [barrier0]).kiln.admitStopped = false
    ∧ (kiln0 [barrier0]).kiln.firings.find? (fun f => f.group == 3 && f.st == .armed && f.cause.isNone && f.desc.kind == 4
        && f.ord == ((kiln0 [barrier0]).groupRun 3).nextOrd) = some barrier0
    ∧ ((leaf0 { inbox := [.release done0 [0] false], taken := [wait0] }).leaf 0).failed = false
    ∧ ((leaf0 { inbox := [.release done0 [0] false], taken := [wait0] }).leaf 0).inbox = .release done0 [0] false :: []
    ∧ ((leaf0 { inbox := [.release done0 [0] false], taken := [wait0] }).leaf 0).taken.find?
        (fun t => t.phase == .waiting && t.ended.isNone && t.desc.group == done0.group.toNat) = some wait0 := by decide +kernel

theorem witness_LeafFailure : (leaf0 { ctlA := true, ctlB := true }).leafExists 0 = true
    ∧ ((leaf0 { ctlA := true, ctlB := true }).leaf 0).failed = false ∧ (leaf0 { ctlA := true, ctlB := true }).leafMustFail 0 = true
    ∧ ((leaf0 { failed := true }).leaf 0).failed = true ∧ ((leaf0 { failed := true }).leaf 0).failReported = false
    ∧ ((leaf0 { failed := true, failReported := true }).leaf 0).failReported = true ∧ canonical (leaf0 { failed := true })
    ∧ (∀ f ∈ (leaf0 { failed := true }).kiln.firings, f.st = .ended) :=
  ⟨by decide +kernel, by decide +kernel, by decide +kernel, by decide +kernel, by decide +kernel, by decide +kernel,
    canonical_of_check (by decide +kernel), by decide +kernel⟩

/-! ### Witnesses: memories that fail, pyrometers, governor, wakes -/

/-- A word of the global set. -/
def word0 : CfgWord := ⟨none, false, 0x10, 0⟩

theorem witness_ConfigWords : on.awake = true ∧ ¬ word0 ∈ on.cfg.lost ∧ ¬ word0.bank ∈ on.cfg.oneCopy ∧ ¬ (word0, Copy.b) ∈ on.cfg.badWords
    ∧ Copy.a.other = .b := by decide +kernel

/-- A leaf with one staged chunk. -/
def stagedLeaf : State := leaf0 { taken := [staged] }

theorem witness_MemoryFaults : canonical on ∧ on.awake = true ∧ on.dataIx 264 = true ∧ (on.node 264).stat.pairOut = false ∧ isBridge 8 = true
    ∧ (kiln0 [granted0]).granted? 0 = some granted0 ∧ 255 < 256 ∧ (on.kacc 255).holder = none ∧ on.leafExists 0 = true ∧ 3 < 4
    ∧ ({ on with kiln := { on.kiln with digests := [(0, { isOpen := true })] } } : State).kiln.digests.find? (fun e => e.1 == 0)
        = some (0, { isOpen := true })
    ∧ (stagedLeaf.leaf 0).inSlot 0 = some staged ∧ (∃ y ∈ staged.chunks, y.ix = 0 ∧ y.area = .src ∧ y.data ≠ none) ∧ (on.leaf 0).failed = false :=
  ⟨canonical_of_check (by decide +kernel), by decide +kernel⟩

/-- Die slot 0 in a state. -/
def die0 (d : Die) : State := { on with dies := [(0, d)] }

theorem witness_PyroPass : (die0 { sched := true }).dieLive 0 = true ∧ ((die0 { sched := true }).die 0).sched = true
    ∧ ((die0 { sched := true }).die 0).measuring = false ∧ (die0 { sched := true }).dieIdle 0 = true ∧ canonical (die0 { measuring := true })
    ∧ ((die0 { measuring := true }).die 0).measuring = true
    ∧ (die0 { measuring := true }).time.toNat ≤ ((die0 { measuring := true }).die 0).started.toNat + 400 :=
  ⟨by decide +kernel, by decide +kernel, by decide +kernel, by decide +kernel, canonical_of_check (by decide +kernel), by decide +kernel⟩

theorem witness_Trims : (die0 { newTrims := true }).dieLive 0 = true ∧ canonical (die0 { newTrims := true })
    ∧ ((die0 { newTrims := true }).die 0).newTrims = true ∧ ((die0 { newTrims := true }).die 0).lastFlip = none
    ∧ ((die0 { trimStale := false }).die 0).trimStale = false ∧ ((die0 { trimStale := false }).die 0).fresh (die0 { trimStale := false }).time = false
    ∧ ((die0 { newTrims := true }).die 0).epoch = false :=
  ⟨by decide +kernel, canonical_of_check (by decide +kernel), by decide +kernel⟩

/-- Die slot 0 with a pass 8 ms old. -/
def old : State := { die0 { passed := true } with time := 8000000 }

/-- A quiet hold that has lasted 4 µs. -/
def held : State := { die0 { passed := true, quietHold := true, measuring := true } with time := 4000 }

theorem witness_QuietHold : old.dieLive 0 = true ∧ old.kiln.quiet = none ∧ old.trimQuiet = true ∧ (old.die 0).passed = true
    ∧ (old.die 0).measTime.toNat + 8000000 ≤ old.time.toNat
    ∧ ((die0 { passed := true, quietHold := true }).die 0).quietHold = true ∧ ((die0 { passed := true, quietHold := true }).die 0).sched = false
    ∧ ((die0 { passed := true, quietHold := true }).die 0).holdStart.toNat ≤ ((die0 { passed := true, quietHold := true }).die 0).measTime.toNat
    ∧ (held.die 0).measuring = true ∧ (held.die 0).holdStart.toNat + 4000 ≤ held.time.toNat := by decide +kernel

theorem witness_Governor : on.dieLive 3 = true ∧ on.atSlot (on.die 3).govSlot = true ∧ on.governedPaced = false
    ∧ ({ on with paceMode := true } : State).governedPaced = true := by decide +kernel

theorem witness_WakeSequencer : on.dieLive 0 = true ∧ on.atSlot (on.die 0).wakeSlot = true ∧ ((die0 { segs := [(5, .waking)] }).die 0).seg 5 = .waking
    ∧ ((die0 { segs := [(5, .parking)] }).die 0).seg 5 = .parking ∧ ¬ 5 ∈ ((die0 { segs := [(5, .awake)], overBudget := true }).die 0).parkQ
    ∧ (die0 { segs := [(5, .awake)], overBudget := true }).parkable 0 5 = true := by decide +kernel

/-! ### Witnesses: configuration boundaries, deposits -/

/-- A commit that the kiln has. -/
def swapping (set : Option Nat) : State := { on with cfg := { groupCfg with swaps := [(set, 0, 1)] } }

/-- A saggar shadow set whose group 3 has no member. -/
def emptyGroup : State := { on with cfg := { groupCfg with
  saggars := [(0, { inUse := true, handle := 5, shadow := { groups := [(3, BitVec.ofNat 256 (2 ^ 89))] } })], swaps := [(some 0, 0, 1)] } }

theorem witness_CommitBoundary : (swapping (some 0)).cfg.swaps = (some 0, 0, 1) :: [] ∧ ((swapping (some 0)).cfg.sag 0).inUse = true
    ∧ ({ swapping (some 0) with cfg := { (swapping (some 0)).cfg with swaps := [] } } : State).badCommit (some 0) = none
    ∧ ({ swapping none with cfg := { (swapping none).cfg with swaps := [], saggars := [] } } : State).badCommit none = none
    ∧ (({ emptyGroup with cfg := { emptyGroup.cfg with swaps := [] } } : State).badCommit (some 0)).isSome = true
    ∧ (({ on with cfg := { groupCfg with saggars := [(0, { inUse := true, dying := some (0, 1) })] } } : State).cfg.sag 0).dying = some (0, 1) := by
  decide +kernel

theorem swapping_canonical : canonical (swapping (some 0))
    ∧ canonical { on with cfg := { groupCfg with saggars := [(0, { inUse := true, dying := some (0, 1) })] } } :=
  ⟨canonical_of_check (by decide +kernel), canonical_of_check (by decide +kernel)⟩

/-- A read of line 64 for the firing with number 0. -/
def request0 : DepReq := { id := 0, op := .read, line := 64, mask := 0, data := 0, uid := 0, elems := [0], step := 0 }

theorem witness_DepositPort : ({ on with dep := { on.dep with queue := [request0] } } : State).dep.queue = request0 :: []
    ∧ ({ on with dep := { on.dep with queue := [request0] } } : State).dep.freeId = some 0
    ∧ ({ on with dep := { on.dep with flying := [request0] } } : State).dep.flying.find? (fun q => q.id == 0) = some request0
    ∧ ({ on with dep := { on.dep with flying := [request0] } } : State).firing? request0.uid = none
    ∧ (kiln0 [granted0]).firing? request0.uid = some granted0 ∧ granted0.st = .granted := by decide +kernel

/-! ### Witnesses: mailbox ports -/

theorem witness_MailboxRegisters : on.awake = true ∧ 17 < 18 ∧ bitOf (1 : Word).toNat 0 = true ∧ bitOf (1 : Word).toNat 1 = false
    ∧ bitOf (2 : Word).toNat 0 = false ∧ bitOf (2 : Word).toNat 1 = true
    ∧ (({ on with ports := [(0, { st := .pending })] } : State).port 0).st = .pending ∧ (on.port 0).st = .idle
    ∧ on.servesCommand 0 1 = true ∧ (inPhase .switching).servesCommand 0 1 = false := by decide +kernel

theorem on_canonical : canonical on := canonical_of_check (by decide +kernel)

/-- A request area: version 1.2, tag 0x0140, the saggar's or the block's handle, the payload (Table 13.7). -/
def requestArea (code : Nat) (version : List Byte) (glob : Bool) (data : List Byte) : Table Byte :=
  tsetRun 0 [] 0 (version ++ leBytes 2 code ++ leBytes 2 0x0140 ++ leBytes 2 0 ++ leBytes 2 data.length ++ leBytes 6 (8 * b2n glob)
    ++ leBytes 8 (if glob then 7 else 5) ++ leBytes 8 0 ++ data)

/-- A state in which port 0, with a session of version 1.2, has rung a request. -/
def asks (s : State) (code : Nat) (glob : Bool) (data : List Byte) : State :=
  { s with ports := [(0, { st := .pending, session := some (1, 2), req := requestArea code [1, 2] glob data })] }

/-- The request of `asks`. -/
def asked (s : State) (code : Nat) (glob : Bool) (data : List Byte) : Req := ((asks s code glob data).port 0).request 0

/-- Whether the controller is to take the request of `asks`, and it passes. -/
def allowed (s : State) (code : Nat) (glob : Bool) (data : List Byte) : Bool :=
  (asks s code glob data).servesCommand 0 code && (asks s code glob data).nextPort == some 0 && decide (s.cfg.swaps = [])
    && (asked s code glob data).code == code && decide ((asks s code glob data).verdict (asked s code glob data) = .pass)

theorem ready_of {s : State} {code : Nat} {glob : Bool} {data : List Byte} (h : allowed s code glob data = true) :
    ready (asks s code glob data) 0 code (asked s code glob data) := by
  simp only [allowed, Bool.and_eq_true, decide_eq_true_eq, beq_iff_eq] at h
  exact ⟨h.1.1.1.1, h.1.1.1.2, h.1.1.2, rfl, h.1.2, h.2⟩

/-- `on` with group 3 of saggar 0. -/
def tenant : State := { on with cfg := groupCfg }

/-- HELLO has version 1.0 in its header. -/
def saysHello (lo hi : Byte) : State :=
  { on with ports := [(0, { st := .pending, req := requestArea 1 [1, 0] false ([1, lo, 1, hi] ++ leBytes 12 0) })] }

/-- Port 1, which has no privilege, rings a privileged command. -/
def unprivileged : State :=
  { on with ports := [(1, { st := .pending, session := some (1, 2), req := requestArea 0x0101 [1, 2] true [0] })] }

theorem witness_CommandChecks : commandRow (.saggarCreate 1) = some (1, 0x0101) ∧ on.taken? 1 0x0101 = none
    ∧ unprivileged.taken? 1 0x0101 = some ((unprivileged.port 1).request 1) ∧ unprivileged.verdict ((unprivileged.port 1).request 1) = .fail erDenied 3 true
    ∧ (unprivileged.port 1).session = some (1, 2) ∧ (1, 2) = ((unprivileged.port 1).request 1).version
    ∧ (cmdSpec 0x0101).any (fun c => decide (c.minor ≤ 2) && (((unprivileged.port 1).request 1).badLength c).isNone
        && (((unprivileged.port 1).request 1).badReserved c).isNone && c.perm == .priv) = true
    ∧ ((unprivileged.port 1).tagCheck ((unprivileged.port 1).request 1)) = none ∧ ((unprivileged.port 1).request 1).saggar = 0
    ∧ unprivileged.privileged 1 = false
    ∧ ({ on with ports := [(0, { st := .pending, req := requestArea 2 [1, 2] false [] })] } : State).taken? 0 2
        = some ((({ on with ports := [(0, { st := .pending, req := requestArea 2 [1, 2] false [] })] } : State).port 0).request 0)
    ∧ (({ on with ports := [(0, { st := .pending, req := requestArea 2 [1, 2] false [] })] } : State).port 0).session = none
    ∧ ({ on with ports := [(0, { st := .pending, session := some (1, 2), lastTag := some 0x0140, stored := [0], req := requestArea 2 [1, 2] false [] })] } : State).verdict
        ((({ on with ports := [(0, { st := .pending, req := requestArea 2 [1, 2] false [] })] } : State).port 0).request 0) = .again := by
  decide +kernel

theorem witness_SessionCommands :
    ready (saysHello 0 2) 0 0x0001 (((saysHello 0 2).port 0).request 0) ∧ (((saysHello 0 2).port 0).request 0).num 4 1 ≤ 2
    ∧ helloVersion (((saysHello 0 2).port 0).request 0) = some (1, 2)
    ∧ ready (saysHello 3 4) 0 0x0001 (((saysHello 3 4).port 0).request 0) ∧ helloVersion (((saysHello 3 4).port 0).request 0) = none
    ∧ allowed on 0x0002 false [] = true
    ∧ allowed on 0x0802 false [0x7E, 0, 0, 0] = true
    ∧ allowed on 0x0803 false [101] = true ∧ (asked on 0x0803 false [101]).num 0 1 = 101
    ∧ allowed on 0x0804 false [0, 0] = true
    ∧ allowed on 0x0801 false [31] = true ∧ (asked on 0x0801 false [31]).num 0 1 < 32
    ∧ allowed on 0x0807 true [] = true := by
  unfold ready; decide +kernel

theorem asks_canonical : canonical (saysHello 0 2) ∧ canonical (asks on 0x0002 false []) := ⟨canonical_of_check (by decide +kernel), canonical_of_check (by decide +kernel)⟩

/-- A SHADOW_WRITE of entries of a table from index `first`. -/
def entries (table first : Nat) (es : List (List Byte)) : List Byte :=
  leBytes 4 table ++ leBytes 4 first ++ leBytes 8 es.length ++ es.flatten

/-- A GROUP entry of ranks 0 and 1. -/
def entry3 : List Byte := leBytes 32 (2 ^ 89 + 2 * 2 ^ 144)

/-- Every saggar number in use. -/
def full : State := { on with cfg := { on.cfg with saggars := (List.range 4096).map (fun k => (k, { inUse := true })) } }

theorem witness_ConfigurationCommands :
    allowed on 0x0101 true [17] = true ∧ (asked on 0x0101 true [17]).num 0 1 ≤ 17 ∧ (on.cfg.sag 0).inUse = false
    ∧ allowed tenant 0x0102 false [] = true ∧ (asked tenant 0x0102 false []).glob = false
    ∧ (tenant.cfg.sag 0).inUse = true
    ∧ allowed tenant 0x0103 false [0, 0] = true
    ∧ allowed tenant 0x0111 false (entries 1 3 [entry3]) = true
    ∧ tenant.conflicts (asked tenant 0x0111 false (entries 1 3 [entry3])) = false
    ∧ tenant.badWrite (asked tenant 0x0111 false (entries 1 3 [entry3])) = none
    ∧ tenant.conflicts { asked tenant 0x0111 false (entries 1 3 [entry3]) with checkGen := true, gen := 1 } = true
    ∧ allowed tenant 0x0111 false (entries 1 16 [entry3]) = true
    ∧ tenant.badWrite (asked tenant 0x0111 false (entries 1 16 [entry3])) = some 36
    ∧ allowed on 0x0111 true (entries 0x14 0 [[10, 0]]) = true
    ∧ on.badWrite (asked on 0x0111 true (entries 0x14 0 [[10, 0]])) = none
    ∧ allowed tenant 0x0112 false [1, 1, 0, 0, 3, 0, 0, 0, 1, 0] = true
    ∧ tableFits false 1 = true ∧ tenant.cfg.tableRange 0 1 = (0, 16)
    ∧ allowed tenant 0x0113 false [] = true ∧ tenant.badCommit (some 0) = none
    ∧ (emptyGroup.badCommit (some 0)).isSome = true
    ∧ allowed on 0x0113 true [] = true ∧ on.badCommit none = none
    ∧ allowed on 0x0114 true [] = true
    ∧ allowed tenant 0x0114 false [] = true
    ∧ allowed on 0x0806 true (entries 0x14 0 [[10, 0]]) = true
    ∧ allowed on 0x0806 true (entries 0x14 0 [[9, 0]]) = true
    ∧ on.badWrite (asked on 0x0806 true (entries 0x14 0 [[9, 0]])) = some 48
    ∧ allowed tenant 0x0806 true (entries 1 3 [entry3]) = true
    ∧ tenant.pokeTarget (asked tenant 0x0806 true (entries 1 3 [entry3])) = some 0
    ∧ tenant.badWrite { asked tenant 0x0806 true (entries 1 3 [entry3]) with glob := false, saggar := 0 } = none := by
  decide +kernel

theorem tenant_canonical : canonical (asks tenant 0x0111 false (entries 1 3 [entry3])) := canonical_of_check (by decide +kernel)

theorem tget_of_mem {α : Type} (d v : α) {j : Nat} : ∀ {t : Table α}, (∀ e ∈ t, e.1 = j → e.2 = v) → (∃ e ∈ t, e.1 = j) → tget d t j = v
  | [], _, h => by simp at h
  | (k, w) :: t, h, hx => by
    simp only [tget]
    split
    · rename_i e; exact h (k, w) (by simp) e
    · rename_i e
      obtain ⟨y, hy, hk⟩ := hx
      refine tget_of_mem d v (fun z hz => h z (by simp [hz])) ⟨y, ?_, hk⟩
      rcases List.mem_cons.1 hy with rfl | h'
      · exact absurd hk e
      · exact h'

theorem full_in_use (j : Nat) (h : j < 4096) : (full.cfg.sag j).inUse = true := by
  have e : full.cfg.sag j = { inUse := true } := tget_of_mem _ _ (by simp [full]) ⟨(j, { inUse := true }), by simp [full, h], rfl⟩
  rw [e]

/-- A snapshot of the block held by port 0 under number 1. -/
def snap0 : Snapshot := on.cut 1 0 none

/-- `on` with `snap0`, and the same after a global commit. -/
def snapped (gen : BitVec 32) : State := { on with ctl := { on.ctl with snaps := [snap0] }, cfg := { on.cfg with activeGen := gen } }

/-- Two other ports hold snapshots. -/
def crowded : State := { on with ctl := { on.ctl with snaps := [{ snap0 with port := 1 }, { snap0 with port := 2, id := 2 }] } }

theorem witness_StateReads : allowed on 0x0201 false (leBytes 2 0x0E ++ [0, 0] ++ leBytes 4 1023 ++ leBytes 4 1) = true
    ∧ (asked on 0x0201 false (leBytes 2 0x0E ++ [0, 0] ++ leBytes 4 1023 ++ leBytes 4 1)).num 2 1 = 0
    ∧ itemShape 0x0E = some (1, 1024) ∧ on.itemDenied (asked on 0x0201 false (leBytes 2 0x0E ++ leBytes 10 0)) none 0x0E = none
    ∧ on.itemSpan (asked on 0x0201 false (leBytes 2 0x0E ++ leBytes 10 0)) none 0x0E = (0, 1024)
    ∧ allowed on 0x0201 false (leBytes 2 0x0E ++ [1, 0] ++ leBytes 8 0) = true
    ∧ on.ctl.snaps.find? (fun x => x.port == 0 && x.id == 1) = none
    ∧ allowed (snapped 1) 0x0201 false (leBytes 2 0x03 ++ [1, 0] ++ leBytes 8 0) = true
    ∧ ((snapped 1).ctl.snaps.find? (fun x => x.port == 0 && x.id == 1)).any (fun x => (snapped 1).staleItem x false 0 0x03 && !(snapped 1).staleItem x false 0 0x0E) = true
    ∧ allowed (snapped 1) 0x0201 false (leBytes 2 0x0E ++ [1, 0] ++ leBytes 8 0) = true
    ∧ allowed on 0x0202 true [] = true ∧ (on.ctl.snaps.filter (fun x => x.port != 0)).length < 2
    ∧ allowed crowded 0x0202 true [] = true ∧ 2 ≤ (crowded.ctl.snaps.filter (fun x => x.port != 0)).length
    ∧ allowed (snapped 0) 0x0203 false [1] = true ∧ (snapped 0).ctl.snaps.any (fun x => x.port == 0 && x.id == 1) = true := by
  decide +kernel

/-- A request by firing number 1. -/
def byFn : List Byte := leBytes 8 0 ++ leBytes 6 1 ++ leBytes 10 0

/-- The block with one firing and group 3 of saggar 0. -/
def tenantKiln (f : Firing) : State := { tenant with kiln := { on.kiln with firings := [f], nextUid := 1 } }

theorem witness_FiringsAndCounters : (asked (tenantKiln granted0) 0x0301 false byFn).num 0 1 ≤ 1
    ∧ (tenantKiln granted0).selected (asked (tenantKiln granted0) 0x0301 false byFn) = some granted0
    ∧ granted0.saggar = (asked (tenantKiln granted0) 0x0301 false byFn).saggar
    ∧ allowed (tenantKiln granted0) 0x0301 false byFn = true ∧ allowed (tenantKiln granted0) 0x0302 false byFn = true ∧ granted0.decided = none
    ∧ (tenantKiln { granted0 with st := .ended, endMsg := some done0 }).selected
        (asked (tenantKiln { granted0 with st := .ended, endMsg := some done0 }) 0x0302 false byFn) = some { granted0 with st := .ended, endMsg := some done0 }
    ∧ ({ granted0 with st := .ended, endMsg := some done0 } : Firing).decided = some stOk
    ∧ allowed on 0x0401 true (leBytes 4 0x0C0A ++ leBytes 4 0 ++ leBytes 4 1 ++ [1]) = true ∧ counterKind 0x0C0A = some .block
    ∧ CounterKind.hi .block 0 = some 1 ∧ CounterKind.owned .block 0 = false
    ∧ allowed on 0x0805 true [0, 0, 0xFF, 3, 3, 0] = true ∧ on.leafExists 1023 = true ∧ (tget {} (on.leaf 1023).bisque 3).tags = []
    ∧ (tget {} ((leaf0 { bisque := [(3, { tags := [0] })] }).leaf 0).bisque 3).tags ≠ []
    ∧ allowed on 0x0805 true [1, 0, 0, 0, 255, 63] = true ∧ (on.kacc 255).holder = none := by decide +kernel

/-- Saggar 0 with digest accumulator 0 open under tag 9. -/
def opened : State := { tenant with kiln := { tenant.kiln with digests := [(0, { isOpen := true, tag := 9, opening := 1 })], openings := 1 } }

/-- A DIGEST_OPEN of a tag. -/
def openTag (t : Nat) : List Byte := leBytes 8 t ++ leBytes 8 0x55

theorem witness_DigestCommands : allowed tenant 0x0501 false (openTag 0xFFFF) = true ∧ allowed opened 0x0501 false (openTag 9) = true
    ∧ (opened.digestUnder 0 9).isSome = true ∧ allowed tenant 0x0501 false (openTag 0xFFFE) = true ∧ tenant.digestUnder 0 0xFFFE = none
    ∧ tenant.kiln.openDigests 0 < qDigest (tenant.cfg.quota 0) ∧ (tget {} tenant.kiln.digests 0).isOpen = false
    ∧ qDigest (({ tenant with cfg := { groupCfg with active := { groupCfg.active with quota := [] } } } : State).cfg.quota 0) ≤ 0
    ∧ allowed { tenant with cfg := { groupCfg with active := { groupCfg.active with quota := [] } } } 0x0501 false (openTag 1) = true
    ∧ allowed opened 0x0502 false [9, 0, 1] = true ∧ opened.digestUnder 0 9 = some (0, { isOpen := true, tag := 9, opening := 1 })
    ∧ allowed opened 0x0503 false [9, 0] = true ∧ allowed tenant 0x0503 false [9, 0] = true ∧ tenant.digestUnder 0 9 = none
    ∧ allowed on 0x0504 false [] = true := by decide +kernel

/-- A leaf test and a scrub that run. -/
def busyActs : State := { on with ctl := { on.ctl with nextAct := 2, acts := [
  { id := 0, code := 0x02, target := 0, twin := 0, dies := [], kiln := false, port := 0, tag := 1, start := 0, queued := false },
  { id := 1, code := 0x09, target := 5, twin := 0, dies := [0], kiln := false, port := 0, tag := 2, start := 0, queued := false }] } }

theorem witness_MaintenanceCommands : allowed on 0x0601 true [15, 0, 0, 0] = true ∧ on.maskOk 15 = true ∧ allowed on 0x0602 true [] = true
    ∧ allowed on 0x0603 true [8, 1, 0, 0, 1] = true ∧ on.badNode (asked on 0x0603 true [8, 1, 0, 0, 1]) = none ∧ on.siblingOut 264 1 = false
    ∧ allowed on 0x0604 true [8, 1, 0, 0, 3] = true ∧ on.siblingOut 264 3 = false ∧ 264 / 4 % 2 = 0
    ∧ allowed on 0x0605 true [8, 1, 0, 0, 1] = true ∧ allowed on 0x0606 true [3, 0, 0, 0, 15, 0, 0, 0] = true
    ∧ on.badPlane (asked on 0x0606 true [3, 0, 0, 0, 15, 0, 0, 0]) = none ∧ on.onlyPlane 3 [0] = false
    ∧ allowed on 0x0607 true [3, 0, 0, 0, 15, 0, 0, 0] = true ∧ allowed on 0x0608 true [0xFF, 3] = true ∧ allowed on 0x0609 true [0xFF, 3] = true
    ∧ on.leafExists 1023 = true ∧ allowed on 0x060A false [] = true
    ∧ on.ctl.judge ((asked on 0x0602 true []).act 0x02 0 0 [] false) = .start
    ∧ busyActs.ctl.judge ((asked on 0x0602 true []).act 0x02 0 0 [] false) = .refuse
    ∧ busyActs.ctl.judge ((asked on 0x0601 true []).act 0x01 0 0 [0] false) = .queue
    ∧ (busyActs.ctl.acts.find? (fun x => x.id == 0 && !x.queued)).any (fun a => a.code == 0x02) = true
    ∧ (busyActs.ctl.acts.find? (fun x => x.id == 1 && !x.queued)).any (fun a => a.code == 0x09) = true
    ∧ busyActs.leafTestFailed 5 [.leaf 5] = true ∧ busyActs.leafTestFailed 5 [] = false := by decide +kernel

/-! ### Witnesses: firmware, exceptions, the other ports -/

/-- The inactive bank holds an image in a state. -/
def banked (st : BankState) : State := { on with ctl := { on.ctl with bankB := (({} : Bank).fetched image).named st } }

/-- A new image has served since time 0. -/
def confirming : State := { on with time := 100000000, ctl := { on.ctl with confirm := some (true, 0) } }

/-- An activation whose new image is in bank B, before or after the first time that the controller serves. -/
def switching (booted : Bool) : State := { banked .verified with
  ctl := { (banked .verified).ctl with phase := .switching, booted := booted } }

/-- The same with a new image that fails its check, and the old one in bank A. -/
def falling (booted : Bool) : State := { on with ctl := { on.ctl with
  phase := .switching, booted := booted, bankA := (({} : Bank).fetched image).named .active } }

/-- FW_STAGE of one byte at the end of the bank, and one byte beyond. -/
def stageAt (off : Nat) : List Byte := leBytes 4 off ++ leBytes 2 1 ++ leBytes 10 0 ++ [0xAA]

theorem witness_FirmwareAndExceptions : allowed on 0x0704 false [] = true ∧ allowed on 0x0701 true (stageAt 0x7FFFF) = true ∧ on.ctl.background = none
    ∧ (asked on 0x0701 true (stageAt 0x7FFFF)).num 0 4 + (asked on 0x0701 true (stageAt 0x7FFFF)).num 4 2 ≤ 0x80000
    ∧ allowed on 0x0701 true (stageAt 0x80000) = true
    ∧ 0x80000 < (asked on 0x0701 true (stageAt 0x80000)).num 0 4 + (asked on 0x0701 true (stageAt 0x80000)).num 4 2
    ∧ allowed on 0x0702 true [] = true ∧ on.ctl.verifyFails = some 2
    ∧ allowed (banked .verified) 0x0703 true [2, 4, 1, 0] = true ∧ (banked .verified).ctl.spare.st = .verified
    ∧ (banked .verified).ctl.spare.major.toNat = 2 ∧ (banked .verified).ctl.spare.minor.toNat = 4 ∧ (banked .verified).ctl.spare.patch.toNat = 1
    ∧ (served (banked .verified) 0).ctl.judge ((asked (banked .verified) 0x0703 true [2, 4, 1, 0]).act 0x0A 0 0 [] false) = .start
    ∧ allowed on 0x0703 true [2, 4, 1, 0] = true ∧ on.ctl.spare.st ≠ .verified
    ∧ ({ on with ctl := { on.ctl with background := some (0, 7, [1]) }, ports := [(0, { st := .working, curTag := 7, lastTag := some 7 })] } : State).ctl.background
        = some (0, 7, [1])
    ∧ (({ on with ports := [(0, { st := .working, curTag := 7, lastTag := some 7 })] } : State).port 0).lastTag = some 7
    ∧ (on.port 0).st ≠ .working ∧ (on.port 0).lastTag ≠ some 7
    ∧ confirming.ctl.confirm = some (true, 0) ∧ confirming.ctl.phase = .serving ∧ confirming.passed 0 100000000 = true
    ∧ ({ confirming with time := 99999990 } : State).passed 0 100000000 = false
    ∧ (inPhase .switching).ctl.fallsBack = true ∧ imageValid ((inPhase .switching).ctl.bank false).image = false
    ∧ on.ctl.fallsBack = false ∧ imageValid (inPhase .switching).ctl.spare.image = false
    ∧ (inPhase .restarting).ctl.phase = .restarting ∧ (inPhase .restarting).ctl.imageOk = true ∧ (inPhase .restarting).ctl.confirm = none := by
  decide +kernel

/-- The controller takes the hardware path for a stack pointer that is no multiple of 8, on its emergency stack, and for the watchdog 10 ms
after its last restart. -/
theorem witness_Exceptions : on.ctl.onEmergency = false ∧ (0x1004 : Word).toNat % 8 ≠ 0 ∧ on.ctl.excCause .core 0x1004 = some .badStack
    ∧ on.ctl.excCause .ramError 0 = some .ramError
    ∧ ({ on.ctl with stackHigh := BitVec.allOnes 32, stackLow := 0 } : Controller).onEmergency = false
    ∧ ({ on.ctl with onEmergency := true } : Controller).excCause .core 0x1000 = some .onEmergency
    ∧ (inPhase .inReset).ctl.phase = .inReset ∧ on.ctl.phase ≠ .zeroing
    ∧ ({ on with time := 10000000 } : State).timedOut ({ on with time := 10000000 } : State).ctl.wdFrom 10000000 = true
    ∧ on.timedOut on.ctl.wdFrom 10000000 = false := by decide +kernel

set_option maxRecDepth 50000 in
theorem banked_check : ((({} : Bank).fetched image).image == image) = true := by decide +kernel

theorem named_image (b : Bank) (x : BankState) : (b.named x).image = b.image := rfl

theorem banked_image (x : BankState) : ((({} : Bank).fetched image).named x).image = image := (named_image _ x).trans (eq_of_beq banked_check)

/-- Where the free verdict accepts, FW_VERIFY finds nothing wrong, and the switch and a fallback have a valid image. -/
theorem witness_FirmwareImages (h : ∀ d r s, Config.signatureValid d r s = true) :
    (banked .staged).ctl.verifyFails = none
    ∧ imageValid (switching true).ctl.spare.image = true
    ∧ (∀ b, imageValid ((falling b).ctl.bank (falling b).ctl.activeB).image = true) := by
  refine ⟨?_, ?_, fun b => ?_⟩
  · have e : (banked .staged).ctl.spare.image = image := banked_image .staged
    simp only [Controller.verifyFails, e, imageSigned, h, image_sound.1, image_sound.2]
    decide +kernel
  · exact (banked_image .verified).symm ▸ image_valid h
  · exact (banked_image .active).symm ▸ image_valid h

theorem witness_SmbusTarget : on.awake = true ∧ (9 : Byte).toNat &&& 0xF6 = 0 ∧ 0x200C % 4 = 0 ∧ 0x200C < 2 ^ 16
    ∧ ({ on with smb := { on.smb with running := true } } : State).smb.running = true
    ∧ ({ on with smb := { on.smb with running := true } } : State).smb.attempts = 0 ∧ NotifyResult.nack ≠ .acked
    ∧ ({ on with smb := { on.smb with running := true, attempts := 3 }, time := 1000000 } : State).smb.attempts = 3
    ∧ ({ on with smb := { on.smb with running := true, attempts := 3 }, time := 1000000 } : State).smb.since.toNat + 1000000
        ≤ ({ on with smb := { on.smb with running := true, attempts := 3 }, time := 1000000 } : State).time.toNat
    ∧ ({ on with smb := { on.smb with running := true, attempts := 2 } } : State).smb.attempts < 3 := by decide +kernel

/-- The trace on, with one record waiting. -/
def tracing (dropped : BitVec 32) : State := { on with trace := { on.trace with cfg := 0x80000000, queue := [5], dropped := dropped } }

theorem witness_TestAndTrace : on.awake = true ∧ (tracing 0).awake = true ∧ (tracing 0).refLost = false ∧ bitOf (tracing 0).trace.cfg.toNat 31 = true
    ∧ (tracing 0).trace.dropped = 0 ∧ (tracing 0).trace.queue = 5 :: [] ∧ (tracing 1).trace.dropped ≠ 0
    ∧ bitOf (tracing 1).trace.cfg.toNat 31 = true ∧ (0 : Word) ≠ 0xC0800000 := by decide +kernel

/-- A gateway with a package rank and group 3; buffer 63 in a state. -/
def gate (t : TxBuf) : State := { tenant with gw := { tenant.gw with rank := some 6, tx := [(63, t)] } }

/-- A header of group 3 for box 2 of a package, with FP32 content. -/
def header3 (dst : Nat) : BitVec 128 := BitVec.ofNat 128 (dst * 2 ^ 112 + 3 * 2 ^ 76 + 2 * 2 ^ 44 + 1 * 2 ^ 20)

/-- A flit of package 9 for this package's box 2, the first of two. -/
def inbound : BitVec 664 := gwFlit ((header3 6).toNat + 9 * 2 ^ 96 + 1 * 2 ^ 32 + 4 * 2 ^ 25) (List.replicate 64 7)

/-- A gateway whose box 2 is given. -/
def boxed (x : RxBox) : State := { tenant with gw := { tenant.gw with rank := some 6, box := [(2, x)] } }

theorem witness_GatewayPort : on.awake = true ∧ on.gw.rank = none ∧ (gate {}).gw.rank ≠ none
    ∧ (gate {}).gwMember 0 (hGroup (header3 9).toNat) = true ∧ ((gate {}).txBuf 63).st = 0
    ∧ ((gate { st := 1, owner := 0, hdr := header3 9 }).txBuf 63).st = 1 ∧ (gate {}).gwMember 1 3 = false
    ∧ gwAligned 4080 16 = true ∧ 4080 + 16 ≤ 4096 ∧ (gate { st := 1, owner := 0, hdr := header3 9 }).gwMember 0 3 = true
    ∧ goInvalid (header3 9).toNat 4096 = false ∧ goInvalid (header3 9).toNat 4097 = true
    ∧ ({ gate { st := 1, owner := 0, hdr := header3 9 } with gw := { (gate { st := 1, owner := 0, hdr := header3 9 }).gw with rank := none } } : State).gw.rank = none
    ∧ (gate { st := 1, owner := 1, hdr := header3 9 }).gwMember 1 3 = false ∧ (256 : BitVec 16) ≠ 0
    ∧ (gate { st := 1, owner := 0, hdr := header3 9 }).gwMember 256 3 = true
    ∧ ((gate { st := 2, hdr := BitVec.ofNat 128 (fillHeader (header3 9).toNat 6 65) }).txBuf 63).st = 2
    ∧ hDst (fillHeader (header3 9).toNat 6 65) ≠ hSrc (fillHeader (header3 9).toNat 6 65)
    ∧ hDst (fillHeader (header3 6).toNat 6 65) = hSrc (fillHeader (header3 6).toNat 6 65)
    ∧ ((gate { st := 1 }).txBuf 63).since.toNat + 1000000 ≤ ({ gate { st := 1 } with time := 1000000 } : State).time.toNat := by decide +kernel

set_option maxRecDepth 50000 in
theorem witness_GatewayFlits : numAt (gwBytes inbound) 80 3 = crc24 ((gwBytes inbound).take 80)
    ∧ numAt (gwBytes (inbound ^^^ 1)) 80 3 ≠ crc24 ((gwBytes (inbound ^^^ 1)).take 80) ∧ hDst (numAt (gwBytes inbound) 0 16) = 6
    ∧ hBox (numAt (gwBytes inbound) 0 16) = 2 ∧ ((boxed {}).rxBox 2).st = 0 ∧ hKey 0 ≠ hKey (numAt (gwBytes inbound) 0 16)
    ∧ ((boxed { st := 1 }).rxBox 2).st = 1 ∧ ((boxed { st := 2, hdr := BitVec.ofNat 128 (numAt (gwBytes inbound) 0 16) }).rxBox 2).st = 2
    ∧ hRecord (numAt (gwBytes inbound) 0 16) ≠ hRecord 0 ∧ hFlit (numAt (gwBytes inbound) 0 16) ∉ ({ st := 1 } : RxBox).got
    ∧ ((boxed { st := 1 }).rxBox 2).since.toNat + 10000000 ≤ ({ boxed { st := 1 } with time := 10000000 } : State).time.toNat
    ∧ ({ boxed {} with gw := { (boxed {}).gw with hold := some inbound } } : State).gw.hold = some inbound
    ∧ (boxed { st := 1, hdr := header3 6 }).gwMember 0 (hGroup (header3 6).toNat) = true := by decide +kernel

/-! ### Witnesses: the clauses beside those above -/

/-- A leaf port 0 in a state, and its block as a `LeafPort` sees it. -/
def port0 (p : LeafPort) : LeafPort := (leaf0 p).leaf 0

theorem witness_BlockReset_rest : on.ctl.phase ≠ .inReset ∧ canonical State.reset := ⟨by decide, canonical_of_check (by decide +kernel)⟩

theorem witness_BootImage_rest : (inPhase .serving).ctl.phase ≠ .zeroing ∧ ((inPhase .readImage).ctl.bank false).fetched [] = {}
    ∧ ({ on.ctl with phase := .restarting, imageOk := false } : Controller).phase = .restarting
    ∧ ({ on.ctl with phase := .restarting, imageOk := false } : Controller).confirm = none
    ∧ (({} : Bank).fetched [7]).bytes ≠ [] ∧ ({ on.ctl with tryB := true } : Controller).tryB ≠ on.ctl.activeB ∧ on.ctl.tryB = on.ctl.activeB
    ∧ on.ctl.phase ≠ .readImage ∧ (inPhase .restarting).ctl.imageOk = true := by decide +kernel

theorem witness_Startup_rest : on.ctl.phase ≠ .readConfig ∧ on.ctl.phase ≠ .selfTest ∧ on.ctl.phase ≠ .firstCommit ∧ on.ctl.phase ≠ .beforeServe
    ∧ (inPhase .readConfig).ctl.selfTested = true ∧ (inPhase .readConfig).passesDone = false
    ∧ ({ inPhase .readConfig with dies := pacing.dies.map (fun e => (e.1, { e.2 with passed := true })) } : State).passesDone = true
    ∧ (inPhase .beforeServe).ctl.noRecord = false := by decide +kernel

theorem witness_ReferenceAndPace_rest : State.reset.awake = false ∧ ({ on with paceMode := true, paceLocked := true } : State).paceActive = true
    ∧ on.paceActive = false ∧ ({ on with paceMode := true } : State).paceLocked = false ∧ on.kiln.paceHold = false
    ∧ (∃ f ∈ (kiln0 [{ firing0 with st := .granted }]).kiln.firings, f.st = .granted)
    ∧ on.dieLive 0 = true ∧ (on.die 0).moved on.paceWanted = false := by decide +kernel

theorem witness_LeafControl_rest : on.leafLive 1024 = false ∧ ((leaf0 { enable := true }).leaf 0).enable = true
    ∧ BitVec.ofNat 4 (slice (0x0C01 : Word).toNat 8 4) = ((leaf0 { enable := true }).leaf 0).chunkLog2
    ∧ bitOf (0x0B00 : Word).toNat 0 = false ∧ BitVec.ofNat 4 (slice (0x0B00 : Word).toNat 8 4) ≠ ((leaf0 { enable := true }).leaf 0).chunkLog2
    ∧ ((leaf0 { ringBase := 0xFFFF9000 }).leaf 0).ringOk = false := by decide +kernel

theorem witness_LeafReset_rest : ((leaf0 { resetBusy := true, taken := [fresh] }).leaf 0).allEnded = false
    ∧ (∃ x ∈ ((leaf0 { resetBusy := true, taken := [{ fresh with ended := some done0, writes := [(0, 1)] }] }).leaf 0).taken, x.writes ≠ [])
    ∧ (∀ x ∈ ((leaf0 { resetBusy := true, taken := [{ fresh with ended := some done0 }] }).leaf 0).taken, x.writes = []
        ∧ (leaf0 { resetBusy := true, taken := [{ fresh with ended := some done0 }] }).allTaken 0 x = true) := by decide +kernel

theorem witness_RegisterWrites_rest : ((leaf0 { ringLog2 := 0, ringTail := 2 }).leaf 0).e < (((leaf0 { ringLog2 := 0, ringTail := 2 }).leaf 0).ringTail
      - ((leaf0 { ringLog2 := 0, ringTail := 2 }).leaf 0).ringHead).toNat
    ∧ (2 : Word).setWidth 16 = ((leaf0 { ringLog2 := 0, ringTail := 2 }).leaf 0).ringTail
    ∧ ((leaf0 { taken := [fresh] }).leaf 0).outstanding ≠ 0 ∧ ¬ ((3 : Nat) % 4 = 0) ∧ 0x1FFF < 0x2000
    ∧ (¬ ((((5 : Word).setWidth 16 - (ring2.leaf 0).ringHead : BitVec 16).toNat ≤ (ring2.leaf 0).e) ∧ False)) := by decide +kernel

theorem witness_PushAndDrain_rest : ((leaf0 { resetBusy := true }).leaf 0).resetBusy = true ∧ ¬ (8 % 16 = 0) ∧ (on.leaf 0).resetBusy = false
    ∧ ¬ (2 = tiled.desc.inF) ∧ (∀ x, (on.leaf 0).inSlot 0 = some x → x.tilesIn ≤ 0)
    ∧ (leaf0 { resetBusy := true, taken := [tiled] }).leafLive 0 = true := by
  have e : (on.leaf 0).inSlot 0 = none := by decide +kernel
  exact ⟨by decide +kernel, by decide, by decide, by decide +kernel, fun x h => by simp [e] at h, by decide +kernel⟩

/-- Sixteen firings of group 3 taken, so that a seventeenth is held. -/
def crowdedRing : LeafPort := { running with taken := (List.range 16).map (fun i => { fresh with cnt := BitVec.ofNat 16 (100 + i) }) }

theorem witness_TakeDescriptor_rest : (on.leaf 0).running = false
    ∧ (port0 { running with held := [(0, sumWords, [])] }).firstFree [] (port0 { running with held := [(0, sumWords, [])] }).held
        = some (0, sumWords, [])
    ∧ (port0 crowdedRing).takeRule [] (port0 crowdedRing).next sumWords ≠ .free ∧ canonical (leaf0 crowdedRing)
    ∧ (port0 crowdedRing).running = true ∧ (port0 crowdedRing).next ≠ (port0 crowdedRing).ringTail
    ∧ passInvalid (passWords 7 0 0) ≠ none ∧ isPass (passWords 7 0 0) = true
    ∧ (port0 { running with bisque := [(1, { tags := [9] })], taken := [{ fresh with cnt := 9 }] }).tagHeld (passIdx (passWords 0 0 0)) = true := by
  refine ⟨by decide +kernel, by decide +kernel, by decide +kernel, canonical_of_check (by decide +kernel), by decide +kernel, by decide +kernel,
    by decide +kernel, by decide +kernel, by decide +kernel⟩

theorem witness_SendArm_rest : ((leaf0 { failed := true }).leaf 0).failed = true
    ∧ (on.leaf 0).taken.find? (fun t => t.phase == .taken && t.ended.isNone) = none
    ∧ tail0.desc.ragTail = true ∧ tail0.invalid = none ∧ tail0.probe = none ∧ ({ tail0 with probe := some 4 } : Taken).probe ≠ none
    ∧ ({ on with paceMode := true, paceLocked := true } : State).paceActive = true ∧ fresh.stagedFor (on.leaf 0).chunk = false
    ∧ ({ fresh with chunks := [⟨.src, 0, some []⟩] } : Taken).stagedFor (on.leaf 0).chunk = true ∧ tail0.desc.count ≤ 4 := by decide +kernel

theorem witness_Chunks_rest : run0.mayRead (port0 {}).chunk 0 0 ⟨.src, 0, 0x1000, 32, 0x40, 8, true⟩ = true
    ∧ staged.mayRead (port0 {}).chunk 0 0 ⟨.src, 0, 0x1000, 32, 0x40, 8, true⟩ = false
    ∧ (∀ w ∈ run0.writes, ¬ (0x2000 ≤ w.1 ∧ w.1 < 0x2000 + 32)) ∧ ¬ 1 ∈ run0.badAt := by decide +kernel

theorem witness_BisquePasses_rest : (on.leaf 0).pass 0 = none ∧ ((passing 1 0 {}).leaf 0).pass 2 = none
    ∧ (sherdSum (none, false) [{}, {}]).2 = false ∧ readOneSherd (padTo sherdMax [0xFF, 0xFF]) = none
    ∧ readOneSherd (padTo sherdMax (leBytes 8 absentHeader)) = some none ∧ passFirst (pass0 2 1).words = true ∧ ({} : Bisque).st ≠ .held
    ∧ passFirst (pass0 5 0).words = false ∧ ({ st := .held } : Bisque).st = .held
    ∧ (tget {} ((passing 2 0 { damaged := true }).leaf 0).bisque (passIdx (pass0 2 0).words)).damaged = true
    ∧ ((passing 2 0 { damaged := true }).leaf 0).pass 2 = some (pass0 2 0)
    ∧ (tget {} ((passing 6 0 { st := .empty }).leaf 0).bisque (passIdx (pass0 6 0).words)).st ≠ .neverWritten := by decide +kernel

/-- A sum that falls outside the sherds' range. -/
theorem witness_BisqueRange : ∃ xs : List Sherd, (sherdSum (none, false) xs).2 = true := by
  exact ⟨[{ fin := 2 ^ 6000 }, {}], by decide +kernel⟩

/-- A node pair that is out. -/
def lost (ix : Nat) : State := { on with nodes := [(ix, { stat := { pairOut := true } })], ctls := [(ix, { stat := { pairOut := true } })] }

theorem witness_Arming_rest : isCtlIx 264 = false ∧ ((lost 268).ctlNode 268).stat.pairOut = true ∧ takeInput 1 (armed.ctlNode 268).inq = none
    ∧ ({ arm0 with first := true } : Arm).first = true
    ∧ (useRec [] none 3).1 = none ∧ on.foreignArm (some (rec3 [0])) (qOf 268) 3 0 = true
    ∧ ((lost (nodeIx 0 true 0)).ctlNode (nodeIx 0 true 0)).stat.pairOut = true ∧ takeInput 1 armed.kiln.inq = none
    ∧ ({ arm0 with reset := true } : Arm).reset = true
    ∧ (({ armed with kiln := { armed.kiln with groups := [(3, { base := 1 })] } } : State).groupRun 3).base = 1
    ∧ ({ armed with kiln := { armed.kiln with groups := [(3, { nextOrd := 1 })] } } : State).posOver 3 0 = true
    ∧ armed.posOver 3 0 = false ∧ ({ arm0 with late := true } : Arm).late = true ∧ ({ arm0 with abort := true } : Arm).abort = true
    ∧ (kiln0 [{ firing0 with st := .arming }]).posAt 3 0 = some { firing0 with st := .arming }
    ∧ ({ firing0 with st := .arming } : Firing).cause = none
    ∧ (∀ i ∈ (rec3 [0]).inputs, armed.inputDone 0 3 i (addOnce [] 0) = true) := by decide +kernel

/-- Nodes with an end message to copy down, granted or not, to one leaf port or to every member. -/
def endingDown (e : EndMsg) : State := { on with ctls := [(12, { downq := [.done e [0]] }), (268, { downq := [.release e [0] true] })] }

theorem witness_DownwardMessage_rest : (on.ctlNode 268).downq = [] ∧ bitOf grant0.planes.toNat 0 = true
    ∧ ((endingDown done0).ctlNode 12).downq = .done done0 [0] :: [] ∧ ((endingDown done0).ctlNode 268).downq = .release done0 [0] true :: []
    ∧ done0.noGrant = false ∧ ({ done0 with noGrant := true } : EndMsg).noGrant = true
    ∧ ({ done0 with noGrant := true, target := 256 } : EndMsg).target ≠ 0xFFFF ∧ done0.target = 0xFFFF := by decide +kernel

/-- A firing that feeds kiln accumulator 0, never written, and one that deposits into a region that does not exist. -/
def feeding : Firing := { firing0 with arm := { arm0 with desc := wd [(0, 1), (8, 1), (16, 1), (24, 1), (32, 3), (128, 4), (603, 1)] } }

theorem witness_Grant_rest : ({ on with kiln := { on.kiln with admitStopped := true } } : State).kiln.admitStopped = true
    ∧ pacing.kiln.paceHold = true ∧ on.offer.pickGrant = none ∧ (kiln0 [feeding]).kaccCheck feeding = some (stNeverWritten, 0)
    ∧ (kiln0 [firing0]).kaccCheck firing0 = none
    ∧ (kiln0 [{ firing0 with arm := { arm0 with desc := wd [(0, 0xB), (32, 3), (128, 4), (16, 1), (24, 1)] } }]).depCheck
        { firing0 with arm := { arm0 with desc := wd [(0, 0xB), (32, 3), (128, 4), (16, 1), (24, 1)] } } = some (stDenied, 0)
    ∧ (kiln0 [firing0]).firing? firing0.uid = some firing0 := by decide +kernel

theorem witness_GrantReceive_rest : ((leaf0 { failed := true }).leaf 0).failed = true
    ∧ ((leaf0 { inbox := [.grant grant0 [0]] }).leaf 0).runningOf grant0 = none
    ∧ ((leaf0 { inbox := [.grant grant0 [0]] }).leaf 0).taken.find?
        (fun t => t.phase == .waiting && t.ended.isNone && t.desc.group == grant0.group.toNat) = none
    ∧ ((leaf0 { inbox := [.grant { grant0 with attempt := 1 } [0]], taken := [run1] }).leaf 0).runningOf { grant0 with attempt := 1 } = some run1
    ∧ run1.attempt.toNat < ({ grant0 with attempt := 1 } : GrantMsg).attempt.toNat ∧ ¬ run1.attempt.toNat < grant0.attempt.toNat
    ∧ run1.attempt ≠ ({ grant0 with attempt := 1 } : GrantMsg).attempt := by decide +kernel

/-- `staged` with bisque accumulator 1 among its sources, which is damaged. -/
def fromBisque : Taken := { staged with words := wd [(0, 1), (8, 1), (16, 4), (24, 4), (32, 3), (52, 1), (128, 1), (256, 0x2000), (589, 16), (590, 1)] }

theorem witness_Flits_rest : (on.leaf 0).sender 0 = none ∧ on.linkStops (leafLinkKey 0 .up 0) = false
    ∧ (lost 264).linkStops (leafLinkKey 0 .up 0) = true ∧ (flying.link (leafLinkKey 0 .up 0)).offer ≠ none
    ∧ on.granted? 0 = none ∧ (kiln0 [granted0]).granted? 0 = some granted0
    ∧ on.dataIx 268 = false ∧ ((lost 264).node 264).stat.pairOut = true ∧ ¬ radix (qOf 264) ≤ 15 ∧ radix (qOf 264) ≤ 16
    ∧ on.takeFlit (inLink (qOf 264) (planeOf 264) .up 0) 0 = none
    ∧ ((kiln0 [granted0]).node (nodeIx 1 false 0)).slot? 0 = none ∧ on.downFiring 0 = none
    ∧ (kiln0 [granted0]).activeDown granted0 1 0 = false
    ∧ (kiln0 [{ granted0 with st := .ended, endMsg := some done0 }]).downFiring 0 = some { granted0 with st := .ended, endMsg := some done0 }
    ∧ (kiln0 [{ granted0 with st := .ended, endMsg := some done0 }]).activeDown { granted0 with st := .ended, endMsg := some done0 } 1 0 = true := by
  decide +kernel

theorem witness_Handoff : (on.node 264).ready ≤ (on.node 264).ready ∧ (on.node 264).ready < ({ on.node 264 with outUp := [carry0] } : Node).ready
    ∧ (on.node 264).twinsFor 0 = (true, true) ∧ (alone.node 264).twinsFor 0 = (true, false)
    ∧ ({ stat := { aOut := true } } : Node).twinsFor 0 = (false, true) := by decide +kernel

theorem witness_Twins_rest : on.nodeBuilt 33 = true ∧ on.nodeBuilt 600 = false ∧ ((lost 264).stat 264).pairOut = true ∧ isCtl 264 = false
    ∧ isCtl 268 = true ∧ on.nodeBuilt (qOf 268) = true ∧ (on.ctlNode 268).stat.pairOut = false ∧ (on.ctlNode 268).stat.aOut = false
    ∧ TwinCause.compare ≠ .residue ∧ TwinCause.linkCrc ≠ .compare
    ∧ (({ on with ctls := [(268, { stat := { aOut := true } })] } : State).ctlNode 268).stat.aOut = true
    ∧ (on.link 0).offer = none ∧ (({ on with links := [(8, { failed := true })] } : State).link 8).failed = true ∧ on.leafExists 1024 = false
    ∧ ((leaf0 { ctlA := true }).leaf 0).ctlA = true ∧ ((leaf0 { ctlA := true }).leaf 0).ctlB = false := by decide +kernel

theorem witness_BridgeRetry_rest : isBridge 264 = false ∧ (on.link 8).offer = none
    ∧ ((bridged { waiting := some 0, noReplay := 31 }).link 8).noReplay < 32 ∧ (({} : Link).waiting) = none
    ∧ (({ failed := true } : Link).failed) = true ∧ flitOk ((({} : Link).put true 0 nak0).read true 1) = false
    ∧ (flitOf ((({ waiting := some 0 } : Link).put true 0 { carry0 with flit := { carry0.flit with replay := true } }).read true 0)).replay = true
    ∧ carry0.count = 0 ∧ carry0.count ≠ 1
    ∧ (on.link (keyReverse 8)).resendFrom 5 = none := by decide +kernel

/-- `granted0` on two planes, of which plane 0 has lost its die node of die slot 0. -/
def losing (f : Firing) : State := { kiln0 [f] with cfg := groupCfg, nodes := [(8, { stat := { pairOut := true } })] }

/-- The same with every plane lost there. -/
def losingAll (f : Firing) : State := { kiln0 [f] with
  cfg := groupCfg, nodes := [(8, { stat := { pairOut := true } }), (9, { stat := { pairOut := true } }), (10, { stat := { pairOut := true } }),
                             (11, { stat := { pairOut := true } })] }

theorem witness_LossAndReplay_rest :
    (kiln0 [{ granted0 with planes := [0, 1] }]).planeUp ({ granted0 with planes := [0, 1] } : Firing).pathLeaves 0 = true
    ∧ ([0, 1].filter ((losing { granted0 with planes := [0, 1] }).planeUp ({ granted0 with planes := [0, 1] } : Firing).pathLeaves)) = [1]
    ∧ ([0, 1].filter ((losingAll { granted0 with planes := [0, 1] }).planeUp ({ granted0 with planes := [0, 1] } : Firing).pathLeaves)) = []
    ∧ ({ granted0 with planes := [0, 1] } : Firing).onlyPlane = none ∧ ({ granted0 with latency := true } : Firing).latency = true
    ∧ granted0.ovf = false ∧ granted0.latency = false ∧ granted0.usesPlane = true ∧ firing0.st ≠ .granted
    ∧ on.kiln.firings.find? (fun f => f.st == .granted && f.waitPlane.any (fun p => on.fits (on.heldNeeds f.uid) (f.needs [p]))) = none
    ∧ (kiln0 [{ granted0 with waitPlane := some 0 }]).fits ((kiln0 [{ granted0 with waitPlane := some 0 }]).heldNeeds 0)
        (granted0.needs [pickPlane granted0.planes granted0.fn.toNat]) = true
    ∧ (∀ f, on.granted? 0 = some f → f.ovf = false) ∧ overflowed.preloadRange = false
    ∧ scaleAt { overflowed.desc with intScale := 20 } 1 < -15 ∧ ({ overflowed with attempt := 3 } : Firing).attempt = 3 := by
  have e : on.granted? 0 = none := by decide +kernel
  refine ⟨by decide +kernel, by decide +kernel, by decide +kernel, by decide +kernel, by decide +kernel, by decide +kernel, by decide +kernel,
    by decide +kernel, by decide +kernel, by decide +kernel, by decide +kernel, fun f h => by simp [e] at h, by decide +kernel, by decide +kernel,
    by decide +kernel⟩

theorem witness_Ends_rest : on.kiln.firings.find? (fun f => f.group == 3 && f.seq.toNat == 0 && f.st == .granted) = none
    ∧ (kiln0 [{ granted0 with doneIx := [] }]).ranThrough { granted0 with doneIx := [] } = false ∧ barrier0.desc.kind = 4
    ∧ on.kiln.firings.find? (fun f => f.st == .ended && f.setter == some 0 && f.restEnd.any (fun t => hasCome t on.time)) = none
    ∧ on.takeFlit (leafLinkKey 0 .down 0) 0 = none
    ∧ (flying.takeFlit (leafLinkKey 0 .down 0) 1).any (fun r => r.1.isNone) = true
    ∧ (flying.takeFlit (leafLinkKey 0 .down 0) 0).any (fun r => (r.2.leaf 0).taken.isEmpty) = true
    ∧ (leaf0 { inbox := [.done done0 [0]] }).leaf 0 = { inbox := [.done done0 [0]] } ∧ (port0 { inbox := [.done done0 [0]] }).endsFor done0 = none
    ∧ (port0 { failed := true }).failed = true
    ∧ (∀ a : Nat, ∀ r ∈ run1.lostAreas (ending.leaf 0).chunk done0, ¬ (r.addr ≤ a ∧ a < r.addr + r.len)) := by
  have e : run1.lostAreas (ending.leaf 0).chunk done0 = [] := by decide +kernel
  refine ⟨by decide +kernel, by decide +kernel, by decide +kernel, by decide +kernel, by decide +kernel, by decide +kernel, by decide +kernel,
    rfl, by decide +kernel, by decide +kernel, fun a r h => by simp [e] at h⟩

theorem witness_CompletionRecord_rest : ended0.failedStatus (port0 {}).chunk [] = [] ∧ ended0.recLost = false
    ∧ ((leaf0 { taken := [run1] }).leaf 0).inSlot 0 = some run1 ∧ ((leaf0 { taken := [run1] }).leaf 0).record run1 = none
    ∧ ((leaf0 { taken := [{ ended0 with writes := [(0x2000, 1)] }] }).leaf 0).recordDue { ended0 with writes := [(0x2000, 1)] } = false := by
  decide +kernel

theorem witness_FiringCone_rest : hasCome firing0.coneEnd on.time = true ∧ firing0.service = true ∧ on.refLost = false
    ∧ hasCome ({ firing0 with coneEnd := 10 } : Firing).coneEnd on.time = false
    ∧ (kiln0 [{ firing0 with st := .arming }]).time = firing0.coneEnd ∧ (kiln0 [{ firing0 with st := .arming }]).armsWaiting { firing0 with st := .arming } = false
    ∧ (({ armed with kiln := { armed.kiln with inq := [(0, arm0), (1, arm0)] } } : State).armsWaiting { firing0 with st := .arming }) = true := by
  decide +kernel

theorem witness_BarrierAndFailure_rest : on.kiln.firings.find? (fun f => f.group == 3 && f.st == .armed && f.cause.isNone && f.desc.kind == 4
      && f.ord == (on.groupRun 3).nextOrd) = none
    ∧ (port0 { inbox := [.release done0 [0] false] }).taken.find?
        (fun t => t.phase == .waiting && t.ended.isNone && t.desc.group == done0.group.toNat) = none
    ∧ (port0 { failed := true, inbox := [.release done0 [0] false], taken := [wait0] }).failed = true
    ∧ LeafPort.recordDue { port0 { taken := [wait0] } with taken := [{ wait0 with phase := .running, ended := some done0, stopped := true }] }
        { wait0 with phase := .running, ended := some done0, stopped := true } = true
    ∧ on.leafExists 1024 = false ∧ on.leafMustFail 0 = false ∧ (on.leaf 0).failed = false := by decide +kernel

theorem witness_ConfigWords_rest : State.reset.awake = false
    ∧ ({ on with cfg := { on.cfg with lost := [word0], oneCopy := [word0.bank], badWords := [(word0, .b)] } } : State).cfg.lost = [word0]
    ∧ word0.bank ∈ ({ on with cfg := { on.cfg with oneCopy := [word0.bank] } } : State).cfg.oneCopy ∧ Copy.b ≠ .a
    ∧ (word0, Copy.a.other) ∈ ({ on with cfg := { on.cfg with badWords := [(word0, .b)] } } : State).cfg.badWords
    ∧ (⟨some 0, false, 1, 3⟩ : CfgWord).set.isSome = true := by decide +kernel

theorem witness_MemoryFaults_rest : on.hasMem (.twin 4355 .a) = false ∧ on.hasMem (.twin 264 .a) = true ∧ on.hasMem (.retry 8 0) = true
    ∧ on.hasMem (.setter 1023) = true ∧ on.hasMem (.kacc 255) = true ∧ on.hasMem (.bisque 1023 3) = true ∧ on.hasMem (.digest 4095) = true
    ∧ on.hasMem (.leafStaging 0 0 .src 0) = true ∧ on.hasMem (.leafState 1024) = false
    ∧ MemUnit.countedAt (.twin 264 .a) = .node 264 ∧ MemUnit.countedAt (.leafState 0) = .leaf 0
    ∧ ((lost 264).stat 264).pairOut = true ∧ isBridge 264 = false ∧ on.setterHolder 0 = none
    ∧ (kiln0 [{ firing0 with setter := some 0 }]).setterHolder 0 = some { firing0 with setter := some 0 }
    ∧ on.kaccHolder 0 = none
    ∧ ({ kiln0 [{ feeding with st := .granted, setter := some 0 }] with
          kiln := { (kiln0 [{ feeding with st := .granted, setter := some 0 }]).kiln with kaccs := [(0, { holder := some 0 })] } } : State).kaccHolder 0
        = some { feeding with st := .granted, setter := some 0 }
    ∧ on.kiln.digests.find? (fun e => e.1 == 0) = none ∧ (port0 { failed := true }).failed = true
    ∧ ({ isOpen := true } : DigestAcc).isOpen = true := by decide +kernel

/-- Eight echoes of every link on the paths of die slot 0. -/
def echoes0 : List (EchoLink × List Rat) :=
  (.bridge, List.replicate 8 100) :: ((List.range 16).map (fun c => (.cluster c, List.replicate 8 40)))
    ++ (List.range 256).map (fun l => (.leaf l, List.replicate 8 20))

/-- A leaf is measured where its link, its cluster's and the bridge have eight echoes, and not without. -/
theorem witness_PyroPass_rest : leafDelay echoes0 0 ≠ none ∧ leafDelay echoes0 255 ≠ none ∧ leafDelay [] 0 = none
    ∧ (die0 { measuring := true }).passed ((die0 { measuring := true }).die 0).started 401 = false
    ∧ ({ die0 { measuring := true } with time := 410 } : State).passed ((die0 { measuring := true }).die 0).started 401 = true
    ∧ on.dieLive 4 = false ∧ (on.die 0).sched = false ∧ (on.die 0).measuring = false
    ∧ 0 ∈ (die0 { measuring := true }).measuredLeaves 0 := by decide +kernel

theorem witness_Trims_rest : (on.die 0).newTrims = false
    ∧ (({ die0 { newTrims := true, lastFlip := some 0 } with time := 10000 } : State)).passed 0 10000 = true
    ∧ (({ die0 { newTrims := true, lastFlip := some 0 } with time := 9990 } : State)).passed 0 10000 = false
    ∧ (on.die 0).trimStale = true ∧ ({ passed := true, passedPace := true, trimStale := false } : Die).fresh 0 = true
    ∧ old.passed (old.die 0).measTime 8000000 = true ∧ held.passed (held.die 0).holdStart 4000 = true
    ∧ ({ old with kiln := { old.kiln with quiet := some 1 } } : State).kiln.quiet ≠ none ∧ on.trimQuiet = true ∧ on.calWants 0 = false
    ∧ (!(held.die 0).measuring && !(held.die 0).sched && (held.die 0).passed && hasCome (held.die 0).holdStart (held.die 0).measTime) = false
    ∧ ((die0 { passed := true, quietHold := true }).die 0).quietHold = true
    ∧ ((!((die0 { passed := true, quietHold := true }).die 0).measuring && !((die0 { passed := true, quietHold := true }).die 0).sched
        && ((die0 { passed := true, quietHold := true }).die 0).passed
        && hasCome ((die0 { passed := true, quietHold := true }).die 0).holdStart ((die0 { passed := true, quietHold := true }).die 0).measTime) = true) := by
  decide +kernel

theorem witness_Slots_rest : ({ on with time := 10 } : State).atSlot none = false ∧ on.atSlot (some 0) = false ∧ on.atSlot none = true
    ∧ (on.die 0).seg 5 ≠ .waking ∧ (on.die 0).seg 5 ≠ .parking ∧ on.parkable 0 5 = false
    ∧ 5 ∈ ((die0 { parkQ := [5] }).die 0).parkQ := by decide +kernel

theorem witness_CommitAndDeposit_rest : on.cfg.swaps = [] ∧ ((swapping (some 7)).cfg.sag 7).inUse = false
    ∧ (on.cfg.sag 0).dying = none ∧ on.dep.queue = [] ∧ on.dep.flying.find? (fun q => q.id == 0) = none
    ∧ ({ on with dep := { on.dep with flying := (List.range 256).map (fun i => { request0 with id := i }) } } : State).dep.freeId = none := by
  decide +kernel

theorem witness_MailboxRegisters_rest : State.reset.awake = false ∧ ¬ 18 ≤ 17 ∧ bitOf (3 : Word).toNat 0 = true ∧ bitOf (3 : Word).toNat 1 = true
    ∧ bitOf (0 : Word).toNat 0 = false ∧ bitOf (0 : Word).toNat 1 = false ∧ on.takesNow = none
    ∧ (({ on with ports := [(17, { st := .done })] } : State).port 17).st = .done
    ∧ exec (.mbxPortReset 0 2) on = .next (on.portReset 0) := by
  refine ⟨by decide, by decide, by decide, by decide, by decide, by decide, by decide +kernel, by decide +kernel, rfl⟩

/-- A HELLO of the wrong length, and one with a reserved bit. -/
def badHello (data : List Byte) : State := { on with ports := [(0, { st := .pending, req := requestArea 1 [1, 0] false data })] }

theorem witness_CommandChecks_rest : commandRow (.hello 0) = some (0, 1)
    ∧ (badHello []).taken? 0 1 = some (((badHello []).port 0).request 0) ∧ (badHello []).verdict (((badHello []).port 0).request 0) = .fail erLength 16 false
    ∧ ({ on with ports := [(0, { st := .pending, session := some (1, 2), req := requestArea 2 [1, 1] false [] })] } : State).verdict
        ((({ on with ports := [(0, { st := .pending, session := some (1, 2), req := requestArea 2 [1, 1] false [] })] } : State).port 0).request 0)
      = .fail erVersion 0 false
    ∧ (1, 2) ≠ ((({ on with ports := [(0, { req := requestArea 2 [1, 1] false [] })] } : State).port 0).request 0).version
    ∧ canonical (badHello []) := by
  refine ⟨by decide, by decide +kernel, by decide +kernel, by decide +kernel, by decide +kernel, canonical_of_check (by decide +kernel)⟩

/-- A HELLO of kind 3, which is none. -/
def kindHello : State :=
  { on with ports := [(0, { st := .pending, req := requestArea 1 [1, 0] false ([1, 0, 1, 2, 3] ++ List.replicate 11 0) })] }

theorem witness_SessionCommands_rest : ready kindHello 0 1 ((kindHello.port 0).request 0)
    ∧ 2 < ((kindHello.port 0).request 0).num 4 1
    ∧ allowed on 0x0803 false [0] = true ∧ (asked on 0x0803 false [0]).num 0 1 < 1 ∧ allowed on 0x0803 false [102] = true
    ∧ 101 < (asked on 0x0803 false [102]).num 0 1 ∧ allowed on 0x0801 false [32] = true ∧ 32 ≤ (asked on 0x0801 false [32]).num 0 1 := by
  unfold ready; decide +kernel

/-- The request area of a command for saggar 9, under the block's own handle. -/
def strayBytes (code : Nat) (data : List Byte) : Table Byte :=
  tsetRun 0 [] 0 ([1, 2] ++ leBytes 2 code ++ leBytes 2 0x0140 ++ leBytes 2 9 ++ leBytes 2 data.length ++ leBytes 6 0 ++ leBytes 8 7
    ++ leBytes 8 0 ++ data)

/-- A request for saggar 9, which is not in use, from the block's own handle. -/
def strayArea (code : Nat) (data : List Byte) : State :=
  { on with ports := [(0, { st := .pending, session := some (1, 2), req := strayBytes code data })] }

/-- The request of `strayArea`. -/
def strayReq (code : Nat) (data : List Byte) : Req := ((strayArea code data).port 0).request 0

theorem witness_ConfigurationCommands_rest :
    allowed on 0x0101 true [18] = true ∧ 17 < (asked on 0x0101 true [18]).num 0 1
    ∧ allowed on 0x0102 true [] = true ∧ (asked on 0x0102 true []).glob = true
    ∧ ready (strayArea 0x0102 []) 0 0x0102 (strayReq 0x0102 []) ∧ (strayReq 0x0102 []).glob = false
    ∧ ((strayArea 0x0102 []).cfg.sag (strayReq 0x0102 []).saggar).inUse = false
    ∧ ready (strayArea 0x0112 ([1, 0, 0, 0] ++ leBytes 6 0)) 0 0x0112 (strayReq 0x0112 ([1, 0, 0, 0] ++ leBytes 6 0))
    ∧ allowed tenant 0x0112 false [0x10, 0, 0, 0, 0, 0, 0, 0, 1, 0] = true ∧ tableFits false 0x10 = false
    ∧ allowed tenant 0x0112 false [1, 2, 0, 0, 3, 0, 0, 0, 1, 0] = true
    ∧ allowed tenant 0x0112 false [1, 1, 0, 0, 16, 0, 0, 0, 1, 0] = true ∧ entrySize 1 = some 32
    ∧ allowed on 0x0806 true (entries 0x11 0 [[0]]) = true ∧ allowed on 0x0806 true (entries 1 3 [entry3]) = true
    ∧ on.pokeTarget (asked on 0x0806 true (entries 1 3 [entry3])) = none
    ∧ allowed tenant 0x0806 true (entries 1 3 [leBytes 32 (2 ^ 89)]) = true
    ∧ tenant.badWrite { asked tenant 0x0806 true (entries 1 3 [leBytes 32 (2 ^ 89)]) with glob := false, saggar := 0 } = some 66 := by
  unfold ready; decide +kernel

theorem witness_StateReads_rest : allowed on 0x0201 false (leBytes 2 0x10 ++ leBytes 10 0) = true ∧ itemShape 0x10 = none
    ∧ allowed (snapped 0) 0x0201 false (leBytes 2 0x08 ++ [1, 0] ++ leBytes 8 0) = true
    ∧ (snapped 0).ctl.snaps.find? (fun x => x.port == 0 && x.id == 1) = some snap0
    ∧ allowed on 0x0201 true (leBytes 2 0x0F ++ leBytes 10 0) = true
    ∧ allowed (snapped 0) 0x0201 true (leBytes 2 0x0F ++ [1, 0] ++ leBytes 8 0) = true
    ∧ (snapped 0).itemSpan (asked (snapped 0) 0x0201 true (leBytes 2 0x0F ++ [1, 0] ++ leBytes 8 0)) (some snap0) 0x0F = (0, 0)
    ∧ (snapped 0).itemDenied (asked (snapped 0) 0x0201 true (leBytes 2 0x0F ++ [1, 0] ++ leBytes 8 0)) (some snap0) 0x0F = none
    ∧ (snapped 0).staleItem snap0 true 0 0x0F = false
    ∧ allowed on 0x0201 false (leBytes 2 0x09 ++ leBytes 10 0) = true
    ∧ on.itemDenied (asked on 0x0201 false (leBytes 2 0x09 ++ leBytes 10 0)) none 0x09 = some (erDenied, 1)
    ∧ allowed on 0x0201 false (leBytes 2 0x0E ++ [0, 0] ++ leBytes 4 1024 ++ leBytes 4 1) = true
    ∧ allowed on 0x0203 false [1] = true ∧ on.ctl.snaps.any (fun x => x.port == 0 && x.id == 1) = false := by decide +kernel

/-- A request by a selector that is none. -/
def bySel (n : Byte) : List Byte := [n] ++ leBytes 23 0

theorem witness_FiringsAndCounters_rest : allowed tenant 0x0301 false (bySel 2) = true ∧ 1 < (asked tenant 0x0301 false (bySel 2)).num 0 1
    ∧ allowed tenant 0x0302 false byFn = true ∧ tenant.selected (asked tenant 0x0302 false byFn) = none
    ∧ (tenantKiln { granted0 with saggar := 1 }).asPriv (asked (tenantKiln { granted0 with saggar := 1 }) 0x0301 false byFn) = false
    ∧ (tenantKiln { granted0 with saggar := 1 }).selected (asked (tenantKiln { granted0 with saggar := 1 }) 0x0301 false byFn) = some { granted0 with saggar := 1 }
    ∧ ({ granted0 with saggar := 1 } : Firing).saggar ≠ (asked tenant 0x0301 false byFn).saggar
    ∧ counterKind 0x0C0B = some .leaf ∧ counterKind 0x0C0C = none ∧ CounterKind.hi .block 1 = none
    ∧ allowed on 0x0401 true (leBytes 4 0x0C0C ++ leBytes 4 0 ++ leBytes 4 1 ++ [0]) = true
    ∧ allowed on 0x0401 true (leBytes 4 0x0C0A ++ leBytes 4 1 ++ leBytes 4 1 ++ [0]) = true
    ∧ allowed on 0x0401 true (leBytes 4 0x0C0A ++ leBytes 4 0 ++ leBytes 4 1 ++ [2]) = true
    ∧ CounterKind.owned .leaf 0 = true ∧ allowed on 0x0401 false (leBytes 4 0x0901 ++ leBytes 4 0 ++ leBytes 4 1 ++ [0]) = true
    ∧ on.denied (asked on 0x0401 false (leBytes 4 0x0901 ++ leBytes 4 0 ++ leBytes 4 1 ++ [0])) .ownerOrPriv = some 1
    ∧ tenant.denied (asked tenant 0x0401 false (leBytes 4 0x0901 ++ leBytes 4 1 ++ leBytes 4 1 ++ [0])) .ownerOrPriv = none
    ∧ tenant.asPriv (asked tenant 0x0401 false (leBytes 4 0x0901 ++ leBytes 4 1 ++ leBytes 4 1 ++ [0])) = false
    ∧ (upFrom 1 1).all (tenant.mineCounter .leaf 0) = false ∧ (upFrom 0 1).all (tenant.mineCounter .leaf 0) = true
    ∧ allowed on 0x0805 true [2, 0, 0, 0, 0, 0] = true ∧ allowed on 0x0805 true [0, 0, 0, 4, 0, 0] = true ∧ on.leafExists 1024 = false
    ∧ allowed on 0x0805 true [0, 0, 0, 0, 4, 0] = true ∧ allowed on 0x0805 true [1, 0, 0, 0, 0, 64] = true
    ∧ (({ on with kiln := { on.kiln with kaccs := [(0, { holder := some 0 })] } } : State).kacc 0).holder ≠ none := by decide +kernel

theorem witness_DigestCommands_rest : allowed opened 0x0502 false [9, 0, 2] = true ∧ 1 < (asked opened 0x0502 false [9, 0, 2]).num 2 1
    ∧ allowed tenant 0x0502 false [9, 0, 0] = true ∧ (asked tenant 0x0502 false [9, 0, 0]).num 2 1 ≤ 1 := by decide +kernel

/-- Every digest accumulator open. -/
def allOpen : State := { tenant with kiln := { tenant.kiln with digests := (List.range 4096).map (fun i => (i, { isOpen := true, saggar := 1 })) } }

theorem all_open (j : Nat) (h : j < 4096) : (tget {} allOpen.kiln.digests j).isOpen = true := by
  have e : tget ({} : DigestAcc) allOpen.kiln.digests j = { isOpen := true, saggar := 1 } :=
    tget_of_mem _ _ (by simp [allOpen]) ⟨(j, { isOpen := true, saggar := 1 }), by simp [allOpen, h], rfl⟩
  rw [e]

theorem witness_MaintenanceCommands_rest : allowed on 0x0601 true [0, 0, 0, 0] = true ∧ on.maskOk 0 = false ∧ on.maskOk 16 = false
    ∧ allowed on 0x0603 true [8, 1, 0, 0, 4] = true ∧ on.badNode (asked on 0x0603 true [8, 1, 0, 0, 4]) = some 36
    ∧ allowed on 0x0603 true [8, 1, 0, 0, 3] = true ∧ (on.stat 264).pairOut = false ∧ ((lost 264).stat 264).pairOut = true
    ∧ alone.siblingOut 264 1 = true ∧ allowed on 0x0604 true [12, 1, 0, 0, 3] = true ∧ 268 / 4 % 2 = 1
    ∧ allowed on 0x0606 true [4, 0, 0, 0, 1, 0, 0, 0] = true ∧ on.badPlane (asked on 0x0606 true [4, 0, 0, 0, 1, 0, 0, 0]) = some 32
    ∧ ({ on with nodes := [(8, { stat := { pairOut := true } }), (9, { stat := { pairOut := true } }), (10, { stat := { pairOut := true } })] } : State).onlyPlane 3 [0]
        = true
    ∧ allowed on 0x0608 true [0, 4] = true ∧ on.leafExists 1024 = false
    ∧ busyActs.ctl.acts.find? (fun x => x.id == 7 && !x.queued) = none
    ∧ (busyActs.outParts { id := 1, code := 0x09, target := 5, twin := 0, dies := [0], kiln := false, port := 0, tag := 2, start := 0, queued := false }).all busyActs.lossKnown
        = true
    ∧ (({ busyActs with links := [(leafLinkKey 5 .up 0, { failed := true })] } : State).outParts
        { id := 1, code := 0x09, target := 5, twin := 0, dies := [0], kiln := false, port := 0, tag := 2, start := 0, queued := false }).all
        ({ busyActs with links := [(leafLinkKey 5 .up 0, { failed := true })] } : State).lossKnown = false
    ∧ ({ busyActs with links := [(leafLinkKey 5 .up 0, { failed := true, reported := true })] } : State).lostSince
        { id := 1, code := 0x09, target := 5, twin := 0, dies := [0], kiln := false, port := 0, tag := 2, start := 0, queued := false } ≠ []
    ∧ busyActs.lostSince { id := 1, code := 0x09, target := 5, twin := 0, dies := [0], kiln := false, port := 0, tag := 2, start := 0, queued := false } = [] := by
  decide +kernel

/-- A background command under way. -/
def inBackground : State := { on with ctl := { on.ctl with background := some (0, 7, [1]) } }

/-- A stack pointer with room for the exception frame, whose size is a free value. -/
theorem witness_StackGood (h : Config.excFrame ≤ 0x100) : (0x1000 : Word).toNat % 8 = 0
    ∧ (0x1000 : Word).toNat ≤ ({ on.ctl with stackHigh := 0x2000 } : Controller).stackHigh.toNat
    ∧ ({ on.ctl with stackHigh := 0x2000 } : Controller).stackLow.toNat + Config.excFrame ≤ (0x1000 : Word).toNat := by
  refine ⟨by decide, by decide, ?_⟩
  have e : ({ on.ctl with stackHigh := 0x2000 } : Controller).stackLow.toNat = 0 := by decide
  have f : (0x1000 : Word).toNat = 0x1000 := by decide
  omega

theorem witness_Firmware_rest : inBackground.ctl.background ≠ none ∧ allowed inBackground 0x0701 true (stageAt 0) = true
    ∧ allowed inBackground 0x0702 true [] = true
    ∧ allowed on 0x0701 true (leBytes 16 0) = true ∧ (asked on 0x0701 true (leBytes 16 0)).num 4 2 = 0
    ∧ allowed (banked .verified) 0x0703 true [2, 5, 1, 0] = true ∧ (banked .verified).ctl.spare.minor.toNat ≠ 5
    ∧ (switching true).ctl.phase = .switching ∧ (switching true).ctl.booted = true ∧ (switching false).ctl.booted = false
    ∧ (inPhase .switching).ctl.fallsBack = true ∧ on.ctl.confirm = none ∧ on.ctl.phase ≠ .switching ∧ on.ctl.phase ≠ .restarting
    ∧ ({ confirming with ctl := { confirming.ctl with phase := .safe } } : State).ctl.phase ≠ .serving
    ∧ (inPhase .safe).servesCommand 0 0x0701 = true := by decide +kernel

theorem witness_SmbusTarget_rest : State.reset.awake = false ∧ (5 : Byte).toNat ∉ [0x00, 0x01, 0x02, 0x10, 0x11]
    ∧ ¬ ((0x0B : Byte).toNat &&& 0xF6 = 0) ∧ mbxWriteOk (leBytes 2 0x2008 ++ leBytes 4 1) = true ∧ mbxWriteOk [0, 0] = false
    ∧ mbxReadOk [0, 0x10, 252] = true ∧ mbxReadOk [0, 0x10, 0] = false ∧ (4 : Nat) ≠ ([0, 0x10, 252] : List Byte).length
    ∧ pecOf [0xB4, 0x02, 1] ≠ pecOf [0xB4, 0x02, 2]
    ∧ ({ on with smb := { on.smb with running := true, attempts := 3 }, time := 1000000 } : State).timedOut 0 1000000 = true
    ∧ on.timedOut 0 1000000 = false ∧ on.smb.running = false := by decide +kernel

theorem witness_TestAndTrace_rest : (0x03 : Byte).toNat ∉ [0x00, 0x01, 0x02, 0x20, 0x21, 0x22, 0x23, 0x24, 0x25]
    ∧ on.trace.queue = [] ∧ on.trace.dropped = 0
    ∧ bitOf on.trace.cfg.toNat 31 = false := by decide

theorem witness_GatewayPort_rest : State.reset.awake = false ∧ ((gate { st := 2, hdr := header3 9 }).txBuf 63).st ≠ 1
    ∧ gwAligned 2 4 = false ∧ 4096 < 4090 + 16 ∧ (gate { st := 1, owner := 0, hdr := header3 9 }).gwMember 1 3 = false
    ∧ ((gate {}).txBuf 63).st ≠ 2 ∧ ({ gate { st := 1 } with time := 1000000 } : State).timedOut ((gate { st := 1 }).txBuf 63).since 1000000 = true
    ∧ (gate { st := 1 }).timedOut ((gate { st := 1 }).txBuf 63).since 1000000 = false
    ∧ ({ gate {} with gw := { (gate {}).gw with hold := some 0 } } : State).gw.hold ≠ none
    ∧ (∀ r, on.gw.rank = some r → r.toNat ≠ 6) ∧ ({ boxed { st := 1 } with time := 10000000 } : State).timedOut ((boxed { st := 1 }).rxBox 2).since 10000000 = true
    ∧ (boxed { st := 1, hdr := header3 6 }).gwMember 1 3 = false ∧ (∀ f, on.gw.hold = some f → hBox (numAt (gwBytes f) 0 16) ≠ 2) := by
  refine ⟨by decide +kernel, by decide +kernel, by decide, by decide, by decide +kernel, by decide +kernel, by decide +kernel, by decide +kernel,
    by decide +kernel, fun r h => by simp [on, State.reset] at h, by decide +kernel, by decide +kernel, fun f h => by simp [on, State.reset] at h⟩

theorem witness_StepKeepsCanonical : canonical { on with pending := [.idcode] } ∧ step { on with pending := [.idcode] } = exec .idcode on :=
  ⟨canonical_of_check (by decide +kernel), rfl⟩


/-! ### Single commands and operations, with the results of the spec's worked examples -/

/-- The flit header worked out under Table 1.6. -/
theorem test_flit_header : ({ type := 1, last := true, stripe := 37, setter := 419 } : Flit).body.take 4 = [0xA3, 0x95, 0x40, 0x01] := by decide +kernel

/-- The two fast sums under R66 that differ by the disabled map. -/
theorem test_fast_sum_order :
    Fp.add .b64 (Fp.add .b64 0x4340000000000000 0x3FF0000000000000) (Fp.add .b64 0x3FF0000000000000 0xC340000000000000) = 0x3FF0000000000000
      ∧ Fp.add .b64 (Fp.add .b64 0x4340000000000000 (Fp.add .b64 0x3FF0000000000000 0x3FF0000000000000)) 0xC340000000000000
        = 0x4000000000000000 := by decide +kernel

/-- The stochastic rounding worked out under R108. -/
theorem test_stochastic_rounding :
    glazeRound 4101 1 12 .bf16 4 false 0x1F00000000000000 = 0x3F81 ∧ glazeRound 4101 1 12 .bf16 4 false 0x2800000000000000 = 0x3F80
      ∧ glazeRound (-4101) 1 12 .bf16 4 false 0x1F00000000000000 = 0xBF81 := by decide +kernel

/-- The sherds worked out at the end of Element formats. -/
theorem test_sherds :
    sherdBytes (sherdOfValue 1 0xBFC8000000000000).canon = [0x21, 1, 1, 0, 0, 0, 0, 0, 0, 0, 0, 0, 0xFD, 0xFF, 0xFF, 0xFF]
      ∧ (sherdOfProduct 1 0x3FF0000000000001 0x43B0000000000000).canon = (0x221, [0x100000000000, 0x100000000])
      ∧ (sherdOfValue 1 0x8000000000000000).canon = (0x20000, []) := by decide +kernel

/-- The exact sum of those sherds rounded to binary32 (worked out under R163). -/
theorem test_glaze :
    let x := (((sherdOfValue 1 0xBFC8000000000000).add (sherdOfProduct 1 0x3FF0000000000001 0x43B0000000000000)).1.add
      (sherdOfValue 1 0x8000000000000000)).1
    glazeFp x .b32 0 false 0 = 0x5D800000 ∧ glazeFp x .b32 2 false 0 = 0x5D800001 := by decide +kernel

/-- The exact mean and variance worked out under R165. -/
theorem test_exact_meanvar :
    let add (l : List Nat) (sq : Bool) := (l.foldl (fun (a : Sherd) v => (a.add (if sq then sherdOfProduct 1 v v else sherdOfValue 1 v)).1) {})
    let vs := [0x41D0000000400000, 0x41D0000000800000, 0x41D0000000C00000, 0x41D0000001800000]
    meanvarGlaze { op := 3, exact := true } .b64 { fin := 4 * eafOne } (add vs false) (add vs true) 0 0
      = (0x41D0000000C00000, 0x400C000000000000) := by decide +kernel

/-- IDCODE of stepping B0 (R524): the step takes the command in front. -/
theorem test_step_idcode :
    (match step { on with pending := [.idcode, .bypass] } with
      | .next t => t.test.ir == 1 && t.pending == [.bypass] && numAt (leBytes 4 (on.idcode)) 0 4 == 0x20C0800B
      | _ => false) = true := by decide +kernel

/-- The HELLO worked out at the end of Mailbox and controller: port 3 of a block of 32 die slots, firmware 2.4.3. -/
theorem test_hello_example :
    let area := [1, 0, 1, 0, 0x40, 1, 0, 0, 16, 0, 0, 0, 0, 0, 0, 0] ++ leBytes 16 0 ++ [1, 0, 1, 2, 0] ++ leBytes 11 0
    let s := { on with
      straps := { on.straps with ndieM1 := 31, debug := false }
      ctl := { on.ctl with runMajor := 2, runMinor := 4, runPatch := 3 }
      ports := [(3, { st := .pending, req := tsetRun 0 [] 0 area })] }
    (match exec (.hello 3) s with
      | .next t => tgetRun 0 (t.port 3).resp 0 12 == [1, 2, 1, 0, 0x40, 1, 0, 0, 0x40, 0, 1, 0]
          && tgetRun 0 (t.port 3).resp 32 12 == [1, 2, 2, 4, 3, 0, 3, 0, 0xC0, 7, 0x82, 0xC0] && (t.port 3).session == some (1, 2)
          && (t.port 3).st == .done
      | _ => false) = true := by decide +kernel
end Sys2Proof.Tests
end

/-! ### O3: block reset -/

namespace Sys2Proof.Proofs
open Sys2Proof.Machine

/-- Changing every listed value by a function that keeps the default changes every entry. The keys must rise: of two entries of
one key only the first is read, and dropping it would uncover the second. -/
theorem tget_tmapAll {α : Type} [DecidableEq α] {d : α} {f : α → α} (hd : f d = d) {t : Table α} :
    ∀ {lo : Nat}, keysRise lo t = true → ∀ k, tget d (tmapAll d f t) k = f (tget d t k) := by
  induction t with
  | nil => intro _ _ _; exact hd.symm
  | cons e t ih =>
    obtain ⟨j, v⟩ := e
    intro lo hr k
    simp only [keysRise, Bool.and_eq_true, decide_eq_true_eq] at hr
    obtain ⟨-, hr⟩ := hr
    simp only [tmapAll]
    by_cases hk : j = k
    · subst hk
      split
      · next hv =>
        have hrest : tget d t j = d := tget_of_lt d hr (Nat.lt_succ_self j)
        simp [tget, ih hr, hrest, hd, hv]
      · simp [tget]
    · split <;> simp [tget, hk, ih hr]

/-- Block reset leaves a leaf port with nothing but its core's scratchpad. -/
theorem blockReset_leaf {s : State} (h : canonical s) (l : Nat) : s.blockReset.leaf l = { scratch := (s.leaf l).scratch } :=
  tget_tmapAll (f := fun p : LeafPort => { scratch := p.scratch }) rfl (keysRise_of_wf h.leaves) l

/-- Whichever source is asserted, the leaf ports are those of block reset. -/
theorem assertReset_leaves (s : State) (src : ResetSource) : (s.assertReset src).leaves = s.blockReset.leaves := by
  cases src <;> rfl

theorem assertReset_leaf {s : State} (h : canonical s) (src : ResetSource) (l : Nat) :
    (s.assertReset src).leaf l = { scratch := (s.leaf l).scratch } := by
  rw [← blockReset_leaf h l, State.leaf, State.leaf, assertReset_leaves]

/-- All of the state that an asserted source leaves: the state after reset, but for what survives and the source itself. -/
theorem assertReset_eq (s : State) (src : ResetSource) : s.assertReset src = { State.reset with
    leaves := (s.assertReset src).leaves, pending := s.pending, tick := s.tick, handles := s.handles,
    pwrokLow := s.pwrokLow || src == .pwrok, rstLow := s.rstLow || src == .rstN, cxReset := s.cxReset || src == .cxReset,
    ctl := { bankA := s.ctl.bankA, bankB := s.ctl.bankB, activeB := s.ctl.activeB } } := by
  cases src <;> simp [State.assertReset, State.blockReset]

section
variable {x : Straps} {s : State}

/-- The end of block reset where the block is not in reset. -/
theorem execBlockResetEnd_of_not_inReset (h : s.ctl.phase ≠ .inReset) : execBlockResetEnd x s = .next s := by
  simp [execBlockResetEnd, h]

/-- The end of block reset with a die count below four (R515). -/
theorem execBlockResetEnd_of_few_dies (hn : x.ndieM1.toNat < 3) : execBlockResetEnd x s = .next s := by
  simp [execBlockResetEnd, hn]

/-- The end of block reset that takes effect (R561), with the block handle of R441. -/
theorem execBlockResetEnd_releases (h : s.ctl.phase = .inReset) (hn : 3 ≤ x.ndieM1.toNat) :
    execBlockResetEnd x s = .next { s with
      pwrokLow := false, rstLow := false, cxReset := false, straps := x, time := 0, tick := s.tick + 1,
      ctl := { s.ctl with phase := .zeroing, tryB := s.ctl.activeB, blockHandle := Config.handle s.tick } } := by
  simp [execBlockResetEnd, h, Nat.not_lt.mpr hn]

end

theorem exec_blockResetAssert (src : ResetSource) (s : State) : exec (.blockResetAssert src) s = .next (s.assertReset src) := rfl

theorem exec_blockResetEnd (x : Straps) (s : State) : exec (.blockResetEnd x) s = execBlockResetEnd x s := rfl

/-- Settles O3: asserting by the equation of `assertReset`, ending by the three cases of `execBlockResetEnd`. -/
theorem blockReset : Obligations.BlockReset := by
  unfold Obligations.BlockReset
  refine ⟨fun src s => ⟨s.assertReset src, exec_blockResetAssert src s, assertReset_eq s src, fun h => assertReset_leaf h src⟩,
    fun x s => ?_⟩
  rw [exec_blockResetEnd]
  exact ⟨fun h => ⟨fun hn => ⟨_, execBlockResetEnd_releases h hn, rfl⟩, execBlockResetEnd_of_few_dies⟩,
    execBlockResetEnd_of_not_inReset⟩

end Sys2Proof.Proofs

/-! ### O2 and O7: values after reset, and block time -/

namespace Sys2Proof.Proofs
open Sys2Proof.Machine

section
variable (i : Nat)

/-! After reset no table lists an entry, so every unit of a kind holds that kind's reset value. -/

theorem reset_leaf : State.reset.leaf i = {} := rfl
theorem reset_port : State.reset.port i = {} := rfl
theorem reset_die : State.reset.die i = {} := rfl
theorem reset_kacc : State.reset.kacc i = {} := rfl
theorem bisque_of_new_leafPort : tget {} ({} : LeafPort).bisque i = {} := rfl
theorem seg_of_new_die : ({} : Die).seg i = .parked := rfl

end

/-- LP_CTRL after reset (Table 8.3): chunks of 4 KiB, the leaf port not enabled. -/
theorem lpCtrl_of_new_leafPort : lpCtrl {} = 0x00000C00#32 := by decide

/-- Settles O2: the single registers by computing them, the banks by the value that every entry of each holds. -/
theorem resetValues : Obligations.ResetValues := by
  unfold Obligations.ResetValues
  refine ⟨rfl, rfl, rfl, rfl, rfl, rfl, rfl, rfl, fun l => ?leaf, fun p => ?port, fun d => ?die, fun k => ?kacc⟩
  case leaf =>
    rw [reset_leaf]
    exact ⟨lpCtrl_of_new_leafPort, rfl, rfl, rfl, rfl, rfl, fun i => congrArg Bisque.st (bisque_of_new_leafPort i)⟩
  case port =>
    rw [reset_port]
    exact ⟨rfl, rfl, rfl, rfl⟩
  case die =>
    rw [reset_die]
    exact ⟨rfl, seg_of_new_die⟩
  case kacc =>
    rw [reset_kacc]
    exact ⟨rfl, rfl⟩

section
variable {s : State}

theorem exec_refclkEdge (s : State) : exec .refclkEdge s = execRefclkEdge s := rfl

/-- Asserting a source of block reset sets block time to zero. -/
theorem assertReset_time (s : State) (src : ResetSource) : (s.assertReset src).time = 0 := by
  rw [assertReset_eq]
  rfl

/-- A due pass is an entry of a die slice's services. -/
theorem schedulePass_frame (s : State) : s.schedulePass = { s with dies := s.schedulePass.dies } := by
  unfold State.schedulePass
  dsimp only
  split <;> rfl

/-- No pass is due but at a multiple of 31,250 ns (R352). -/
theorem schedulePass_of_not_due (h : s.time.toNat % 31250 ≠ 0) : s.schedulePass = s := by
  simp [State.schedulePass, h]

theorem execRefclkEdge_of_refLost (h : s.refLost = true) : execRefclkEdge s = .next s := by
  simp [execRefclkEdge, h]

theorem execRefclkEdge_ticks (ha : s.awake = true) (h : s.refLost = false) :
    execRefclkEdge s = .next { s with time := s.time + 10 }.schedulePass := by
  simp [execRefclkEdge, ha, h]

/-- Short of the wrap, an edge keeps block time a multiple of 10. -/
theorem time_add_ten_mod {t : Quad} (h : t.toNat % 10 = 0) (hw : t.toNat + 10 < 2 ^ 64) : (t + 10).toNat % 10 = 0 := by
  have hadd : (t + 10).toNat = t.toNat + 10 := by
    rw [BitVec.toNat_add]
    exact Nat.mod_eq_of_lt hw
  omega

end

/-- Settles O7: an edge is block time's step followed by the schedule of the passes, which touches the die slices only. -/
theorem blockTime : Obligations.BlockTime := by
  unfold Obligations.BlockTime
  refine ⟨fun src s t h => ?reset, fun s ha => ⟨fun hr => ?edge, fun hr => ?lost⟩⟩
  case reset =>
    rw [exec_blockResetAssert, Host.Outcome.next.injEq] at h
    rw [← h, assertReset_time]
  case edge =>
    rw [exec_refclkEdge, execRefclkEdge_ticks ha hr]
    refine ⟨_, rfl, schedulePass_frame _, fun hd => ?_, fun h10 hw => ?_⟩
    · rw [schedulePass_of_not_due (s := { s with time := s.time + 10 }) hd]
    · rw [schedulePass_frame]
      exact time_add_ten_mod h10 hw
  case lost =>
    rw [exec_refclkEdge, execRefclkEdge_of_refLost hr]

end Sys2Proof.Proofs

/-! ### O27: a flit of a leaf port on its link -/

namespace Sys2Proof.Proofs
open Sys2Proof.Machine

/-- Where a change of the firing keeps its number, looking that number up afterwards gives the changed firing. -/
theorem find?_modFirst {α : Type} {p : α → Bool} {f : α → α} (h : ∀ x, p x = true → p (f x) = true) (xs : List α) :
    (modFirst p f xs).find? p = (xs.find? p).map f := by
  induction xs with
  | nil => rfl
  | cons x xs ih =>
    cases hp : p x with
    | true => simp [modFirst, hp, h x hp]
    | false => simp [modFirst, hp, ih]

theorem firing?_modFiring (s : State) {uid : Nat} {f : Firing → Firing} (h : ∀ x, (f x).uid = x.uid) :
    (s.modFiring uid f).firing? uid = (s.firing? uid).map f :=
  find?_modFirst (fun x hx => by simpa [h x] using hx) s.kiln.firings

/-- In a list of distinct readings, the reading of a member finds that member. -/
theorem find?_eq_some_of_nodup_map {α : Type} {g : α → Nat} {xs : List α} (hn : (xs.map g).Nodup) {a : α} (ha : a ∈ xs) :
    xs.find? (fun x => g x == g a) = some a := by
  induction xs with
  | nil => simp at ha
  | cons x xs ih =>
    rw [List.map_cons, List.nodup_cons] at hn
    obtain ⟨hx, hn⟩ := hn
    rcases List.mem_cons.mp ha with rfl | ha
    · simp
    · have hne : g x ≠ g a := fun e => hx (e ▸ List.mem_map_of_mem ha)
      simp [hne, ih hn ha]

/-- A granted firing is the one that bears its number. -/
theorem firing?_of_granted? {s : State} (h : canonical s) {x : Nat} {f : Firing} (hf : s.granted? x = some f) :
    s.firing? f.uid = some f :=
  find?_eq_some_of_nodup_map h.single (List.mem_of_find?_eq_some hf)

/-- A firing after the kiln has noted a flit of a member: what a poisoned one tells of the sender (R408), and a sherd out of range. -/
def flitNoted (x : Taken) (poison bad : Bool) (f : Firing) : Firing :=
  { (if poison = true then f.poisonFrom x.rank x.firstBadChunk else f) with range := f.range || bad, rangeBad := f.rangeBad || bad }

theorem poisonFrom_uid (f : Firing) (rank chunk : Nat) : (f.poisonFrom rank chunk).uid = f.uid := by
  unfold Firing.poisonFrom
  split
  · split <;> rfl
  · rfl

/-- What a poisoned flit tells of its sender leaves the firing's notes of range alone. -/
theorem poisonFrom_range (f : Firing) (rank chunk : Nat) :
    { f.poisonFrom rank chunk with range := f.range, rangeBad := f.rangeBad } = f.poisonFrom rank chunk := by
  unfold Firing.poisonFrom
  split
  · split <;> rfl
  · rfl

theorem flitNoted_in_range (x : Taken) (poison : Bool) (f : Firing) :
    flitNoted x poison false f = if poison = true then f.poisonFrom x.rank x.firstBadChunk else f := by
  cases poison with
  | true => simpa [flitNoted] using poisonFrom_range f x.rank x.firstBadChunk
  | false => simp [flitNoted]

/-- The state after the kiln has noted a flit of a member. -/
def noteFlit (u : State) (uid : Nat) (x : Taken) (poison bad : Bool) : State :=
  let v := if poison then u.modFiring uid (fun f => f.poisonFrom x.rank x.firstBadChunk) else u
  if bad then v.modFiring uid (fun f => { f with range := true, rangeBad := true }) else v

section
variable {u : State} {x : Taken} {uid : Nat} {poison bad : Bool}

theorem noteFlit_frame : noteFlit u uid x poison bad = { u with kiln := (noteFlit u uid x poison bad).kiln } := by
  cases poison <;> cases bad <;> rfl

theorem noteFlit_clean : noteFlit u uid x false false = u := rfl

/-- What the kiln notes of a flit is in the firing that bears the number. -/
theorem firing?_noteFlit {f : Firing} (h : u.firing? uid = some f) :
    (noteFlit u uid x poison bad).firing? uid = some (flitNoted x poison bad f) := by
  have hv : (if poison then u.modFiring uid (fun f => f.poisonFrom x.rank x.firstBadChunk) else u).firing? uid
      = some (if poison = true then f.poisonFrom x.rank x.firstBadChunk else f) := by
    cases poison with
    | true => simp [firing?_modFiring u (fun y => poisonFrom_uid y x.rank x.firstBadChunk), h]
    | false => simpa using h
  cases bad with
  | true => simp [noteFlit, flitNoted, firing?_modFiring, hv]
  | false => rw [flitNoted_in_range]; exact hv

end

theorem exec_leafFlitSend (l p : Nat) (s : State) : exec (.leafFlitSend l p) s = execLeafFlitSend l p s := rfl

/-- The state after a leaf port has put a flit of a firing on its link. -/
def flitSent (s : State) (l p : Nat) (x y : Taken) (c : Carry) : State :=
  (s.setLeaf l ((s.leaf l).modTaken x.cnt (fun _ => y))).setLink (leafLinkKey l .up p)
    ((s.link (leafLinkKey l .up p)).put false s.time c)

theorem offer_put (k : Link) (bridge : Bool) (now : Quad) (c : Carry) : (k.put bridge now c).offer = some c := by
  cases bridge <;> rfl

section
variable {l p : Nat} {x y : Taken} {c : Carry} {bad : Bool} {s : State}

theorem execLeafFlitSend_idle (h : 4 ≤ p ∨ (s.leaf l).failed = true ∨ s.linkStops (leafLinkKey l .up p) = true
    ∨ (s.link (leafLinkKey l .up p)).offer ≠ none ∨ (s.leaf l).sender p = none) : execLeafFlitSend l p s = .next s := by
  rcases h with h | h | h | h | h
  · simp [execLeafFlitSend, h]
  · simp [execLeafFlitSend, h]
  · simp [execLeafFlitSend, h]
  · simp [execLeafFlitSend, Option.isSome_iff_ne_none.mpr h]
  · simp [execLeafFlitSend, h]

variable (hp : p < 4) (hf : (s.leaf l).failed = false) (hs : s.linkStops (leafLinkKey l .up p) = false)
  (ho : (s.link (leafLinkKey l .up p)).offer = none) (hx : (s.leaf l).sender p = some (x, c, bad, y))
include hp hf hs ho hx

theorem execLeafFlitSend_lost (hl : (s.leaf l).lostSources x ≠ []) : execLeafFlitSend l p s = .next (s.sourceLost l x) := by
  simp [execLeafFlitSend, Nat.not_le.mpr hp, hf, hs, ho, hx, hl]

theorem execLeafFlitSend_of_not_granted (hl : (s.leaf l).lostSources x = []) (hg : s.granted? x.setter.toNat = none) :
    execLeafFlitSend l p s = .next (flitSent s l p x y c) := by
  simp [execLeafFlitSend, flitSent, Nat.not_le.mpr hp, hf, hs, ho, hx, hl, hg]

theorem execLeafFlitSend_of_granted (hl : (s.leaf l).lostSources x = []) {f : Firing} (hg : s.granted? x.setter.toNat = some f) :
    execLeafFlitSend l p s = .next (noteFlit (flitSent s l p x y c) f.uid x c.flit.poison bad) := by
  simp [execLeafFlitSend, flitSent, noteFlit, Nat.not_le.mpr hp, hf, hs, ho, hx, hl, hg]

end

/-- Settles O27: by what the row finds, and where it sends a flit, by whether the firing is still granted. -/
theorem leafFlitSend : Obligations.LeafFlitSend := by
  unfold Obligations.LeafFlitSend
  refine ⟨fun l p s h => ?_, fun l p x y c bad s hp hf hs ho hx => ⟨fun hl => ?_, fun hl => ?_⟩⟩ <;> rw [exec_leafFlitSend]
  · exact execLeafFlitSend_idle h
  · exact execLeafFlitSend_lost hp hf hs ho hx hl
  · cases hg : s.granted? x.setter.toNat with
    | none =>
      exact ⟨_, execLeafFlitSend_of_not_granted hp hf hs ho hx hl hg, rfl, offer_put .., fun _ _ => rfl, fun _ => rfl,
        fun _ _ h => nomatch h⟩
    | some f =>
      refine ⟨_, execLeafFlitSend_of_granted hp hf hs ho hx hl hg, noteFlit_frame, offer_put .., fun hc hb => ?_,
        nofun, fun f' hcan hf' => ?_⟩
      · rw [hc, hb, noteFlit_clean]
        rfl
      · cases hf'
        exact ⟨_, firing?_noteFlit (u := flitSent s l p x y c) (firing?_of_granted? hcan hg), rfl⟩

end Sys2Proof.Proofs

/-! ### Links that go out of service -/

namespace Sys2Proof.Proofs
open Sys2Proof.Machine

/-- `t` is `s` but for links and for flits that nodes had ready for links. -/
structure linksDrained (s t : State) : Prop where
  eq    : t = { s with links := t.links, nodes := t.nodes }
  nodes : tableWf {} s.nodes = true → tableWf {} t.nodes = true
    ∧ ∀ k, (t.node k).stat = (s.node k).stat ∧ (t.node k).slots = (s.node k).slots

theorem linksDrained.refl (s : State) : linksDrained s s := ⟨rfl, fun h => ⟨h, fun _ => ⟨rfl, rfl⟩⟩⟩

theorem linksDrained.trans {s t u : State} (h : linksDrained s t) (k : linksDrained t u) : linksDrained s u := by
  refine ⟨by rw [k.eq, h.eq], fun w => ?_⟩
  obtain ⟨wt, et⟩ := h.nodes w
  obtain ⟨wu, eu⟩ := k.nodes wt
  exact ⟨wu, fun j => ⟨(eu j).1.trans (et j).1, (eu j).2.trans (et j).2⟩⟩

theorem linksDrained_setLink (s : State) (key : Nat) (x : Link) : linksDrained s (s.setLink key x) :=
  ⟨rfl, fun h => ⟨h, fun _ => ⟨rfl, rfl⟩⟩⟩

theorem linksDrained_setNode (s : State) {ix : Nat} {n : Node} (h : n.stat = (s.node ix).stat) (h' : n.slots = (s.node ix).slots) :
    linksDrained s (s.setNode ix n) := by
  refine ⟨rfl, fun w => ⟨tableWf_tset w ix n, fun k => ?_⟩⟩
  by_cases e : k = ix
  · rw [e, node_setNode w]
    exact ⟨h, h'⟩
  · rw [node_setNode_ne s n e]
    exact ⟨rfl, rfl⟩

theorem linksDrained_flushDriver (s : State) (key : Nat) : linksDrained s (s.flushDriver key) := by
  unfold State.flushDriver
  split
  · exact .refl s
  · next ix d i _ => cases d <;> exact linksDrained_setNode s rfl rfl

/-- What a link's driver had for it is no part of any link. -/
theorem flushDriver_links (s : State) (key : Nat) : (s.flushDriver key).links = s.links := by
  unfold State.flushDriver
  split <;> rfl

theorem linksDrained_quietLink (s : State) (key : Nat) : linksDrained s (s.quietLink key) :=
  (linksDrained_setLink s key _).trans (linksDrained_flushDriver _ key)

theorem linksDrained_cutLink (s : State) (key reason : Nat) : linksDrained s (s.cutLink key reason) :=
  (linksDrained_setLink s key _).trans (linksDrained_quietLink _ key)

/-- A link cut from service: out for the reason given, not yet registered, and holding nothing. -/
theorem link_cutLink {s : State} (h : tableWf {} s.links = true) {key : Nat} (hf : (s.link key).failed = false) (reason : Nat) :
    (s.cutLink key reason).link key
      = Link.quiet { s.link key with failed := true, reported := false, reason := BitVec.ofNat 5 reason } := by
  have hfail : (s.failLink key reason).link key
      = { s.link key with failed := true, reported := false, reason := BitVec.ofNat 5 reason } := by
    simp [State.failLink, link_setLink h, hf]
  have hwf : tableWf {} (s.failLink key reason).links = true := tableWf_tset h key _
  rw [← hfail, State.cutLink, State.quietLink, State.link, flushDriver_links]
  exact link_setLink hwf key _

theorem link_cutLink_ne (s : State) {key k : Nat} (reason : Nat) (h : k ≠ key) : (s.cutLink key reason).link k = s.link k := by
  rw [State.cutLink, State.quietLink, State.link, flushDriver_links]
  exact (link_setLink_ne _ _ h).trans (link_setLink_ne s _ h)

end Sys2Proof.Proofs

/-! ### O30: the retry of the bridge -/

namespace Sys2Proof.Proofs
open Sys2Proof.Machine

/-- What the receiver takes off its wires: a flit, whether its CRC holds, and the link after the handshake. -/
theorem bridgeTake_eq {k : Link} {err : BitVec 568} {good : Bool} (hg : flitOk (k.read true err) = good) (now : Quad) (c : Carry) :
    k.bridgeTake now c err = ({ c with flit := flitOf (k.read true err) }, good, k.took true now) := by
  rw [← hg]
  rfl

section
variable (k : Link) (c : Carry)

/-- What the receiver makes of a flit leaves the wires and the handshake alone. -/
theorem bridgeRx_wires (good replay : Bool) : (k.bridgeRx c good replay).seen = k.seen ∧ (k.bridgeRx c good replay).ack = k.ack
    ∧ (k.bridgeRx c good replay).offer = k.offer := by
  unfold Link.bridgeRx Link.kept
  dsimp only
  split
  · split
    · exact ⟨rfl, rfl, rfl⟩
    · split <;> exact ⟨rfl, rfl, rfl⟩
  · split
    · exact ⟨rfl, rfl, rfl⟩
    · split
      · exact ⟨rfl, rfl, rfl⟩
      · split <;> exact ⟨rfl, rfl, rfl⟩

variable {k c}

theorem waiting_took {bridge : Bool} {now : Quad} : (k.took bridge now).waiting = k.waiting := by
  cases bridge <;> rfl

theorem bridgeRx_good (hw : k.waiting = none) (replay : Bool) : k.bridgeRx c true replay = k.kept c := by
  simp [Link.bridgeRx, hw]

/-- The first bad flit (R47 step 1): the receiver waits for it, and owes one LINK_NAK. -/
theorem bridgeRx_bad (hw : k.waiting = none) (replay : Bool) : k.bridgeRx c false replay = { k with
    crcErr := satInc k.crcErr, waiting := some k.recvCount, nak := some k.recvCount, noReplay := 0, repeated := false } := by
  simp [Link.bridgeRx, hw]

variable {n : BitVec 16} (hw : k.waiting = some n)
include hw

theorem bridgeRx_resent (hr : c.flit.replay = true) (hc : c.count = n) (replay : Bool) :
    k.bridgeRx c true replay = { k with waiting := none, noReplay := 0, repeated := false }.kept c := by
  simp [Link.bridgeRx, hw, hr, hc]

theorem bridgeRx_no_replay (hr : c.flit.replay = false) (replay : Bool) :
    k.bridgeRx c true replay = { k with noReplay := k.noReplay + 1 } := by
  simp [Link.bridgeRx, hw, hr]

theorem bridgeRx_other_count (hr : c.flit.replay = true) (hc : c.count ≠ n) (replay : Bool) : k.bridgeRx c true replay = k := by
  simp [Link.bridgeRx, hw, hr, hc]

/-- A bad flit while the receiver waits: it goes on waiting and takes nothing. -/
theorem bridgeRx_bad_again (replay : Bool) : (k.bridgeRx c false replay).waiting = some n
    ∧ (k.bridgeRx c false replay).rxq = k.rxq ∧ (k.bridgeRx c false replay).recvCount = k.recvCount := by
  cases replay <;> simp [Link.bridgeRx, hw]

end

section
variable {key : Nat} {err : BitVec 568} {s : State} {c : Carry}

theorem exec_bridgeFlitReceive (key : Nat) (err : BitVec 568) (s : State) :
    exec (.bridgeFlitReceive key err) s = execBridgeFlitReceive key err s := rfl
theorem exec_linkNakReceive (key : Nat) (err : BitVec 568) (s : State) :
    exec (.linkNakReceive key err) s = execLinkNakReceive key err s := rfl
theorem exec_linkNakRepeat (key : Nat) (s : State) : exec (.linkNakRepeat key) s = execLinkNakRepeat key s := rfl
theorem exec_bridgeRetryExhausted (key : Nat) (s : State) : exec (.bridgeRetryExhausted key) s = execBridgeRetryExhausted key s := rfl

theorem execBridgeFlitReceive_idle (h : isBridge key = false ∨ (s.link key).failed = true ∨ (s.link key).offer = none
    ∨ ∃ c, (s.link key).offer = some c ∧ c.flit.type = 0xF0) : execBridgeFlitReceive key err s = .next s := by
  unfold execBridgeFlitReceive
  extract_lets k
  cases ho : k.offer with
  | none => rfl
  | some c =>
    refine if_pos ?_
    rcases h with h | h | h | ⟨d, h, ht⟩
    · simp only [h, Bool.not_false, Bool.true_or]
    · simp only [k, h, Bool.or_true, Bool.true_or]
    · cases h.symm.trans ho
    · cases h.symm.trans ho
      simp only [ht, beq_self_eq_true, Bool.or_true]

theorem execLinkNakReceive_idle (h : isBridge key = false ∨ (s.link key).failed = true ∨ (s.link key).offer = none
    ∨ ∃ c, (s.link key).offer = some c ∧ c.flit.type ≠ 0xF0) : execLinkNakReceive key err s = .next s := by
  unfold execLinkNakReceive
  extract_lets k
  cases ho : k.offer with
  | none => rfl
  | some c =>
    refine if_pos ?_
    rcases h with h | h | h | ⟨d, h, ht⟩
    · simp only [h, Bool.not_false, Bool.true_or]
    · simp only [k, h, Bool.or_true, Bool.true_or]
    · cases h.symm.trans ho
    · cases h.symm.trans ho
      simp only [bne_iff_ne.mpr ht, Bool.or_true]

theorem execLinkNakRepeat_idle (h : isBridge key = false ∨ (s.link key).failed = true ∨ (s.link key).waiting = none
    ∨ (s.link key).repeated = true ∨ (s.link key).noReplay < 32) : execLinkNakRepeat key s = .next s := by
  cases ho : (s.link key).waiting with
  | none => simp [execLinkNakRepeat, ho]
  | some n =>
    rw [ho] at h
    rcases h with h | h | h | h | h
    · simp [execLinkNakRepeat, ho, h]
    · simp [execLinkNakRepeat, ho, h]
    · cases h
    · simp [execLinkNakRepeat, ho, h]
    · simp [execLinkNakRepeat, ho, h]

theorem execBridgeRetryExhausted_idle (h : isBridge key = false ∨ (s.link key).failed = true ∨ (s.link key).waiting = none
    ∨ (s.link key).repeated = false ∨ (s.link key).noReplay < 32) : execBridgeRetryExhausted key s = .next s := by
  unfold execBridgeRetryExhausted
  rcases h with h | h | h | h | h <;> simp [h]

variable (hb : isBridge key = true) (hf : (s.link key).failed = false)
include hb hf

section
variable (ho : (s.link key).offer = some c) {x : Carry} {good : Bool} {k : Link}
include ho

theorem execBridgeFlitReceive_takes (ht : c.flit.type ≠ 0xF0) (hx : (s.link key).bridgeTake s.time c err = (x, good, k)) :
    execBridgeFlitReceive key err s
      = .next ((s.setLink key (k.bridgeRx x good c.flit.replay)).driveAll [key, keyReverse key]) := by
  unfold execBridgeFlitReceive
  extract_lets j
  rw [show j.offer = some c from ho]
  refine (if_neg (by simp only [j, hb, hf, beq_eq_false_iff_ne.mpr ht]; decide)).trans ?_
  rw [show j.bridgeTake s.time c err = _ from hx]

variable (ht : c.flit.type = 0xF0)
include ht

/-- A LINK_NAK whose CRC fails is taken off the wires and counted, and asks for nothing. -/
theorem execLinkNakReceive_bad (hx : (s.link key).bridgeTake s.time c err = (x, false, k)) :
    execLinkNakReceive key err s = .next ((s.setLink key { k with crcErr := satInc k.crcErr }).drive key) := by
  unfold execLinkNakReceive
  extract_lets j
  rw [show j.offer = some c from ho]
  refine (if_neg (by simp only [j, hb, hf, ht]; decide)).trans ?_
  rw [show j.bridgeTake s.time c err = _ from hx]
  rfl

variable (hx : (s.link key).bridgeTake s.time c err = (x, true, k))
include hx

theorem execLinkNakReceive_resends {y : Link}
    (hy : ((s.setLink key k).link (keyReverse key)).resendFrom (BitVec.ofNat 16 (numAt x.flit.payload 0 2)) = some y) :
    execLinkNakReceive key err s = .next (((s.setLink key k).setLink (keyReverse key) y).driveAll [key, keyReverse key]) := by
  unfold execLinkNakReceive
  extract_lets j r
  rw [show j.offer = some c from ho]
  refine (if_neg (by simp only [j, hb, hf, ht]; decide)).trans ?_
  rw [show j.bridgeTake s.time c err = _ from hx]
  simp [r, hy]

theorem execLinkNakReceive_gone
    (hn : ((s.setLink key k).link (keyReverse key)).resendFrom (BitVec.ofNat 16 (numAt x.flit.payload 0 2)) = none) :
    execLinkNakReceive key err s = .next (((s.setLink key k).cutLink (keyReverse key) 3).drive key) := by
  unfold execLinkNakReceive
  extract_lets j r
  rw [show j.offer = some c from ho]
  refine (if_neg (by simp only [j, hb, hf, ht]; decide)).trans ?_
  rw [show j.bridgeTake s.time c err = _ from hx]
  simp [r, hn]

end

section
variable {n : BitVec 16} (hw : (s.link key).waiting = some n) (h32 : 32 ≤ (s.link key).noReplay)
include hw h32

theorem execLinkNakRepeat_repeats (hr : (s.link key).repeated = false) : execLinkNakRepeat key s = .next
    ((s.setLink key { s.link key with nak := some n, repeated := true, noReplay := 0, nakRepeat := satInc (s.link key).nakRepeat }).drive
      (keyReverse key)) := by
  simp [execLinkNakRepeat, hw, hb, hf, hr, Nat.not_lt.mpr h32]

theorem execBridgeRetryExhausted_cuts (hr : (s.link key).repeated = true) : execBridgeRetryExhausted key s = .next (s.cutLink key 3) := by
  simp [execBridgeRetryExhausted, hw, hb, hf, hr, Nat.not_lt.mpr h32]

end
end

/-- Everything that a sender resends is marked as a replay (Table 1.6). -/
theorem replay_of_resendFrom {k y : Link} {n : BitVec 16} (h : k.resendFrom n = some y) : ∀ e ∈ y.resend, e.flit.replay = true := by
  unfold Link.resendFrom at h
  dsimp only at h
  split at h
  · cases h
    intro e he
    obtain ⟨d, -, rfl⟩ := List.mem_map.mp he
    rfl
  · cases h

/-- Settles O30: each row by its own equation; what a received flit leaves on its link, by whether it is good, whether the receiver
waits, and whether the flit is the one named. -/
theorem bridgeRetry : Obligations.BridgeRetry := by
  unfold Obligations.BridgeRetry
  simp only [exec_bridgeFlitReceive, exec_linkNakReceive, exec_linkNakRepeat, exec_bridgeRetryExhausted]
  refine ⟨fun key err s => ⟨execBridgeFlitReceive_idle, execLinkNakReceive_idle, execLinkNakRepeat_idle,
    execBridgeRetryExhausted_idle⟩,
    fun key s hb hf => ⟨fun c err x ho ht hx => ?flit, fun c err ho ht => ?nak, fun n hw h32 => ?wait⟩⟩
  case flit =>
    subst hx
    obtain ⟨hseen, hack, hoffer⟩ := bridgeRx_wires ((s.link key).took true s.time)
      { c with flit := flitOf ((s.link key).read true err) } (flitOk ((s.link key).read true err)) c.flit.replay
    refine ⟨_, execBridgeFlitReceive_takes hb hf ho ht (bridgeTake_eq rfl _ c), hseen, hack, hoffer, fun hg hw => ?_, fun hg hw => ?_,
      fun n hw => ⟨fun hg hr hc => ?_, fun hg hr => ?_, fun h => ?_⟩⟩
    · rw [hg, bridgeRx_good (waiting_took.trans hw)]
      exact ⟨rfl, rfl, hw⟩
    · rw [hg, bridgeRx_bad (waiting_took.trans hw)]
      exact ⟨rfl, rfl, rfl, rfl⟩
    · rw [hg, bridgeRx_resent (waiting_took.trans hw)]
      exacts [⟨rfl, rfl, rfl⟩, hr, hc]
    · rw [hg, bridgeRx_no_replay (waiting_took.trans hw)]
      exacts [⟨hw, rfl, rfl⟩, hr]
    · cases hg : flitOk ((s.link key).read true err) with
      | false => exact bridgeRx_bad_again (waiting_took.trans hw) _
      | true =>
        obtain ⟨hr, hc⟩ := h.resolve_left (by simp [hg])
        rw [bridgeRx_other_count (waiting_took.trans hw)]
        exacts [⟨hw, rfl, rfl⟩, hr, hc]
  case nak =>
    refine ⟨fun hg => execLinkNakReceive_bad hb hf ho ht (bridgeTake_eq hg _ c), fun hg r hr => ⟨fun y hy => ?_, fun hn => ?_⟩⟩
    · exact ⟨execLinkNakReceive_resends hb hf ho ht (bridgeTake_eq hg _ c) (hr.symm.trans hy),
        replay_of_resendFrom (hr.symm.trans hy)⟩
    · exact execLinkNakReceive_gone hb hf ho ht (bridgeTake_eq hg _ c) (hr.symm.trans hn)
  case wait =>
    refine ⟨execLinkNakRepeat_repeats hb hf hw h32, fun hr hcan => ⟨_, execBridgeRetryExhausted_cuts hb hf hw h32 hr, ?_, ?_,
      fun k => link_cutLink_ne s 3, (linksDrained_cutLink s key 3).eq⟩⟩ <;> rw [link_cutLink hcan.links hf] <;> rfl

end Sys2Proof.Proofs

/-! ### Pairs and twins at a node position -/

namespace Sys2Proof.Proofs
open Sys2Proof.Machine

section
variable {s : State} {ix : Nat}

theorem stat_of_data (h : ix / 4 % 2 = 0) : s.stat ix = (s.node ix).stat := by simp [State.stat, h]

theorem stat_of_ctl (h : ix / 4 % 2 = 1) : s.stat ix = (s.ctlNode ix).stat := by simp [State.stat, h]

theorem modStat_of_data (h : ix / 4 % 2 = 0) (f : NodeStat → NodeStat) :
    s.modStat ix f = s.setNode ix { s.node ix with stat := f (s.node ix).stat } := by simp [State.modStat, h]

theorem modStat_of_ctl (h : ix / 4 % 2 = 1) (f : NodeStat → NodeStat) :
    s.modStat ix f = s.setCtl ix { s.ctlNode ix with stat := f (s.ctlNode ix).stat } := by simp [State.modStat, h]

theorem node_modStat (hs : canonical s) (h : ix / 4 % 2 = 0) (f : NodeStat → NodeStat) :
    (s.modStat ix f).node ix = { s.node ix with stat := f (s.node ix).stat } := by
  rw [modStat_of_data h, node_setNode hs.nodes]

theorem node_modStat_ne (h : ix / 4 % 2 = 0) (f : NodeStat → NodeStat) {k : Nat} (hk : k ≠ ix) :
    (s.modStat ix f).node k = s.node k := by
  rw [modStat_of_data h, node_setNode_ne s _ hk]

theorem ctlNode_modStat (hs : canonical s) (h : ix / 4 % 2 = 1) (f : NodeStat → NodeStat) :
    (s.modStat ix f).ctlNode ix = { s.ctlNode ix with stat := f (s.ctlNode ix).stat } := by
  rw [modStat_of_ctl h, ctl_setCtl hs.ctls]

theorem canonical_modStat (hs : canonical s) (f : NodeStat → NodeStat) : canonical (s.modStat ix f) := by
  unfold State.modStat
  split
  · exact hs.modCtl ix _ (hs.counts ix)
  · exact hs.modNode ix _

theorem stat_modStat (hs : canonical s) (f : NodeStat → NodeStat) : (s.modStat ix f).stat ix = f (s.stat ix) := by
  rcases Nat.mod_two_eq_zero_or_one (ix / 4) with h | h
  · rw [stat_of_data h, stat_of_data h, node_modStat hs h]
  · rw [stat_of_ctl h, stat_of_ctl h, ctlNode_modStat hs h]

theorem modStat_frame (f : NodeStat → NodeStat) :
    s.modStat ix f = { s with nodes := (s.modStat ix f).nodes, ctls := (s.modStat ix f).ctls } := by
  unfold State.modStat
  split <;> rfl

/-! What losing a twin or the pair is for each field of the status (Tables 12.2 and 12.7). -/

@[simp] theorem pairOut_residue (n : NodeStat) (w : Twin) : (n.residue w).pairOut = n.pairOut := by cases w <;> rfl
@[simp] theorem aOut_residue (n : NodeStat) (w : Twin) : (n.residue w).aOut = n.aOut := by cases w <;> rfl
@[simp] theorem bOut_residue (n : NodeStat) (w : Twin) : (n.residue w).bOut = n.bOut := by cases w <;> rfl
@[simp] theorem pairOut_twinOut (n : NodeStat) (w : Twin) (r : Nat) : (n.twinOut w r).pairOut = n.pairOut := by cases w <;> rfl

theorem linksDrained_foldl_quietLink (ks : List Nat) (s : State) : linksDrained s (ks.foldl State.quietLink s) :=
  foldl_rel linksDrained.refl linksDrained.trans linksDrained_quietLink ks s

/-- A datapath pair out of service: the reason, and no slot left. -/
theorem node_losePair (hs : canonical s) (h : ix / 4 % 2 = 0) (reason : Nat) :
    ((s.losePair ix reason).node ix).stat = (s.node ix).stat.pairLost reason ∧ ((s.losePair ix reason).node ix).slots = [] := by
  let t := (s.modStat ix (fun n => n.pairLost reason)).emptyNode ix
  have hwf : tableWf {} (s.modStat ix (fun n => n.pairLost reason)).nodes = true := (canonical_modStat hs _).nodes
  obtain ⟨-, hkeep⟩ := (linksDrained_foldl_quietLink (linksAt ix) t).nodes (tableWf_tset hwf ix _)
  have ht : t.node ix = { (s.modStat ix (fun n => n.pairLost reason)).node ix with slots := [], outUp := [], outDown := [] } :=
    node_setNode hwf ix _
  obtain ⟨hstat, hslots⟩ := hkeep ix
  rw [ht] at hstat hslots
  rw [node_modStat hs h] at hstat
  exact ⟨hstat, hslots⟩

/-- Losing a pair is nothing to the kiln: LOSS_REGISTER is what tells it. -/
theorem losePair_kiln (s : State) (ix reason : Nat) : (s.losePair ix reason).kiln = s.kiln := by
  rw [State.losePair, (linksDrained_foldl_quietLink _ _).eq]
  change (s.modStat ix _).kiln = s.kiln
  rw [modStat_frame]

end

end Sys2Proof.Proofs

/-! ### O28: a flit at a node -/

namespace Sys2Proof.Proofs
open Sys2Proof.Machine

/-! Which links of a node are bridge links (Table 1.8): those between the kiln and the die nodes. -/

theorem planeOf_lt (ix : Nat) : planeOf ix < 4 := Nat.mod_lt _ (by decide)

theorem isBridge_linkKey {q p : Nat} (hp : p < 4) (d : Dir) : isBridge (linkKey q d p) = (decide (1 ≤ q) && decide (q ≤ 32)) := by
  have hd : dirBit d ≤ 1 := by cases d <;> decide
  have hq : keyQ (linkKey q d p) = q := by simp only [keyQ, linkKey]; omega
  have hleaf : q ≤ 32 → isLeafKey (linkKey q d p) = false := fun h => decide_eq_false (by unfold linkKey; omega)
  by_cases h : q ≤ 32
  · simp [isBridge, hq, hleaf h]
  · simp [isBridge, hq, h]

theorem isBridge_leafLinkKey (l p : Nat) (d : Dir) : isBridge (leafLinkKey l d p) = false := by
  have hleaf : isLeafKey (leafLinkKey l d p) = true := decide_eq_true (by unfold leafLinkKey; omega)
  simp [isBridge, hleaf]

/-- From below, the kiln's inputs are bridges. -/
theorem isBridge_inLink_kiln {p input : Nat} (hp : p < 4) (hi : input < radix 0) : isBridge (inLink 0 p .up input) = true := by
  have hi : input < 32 := hi
  have e : inLink 0 p .up input = linkKey (1 + input) .up p := rfl
  rw [e, isBridge_linkKey hp, decide_eq_true (by omega), decide_eq_true (by omega)]
  rfl

/-- From below, no input of a die node or a cluster node is a bridge. -/
theorem isBridge_inLink_up {q p input : Nat} (hp : p < 4) (hq : q ≠ 0) : isBridge (inLink q p .up input) = false := by
  by_cases h : 33 ≤ q
  · simp only [inLink, h, if_true, isBridge_leafLinkKey]
  · have e : inLink q p .up input = linkKey (33 + 16 * (q - 1) + input) .up p := by
      simp only [inLink, h, if_false, childQ, hq, clusterQ]
    rw [e, isBridge_linkKey hp, decide_eq_false (p := 33 + 16 * (q - 1) + input ≤ 32) (by omega), Bool.and_false]

section
variable {s : State} {node input : Nat} {d : Dir} {err : BitVec 568} {h : Handoff}

theorem exec_nodeFlitArrive (node : Nat) (d : Dir) (input : Nat) (err : BitVec 568) (h : Handoff) (s : State) :
    exec (.nodeFlitArrive node d input err h) s = execNodeFlitArrive node d input err h s := rfl

theorem execNodeFlitArrive_idle (hi : s.dataIx node = false ∨ (s.node node).stat.pairOut = true ∨ (qOf node = 0 ∧ d = .down)
    ∨ radix (qOf node) ≤ input ∨ s.takeFlit (inLink (qOf node) (planeOf node) d input) err = none) :
    execNodeFlitArrive node d input err h s = .next s := by
  unfold execNodeFlitArrive
  rcases hi with hi | hi | ⟨hq, hd⟩ | hi | hi
  · simp [hi]
  · simp [hi]
  · simp [hq, hd]
  · simp [hi]
  · simp [hi]

/-- The position is built and in service, and has the input. -/
def receives (s : State) (node : Nat) (d : Dir) (input : Nat) : Prop :=
  s.dataIx node = true ∧ (s.node node).stat.pairOut = false ∧ ¬(qOf node = 0 ∧ d = .down) ∧ input < radix (qOf node)

variable {c : Carry} {t : State}

theorem execNodeFlitArrive_up_kiln (hr : receives s node .up input) (hq : qOf node = 0)
    (ht : s.takeFlit (inLink (qOf node) (planeOf node) .up input) err = some (some c, t)) :
    execNodeFlitArrive node .up input err h s
      = .next (t.handoff (t.upAt (qOf node) (planeOf node) input c) node c.flit.setter.toNat h).driveKiln := by
  obtain ⟨hd, hp, -, hi⟩ := hr
  rw [hq] at ht hi
  simp [execNodeFlitArrive, hd, hp, hq, Nat.not_le.mpr hi, ht, isBridge_inLink_kiln (planeOf_lt node) hi]

theorem execNodeFlitArrive_up (hr : receives s node .up input) (hq : qOf node ≠ 0)
    (ht : s.takeFlit (inLink (qOf node) (planeOf node) .up input) err = some (some c, t)) :
    execNodeFlitArrive node .up input err h s
      = .next (((t.handoff (t.upAt (qOf node) (planeOf node) input c) node c.flit.setter.toNat h).drive
        (linkKey (qOf node) .up (planeOf node))).drive (inLink (qOf node) (planeOf node) .up input)) := by
  obtain ⟨hd, hp, -, hi⟩ := hr
  simp [execNodeFlitArrive, hd, hp, hq, Nat.not_le.mpr hi, ht, isBridge_inLink_up (planeOf_lt node) hq]

theorem execNodeFlitArrive_down (hr : receives s node .down input)
    (ht : s.takeFlit (inLink (qOf node) (planeOf node) .down input) err = some (some c, t)) {w : State}
    (hw : w = (t.handoff (t.downAt (qOf node) (planeOf node) c) node c.flit.setter.toNat h).driveAll
      (linksBelow (qOf node) (planeOf node))) :
    execNodeFlitArrive node .down input err h s
      = .next (if qOf node ≤ 32 then w else w.drive (inLink (qOf node) (planeOf node) .down input)) := by
  obtain ⟨hd, hp, hq, hi⟩ := hr
  have hq : qOf node ≠ 0 := fun e => hq ⟨e, rfl⟩
  have hb : isBridge (inLink (qOf node) (planeOf node) .down input) = decide (qOf node ≤ 32) := by
    rw [inLink, isBridge_linkKey (planeOf_lt node)]
    simp [Nat.one_le_iff_ne_zero, hq]
  simp [execNodeFlitArrive, hd, hp, hq, Nat.not_le.mpr hi, ht, hb, hw]

/-- A flit whose CRC fails takes its on-die link out of service (R45). -/
theorem execNodeFlitArrive_bad (hr : receives s node d input)
    (hb : isBridge (inLink (qOf node) (planeOf node) d input) = false) {k : Link}
    (hk : k = s.link (inLink (qOf node) (planeOf node) d input)) (hf : k.failed = false) (ho : k.offer = some c)
    (ha : k.arrived c err = none) : execNodeFlitArrive node d input err h s
      = .next ((s.setLink (inLink (qOf node) (planeOf node) d input) { k with crcErr := satInc k.crcErr }).cutLink
        (inLink (qOf node) (planeOf node) d input) 2) := by
  obtain ⟨hd, hp, hq, hi⟩ := hr
  subst hk
  have hq' : (qOf node == 0 && d == .down) = false := by simpa using hq
  simp [execNodeFlitArrive, hd, hp, hq', Nat.not_le.mpr hi, State.takeFlit, hb, hf, ho, ha]

end
section
variable {s : State} {q p i : Nat} {c : Carry}

/-- A stray flit is counted where it is discarded (R32). -/
theorem stray_eq (s : State) (ix : Nat) : s.stray ix
    = s.setNode ix { s.node ix with stat := { (s.node ix).stat with stray := satInc (s.node ix).stat.stray } } := rfl

theorem upAt_stray (h : s.granted? c.flit.setter.toNat = none ∨ (s.node (nodeIx q false p)).slot? c.flit.setter.toNat = none) :
    s.upAt q p i c = s.stray (nodeIx q false p) := by
  unfold State.upAt
  dsimp only
  rcases h with h | h
  · rw [h]
  · rw [h]
    cases s.granted? c.flit.setter.toNat <;> rfl

theorem upAt_active {f : Firing} {y : Slot} (hf : s.granted? c.flit.setter.toNat = some f)
    (hy : (s.node (nodeIx q false p)).slot? c.flit.setter.toNat = some y) :
    s.upAt q p i c = if q = 0 then s.upAtKiln p i f y c else s.upAtNode q p i f y c := by
  unfold State.upAt
  dsimp only
  rw [hf, hy]

theorem downAt_stray (h : s.downFiring c.flit.setter.toNat = none
    ∨ ∃ f, s.downFiring c.flit.setter.toNat = some f ∧ s.activeDown f q p = false) :
    s.downAt q p c = s.stray (nodeIx q false p) := by
  unfold State.downAt
  rcases h with h | ⟨f, h, ha⟩
  · simp [h]
  · simp [h, ha]

theorem downAt_active {f : Firing} (h : s.downFiring c.flit.setter.toNat = some f) (ha : s.activeDown f q p = true) :
    s.downAt q p c = s.setNode (nodeIx q false p) { s.node (nodeIx q false p) with
      outDown := (s.node (nodeIx q false p)).outDown ++ (inputsTo q (c.dst.getD f.receivers)).map (fun i => (i, c)) } := by
  simp [State.downAt, h, ha]

end

theorem mem_addOnce {α : Type} [DecidableEq α] (xs : List α) (x : α) : x ∈ addOnce xs x := by
  unfold addOnce
  split
  · next h => simpa using h
  · simp

/-! The hand-off (Table 1.3), by the twins that the firing has at the node. -/

section
variable {t u : State} {ix x : Nat} {h : Handoff}

theorem handoff_of_no_output (hr : (u.node ix).ready ≤ (t.node ix).ready) : t.handoff u ix x h = u := by
  simp [State.handoff, hr]

theorem handoff_lone (hw : ((t.node ix).twinsFor x = (true, false) ∧ h.firedA = false)
    ∨ ((t.node ix).twinsFor x = (false, true) ∧ h.firedB = false)) : t.handoff u ix x h = u := by
  rcases hw with ⟨hw, hf⟩ | ⟨hw, hf⟩ <;> simp [State.handoff, hw, hf]

variable (hr : (t.node ix).ready < (u.node ix).ready)
include hr

section
variable (hw : (t.node ix).twinsFor x = (true, true))
include hw

theorem handoff_agree (ha : h.firedA = false) (hb : h.firedB = false) (hd : h.differ = false) : t.handoff u ix x h = u := by
  simp [State.handoff, Nat.not_le.mpr hr, hw, ha, hb, hd]

theorem handoff_a_fires (ha : h.firedA = true) (hb : h.firedB = false) : t.handoff u ix x h = u.takeover ix .a := by
  simp [State.handoff, Nat.not_le.mpr hr, hw, ha, hb]

theorem handoff_b_fires (ha : h.firedA = false) (hb : h.firedB = true) : t.handoff u ix x h = u.takeover ix .b := by
  simp [State.handoff, Nat.not_le.mpr hr, hw, ha, hb]

theorem handoff_both_fire (ha : h.firedA = true) (hb : h.firedB = true) :
    t.handoff u ix x h = (t.modStat ix (fun n => (n.residue .a).residue .b)).losePair ix 7 := by
  simp [State.handoff, Nat.not_le.mpr hr, hw, ha, hb]

/-- Twins that differ with neither check firing lose the pair (R35), and the firing is kept for the miscompare's end (R387). -/
theorem handoff_differ (ha : h.firedA = false) (hb : h.firedB = false) (hd : h.differ = true) : ∃ k, t.handoff u ix x h
      = { (t.modStat ix (fun n => { n with miscompare := satInc n.miscompare })).losePair ix 6 with kiln := k }
    ∧ k = { t.kiln with miscomp := k.miscomp } ∧ ∀ f, t.granted? x = some f → (ix, f.uid) ∈ k.miscomp := by
  have hk : ((t.modStat ix (fun n => { n with miscompare := satInc n.miscompare })).losePair ix 6).kiln = t.kiln := by
    rw [losePair_kiln, modStat_frame]
  cases hg : t.granted? x with
  | none =>
    refine ⟨t.kiln, ?_, rfl, fun f hf => by cases hf⟩
    rw [← hk]
    simp [State.handoff, Nat.not_le.mpr hr, hw, ha, hb, hd, hg]
  | some f =>
    refine ⟨{ t.kiln with miscomp := addOnce t.kiln.miscomp (ix, f.uid) }, ?_, rfl, fun f' hf => ?_⟩
    · rw [← hk]
      simp [State.handoff, Nat.not_le.mpr hr, hw, ha, hb, hd, hg, State.modKiln]
    · cases hf
      exact mem_addOnce _ _

end

theorem handoff_lone_a_fires (hw : (t.node ix).twinsFor x = (true, false)) (ha : h.firedA = true) :
    t.handoff u ix x h = (t.modStat ix (fun n => n.residue .a)).losePair ix 7 := by
  simp [State.handoff, Nat.not_le.mpr hr, hw, ha]

theorem handoff_lone_b_fires (hw : (t.node ix).twinsFor x = (false, true)) (hb : h.firedB = true) :
    t.handoff u ix x h = (t.modStat ix (fun n => n.residue .b)).losePair ix 7 := by
  simp [State.handoff, Nat.not_le.mpr hr, hw, hb]

end

/-- Settles O28: the row by what it finds and by the level of the node, then the two deliveries, then the hand-off of the twins. -/
theorem nodeFlit : Obligations.NodeFlit := by
  unfold Obligations.NodeFlit
  simp only [exec_nodeFlitArrive]
  refine ⟨fun node input d err h s => execNodeFlitArrive_idle, fun node input err h s hd hp hi => ⟨fun c t v ht hv => ?up,
    fun c t v ht hv => ?down, fun d c hq hb hcan hf ho ha => ?bad⟩, fun q p i c s => ?deliver, fun t u ix x h => ?handoff⟩
  case up =>
    subst hv
    have hr : receives s node .up input := ⟨hd, hp, (nomatch ·.2), hi⟩
    exact ⟨fun hq => execNodeFlitArrive_up_kiln hr hq ht, fun hq => execNodeFlitArrive_up hr hq ht⟩
  case down =>
    subst hv
    have hr (h0 : qOf node ≠ 0) : receives s node .down input := ⟨hd, hp, fun e => h0 e.1, hi⟩
    refine ⟨fun h1 h32 => ?_, fun h33 => ?_⟩
    · rw [execNodeFlitArrive_down (hr (by omega)) ht rfl, if_pos h32]
    · rw [execNodeFlitArrive_down (hr (by omega)) ht rfl, if_neg (by omega)]
  case bad =>
    refine ⟨_, execNodeFlitArrive_bad ⟨hd, hp, fun e => hq e.1, hi⟩ hb rfl hf ho ha, ?_⟩
    generalize inLink (qOf node) (planeOf node) d input = key at hf
    let u := s.setLink key { s.link key with crcErr := satInc (s.link key).crcErr }
    have hu : u.link key = { s.link key with crcErr := satInc (s.link key).crcErr } := link_setLink hcan.links key _
    have hcut := link_cutLink (s := u) (tableWf_tset hcan.links key _) (by rw [hu]; exact hf) 2
    refine ⟨?_, ?_, ?_, fun k hk => (link_cutLink_ne u 2 hk).trans (link_setLink_ne s _ hk),
      ((linksDrained_setLink s key _).trans (linksDrained_cutLink u key 2)).eq⟩ <;> rw [hcut] <;> rfl
  case deliver =>
    simp only [← stray_eq]
    exact ⟨upAt_stray, fun f y => upAt_active, downAt_stray, fun f => downAt_active⟩
  case handoff =>
    exact ⟨handoff_of_no_output, fun hr => ⟨fun hw => ⟨handoff_agree hr hw, handoff_a_fires hr hw, handoff_b_fires hr hw,
      handoff_both_fire hr hw, handoff_differ hr hw⟩, handoff_lone, fun hw => handoff_lone_a_fires hr hw.1 hw.2,
      fun hw => handoff_lone_b_fires hr hw.1 hw.2⟩⟩

end Sys2Proof.Proofs

/-! ### O29: a twin's fault, and stage cones that expire -/

namespace Sys2Proof.Proofs
open Sys2Proof.Machine

/-- Of a pair, twin `w` is out of service. -/
def twinIsOut (w : Twin) (n : NodeStat) : Prop := (w = .a ∧ n.aOut = true) ∨ (w = .b ∧ n.bOut = true)

/-- Of a pair, twin `w` serves alone. -/
def servesAlone (w : Twin) (n : NodeStat) : Prop :=
  (w = .a ∧ n.aOut = false ∧ n.bOut = true) ∨ (w = .b ∧ n.bOut = false ∧ n.aOut = true)

section
variable {s : State} {ix : Nat} {w : Twin}

theorem isCtl_eq_true : isCtl ix = true ↔ ix / 4 % 2 = 1 := beq_iff_eq

theorem isCtl_eq_false : isCtl ix = false ↔ ix / 4 % 2 = 0 := by
  rw [← Bool.not_eq_true, isCtl_eq_true]
  omega

theorem faultsOnly_nodeEvent (s : State) (ix kind twin count : Nat) : faultsOnly s (s.nodeEvent ix kind twin count) :=
  faultsOnly_fault ..

@[simp] theorem nodeEvent_nodes (s : State) (ix kind twin count : Nat) : (s.nodeEvent ix kind twin count).nodes = s.nodes := by
  rw [(faultsOnly_nodeEvent s ix kind twin count).eq]

@[simp] theorem nodeEvent_ctls (s : State) (ix kind twin count : Nat) : (s.nodeEvent ix kind twin count).ctls = s.ctls := by
  rw [(faultsOnly_nodeEvent s ix kind twin count).eq]

/-- What the kiln notes of its own control-path pair is in the kiln. -/
theorem noteKilnCtl_frame (s : State) : s.noteKilnCtl = { s with kiln := s.noteKilnCtl.kiln } := by
  unfold State.noteKilnCtl
  split <;> rfl

@[simp] theorem noteKilnCtl_nodes (s : State) : s.noteKilnCtl.nodes = s.nodes := by rw [noteKilnCtl_frame]
@[simp] theorem noteKilnCtl_ctls (s : State) : s.noteKilnCtl.ctls = s.ctls := by rw [noteKilnCtl_frame]

/-- Without its control-path pair the kiln admits nothing (R400). -/
theorem admitStopped_noteKilnCtl (h : (s.ctlNode (nodeIx 0 true 0)).stat.pairOut = true) :
    s.noteKilnCtl.kiln.admitStopped = true := by
  simp [State.noteKilnCtl, h]

/-! What a twin's fault is, by what serves at the position. -/

theorem twinFault_of_out (h : (s.stat ix).pairOut = true ∨ twinIsOut w (s.stat ix)) : s.twinFault ix w = s := by
  rcases h with h | ⟨rfl, h⟩ | ⟨rfl, h⟩ <;> simp [State.twinFault, h]

variable (hp : (s.stat ix).pairOut = false)
include hp

theorem twinFault_takeover (ha : (s.stat ix).aOut = false) (hb : (s.stat ix).bOut = false) {r : Nat}
    (hr : r = if ix / 4 % 2 = 1 then 8 else 5) :
    s.twinFault ix w = (s.modStat ix (fun n => n.twinOut w r)).nodeEvent ix r (twinCode w) 0 := by
  subst hr
  cases w <;> simp [State.twinFault, hp, ha, hb]

theorem twinFault_last_data (hc : ix / 4 % 2 = 0) (hw : servesAlone w (s.stat ix)) : s.twinFault ix w = s.losePair ix 7 := by
  rcases hw with ⟨rfl, ha, hb⟩ | ⟨rfl, hb, ha⟩ <;> simp [State.twinFault, hp, ha, hb, hc]

theorem twinFault_last_ctl (hc : ix / 4 % 2 = 1) (hw : servesAlone w (s.stat ix)) :
    s.twinFault ix w = s.modStat ix (fun n => n.pairLost 9) := by
  rcases hw with ⟨rfl, ha, hb⟩ | ⟨rfl, hb, ha⟩ <;> simp [State.twinFault, hp, ha, hb, hc]

end

section
variable {s : State} {ix : Nat} {w : Twin}

/-- A change of status that takes a control-path pair out stands, and the kiln, where the pair is its own, admits nothing more. -/
theorem ctl_pairLost (hs : canonical s) (hc : ix / 4 % 2 = 1) {f : NodeStat → NodeStat} (hf : (f (s.ctlNode ix).stat).pairOut = true)
    {t : State} (ht : t = (s.modStat ix f).noteKilnCtl) :
    (t.ctlNode ix).stat = f (s.ctlNode ix).stat ∧ (ix = nodeIx 0 true 0 → t.kiln.admitStopped = true) := by
  have hstat : ((s.modStat ix f).ctlNode ix).stat = f (s.ctlNode ix).stat := by rw [ctlNode_modStat hs hc]
  subst ht
  refine ⟨by rw [State.ctlNode, noteKilnCtl_ctls]; exact hstat, fun h0 => admitStopped_noteKilnCtl ?_⟩
  rw [← h0, hstat, hf]

section
variable (hs : canonical s) (hp : (s.stat ix).pairOut = false)
include hs hp

/-- A control-path twin goes out while its sibling serves on. -/
theorem ctl_takeover (hc : ix / 4 % 2 = 1) (ha : (s.stat ix).aOut = false) (hb : (s.stat ix).bOut = false) {t : State}
    (ht : t = (s.twinFault ix w).noteKilnCtl) : t.nodes = s.nodes ∧ (t.ctlNode ix).stat = (s.stat ix).twinOut w 8 := by
  rw [twinFault_takeover (r := 8) hp ha hb (by simp [hc])] at ht
  subst ht
  rw [State.ctlNode, noteKilnCtl_ctls, nodeEvent_ctls, noteKilnCtl_nodes, nodeEvent_nodes, stat_of_ctl hc]
  exact ⟨by rw [modStat_of_ctl hc, setCtl_nodes], congrArg CtlNode.stat (ctlNode_modStat hs hc _)⟩

/-- A datapath twin goes out while its sibling serves on: that status, and records. -/
theorem data_takeover (hc : ix / 4 % 2 = 0) (ha : (s.stat ix).aOut = false) (hb : (s.stat ix).bOut = false) {t : State}
    (ht : t = (s.twinFault ix w).noteKilnCtl) : t.node ix = { s.node ix with stat := (s.stat ix).twinOut w 5 }
      ∧ (∀ k, k ≠ ix → t.node k = s.node k)
      ∧ t = { s with nodes := t.nodes, kiln := t.kiln, faultLog := t.faultLog, ports := t.ports, smb := t.smb, trace := t.trace,
                     counters := t.counters } := by
  rw [twinFault_takeover (r := 5) hp ha hb (by simp [hc])] at ht
  have hnode (k : Nat) : t.node k = (s.modStat ix (fun n => n.twinOut w 5)).node k := by
    rw [ht, State.node, noteKilnCtl_nodes, nodeEvent_nodes, State.node]
  refine ⟨?_, fun k hk => (hnode k).trans (node_modStat_ne hc _ hk), ?_⟩
  · rw [hnode, node_modStat hs hc, stat_of_data hc]
  · rw [ht, noteKilnCtl_frame, (faultsOnly_nodeEvent _ _ _ _ _).eq, modStat_of_data hc]
    rfl

/-- A datapath pair loses its last twin: it is out with reason 7, and keeps no slot. -/
theorem data_pairLost (hc : ix / 4 % 2 = 0) (hw : servesAlone w (s.stat ix)) {t : State} (ht : t = (s.twinFault ix w).noteKilnCtl) :
    (t.node ix).stat = (s.stat ix).pairLost 7 ∧ (t.node ix).slots = [] := by
  rw [ht, twinFault_last_data hp hc hw, State.node, noteKilnCtl_nodes, stat_of_data hc]
  exact node_losePair hs hc 7

end

/-- The state once the firing of a residue check is counted (Table 12.6); nothing counts a link copy's CRC. -/
def counted (s : State) (ix : Nat) (w : Twin) (c : TwinCause) : State :=
  if c = .residue then s.modStat ix (fun n => n.residue w) else s

theorem canonical_counted (hs : canonical s) (c : TwinCause) : canonical (counted s ix w c) := by
  unfold counted
  split
  · exact canonical_modStat hs _
  · exact hs

theorem stat_counted (hs : canonical s) (c : TwinCause) :
    (counted s ix w c).stat ix = if c = .residue then (s.stat ix).residue w else s.stat ix := by
  unfold counted
  split
  · exact stat_modStat hs _
  · rfl

theorem counted_of_data (hc : ix / 4 % 2 = 0) :
    counted s ix w .residue = s.setNode ix { s.node ix with stat := (s.node ix).stat.residue w } := by
  rw [counted, if_pos rfl, modStat_of_data hc]

theorem counted_nodes_of_ctl (hc : ix / 4 % 2 = 1) (c : TwinCause) : (counted s ix w c).nodes = s.nodes := by
  unfold counted
  split
  · rw [modStat_of_ctl hc, setCtl_nodes]
  · rfl

/-- Counting a firing takes nothing out. -/
theorem twins_counted (hs : canonical s) (c : TwinCause) : ((counted s ix w c).stat ix).pairOut = (s.stat ix).pairOut
    ∧ ((counted s ix w c).stat ix).aOut = (s.stat ix).aOut ∧ ((counted s ix w c).stat ix).bOut = (s.stat ix).bOut := by
  rw [stat_counted hs]
  split <;> simp

theorem servesAlone_counted (hs : canonical s) (c : TwinCause) :
    servesAlone w ((counted s ix w c).stat ix) ↔ servesAlone w (s.stat ix) := by
  obtain ⟨-, ha, hb⟩ := twins_counted (ix := ix) (w := w) hs c
  rw [servesAlone, servesAlone, ha, hb]

theorem twinIsOut_counted (hs : canonical s) (c : TwinCause) :
    twinIsOut w ((counted s ix w c).stat ix) ↔ twinIsOut w (s.stat ix) := by
  obtain ⟨-, ha, hb⟩ := twins_counted (ix := ix) (w := w) hs c
  rw [twinIsOut, twinIsOut, ha, hb]

theorem exec_stageConeExpiry (h : Handshake) (s : State) : exec (.stageConeExpiry h) s = execStageConeExpiry h s := rfl

theorem execTwinResidueFire_idle {c : TwinCause} (h : s.nodeBuilt (qOf ix) = false ∨ (s.stat ix).pairOut = true
    ∨ (isCtl ix = false ∧ c ≠ .residue)) : execTwinResidueFire ix ⟨w, c⟩ s = .next s := by
  unfold execTwinResidueFire
  rcases h with h | h | ⟨h, hc⟩
  · simp [h]
  · simp [h]
  · cases c with
    | residue => exact absurd rfl hc
    | linkCrc => simp [h]
    | compare => simp [h]

section
variable (hq : s.nodeBuilt (qOf ix) = true) (hp : (s.stat ix).pairOut = false)
include hq hp

/-- A fault that a residue check or a failed CRC of a link copy shows is counted, and resolved as its twin's. -/
theorem execTwinResidueFire_resolves {c : TwinCause} (hc : c = .residue ∨ isCtl ix = true) (h : c ≠ .compare) :
    execTwinResidueFire ix ⟨w, c⟩ s = .next ((counted s ix w c).twinFault ix w).noteKilnCtl := by
  cases c with
  | residue => simp [execTwinResidueFire, counted, hq, hp]
  | linkCrc => simp [execTwinResidueFire, counted, hq, hp, hc.resolve_left nofun]
  | compare => exact absurd rfl h

theorem execTwinResidueFire_compare (hc : isCtl ix = true) :
    execTwinResidueFire ix ⟨w, .compare⟩ s = .next (s.ctlDiffers ix).noteKilnCtl := by
  simp [execTwinResidueFire, hq, hp, hc]

end

theorem execStageConeExpiry_link (hf : (s.link ix).failed = false) (ho : (s.link ix).offer.isSome = true) :
    execStageConeExpiry (.link ix) s = .next (s.cutLink ix 4) := by
  simp [execStageConeExpiry, hf, Option.isSome_iff_ne_none.mp ho]

theorem execStageConeExpiry_link_idle (h : (s.link ix).failed = true ∨ (s.link ix).offer = none) :
    execStageConeExpiry (.link ix) s = .next s := by
  rcases h with h | h <;> simp [execStageConeExpiry, h]

theorem execStageConeExpiry_ctrl_idle (h : s.nodeBuilt (qOf ix) = false ∨ isCtl ix = false) :
    execStageConeExpiry (.ctrl ix w) s = .next s := by
  rw [isCtl_eq_false] at h
  rcases h with h | h <;> simp [execStageConeExpiry, h]

theorem execStageConeExpiry_ctrl (hq : s.nodeBuilt (qOf ix) = true) (hc : isCtl ix = true) :
    execStageConeExpiry (.ctrl ix w) s = .next (s.twinFault ix w).noteKilnCtl := by
  simp [execStageConeExpiry, hq, isCtl_eq_true.mp hc]

theorem execStageConeExpiry_no_leaf (h : s.leafExists ix = false) (d : Dir) : execStageConeExpiry (.leafCtrl ix w d) s = .next s := by
  cases d <;> simp [execStageConeExpiry, h]

theorem execStageConeExpiry_leaf_down (h : s.leafExists ix = true) :
    execStageConeExpiry (.leafCtrl ix w .down) s = .next (s.twinFault (leafCtl ix) w) := by
  simp [execStageConeExpiry, h]

theorem execStageConeExpiry_leaf_up (h : s.leafExists ix = true) :
    execStageConeExpiry (.leafCtrl ix w .up) s = .next (s.leafCopyLost ix w) := by
  simp [execStageConeExpiry, h]

/-- A leaf port that differs from the default one reads back as written, whatever the table. -/
theorem leaf_setLeaf_of_ne_default {p : LeafPort} (h : p ≠ {}) : (s.setLeaf ix p).leaf ix = p := by
  rw [State.leaf, setLeaf_leaves, tset, if_neg h, tget_tinsert_self]

/-- A leaf port after copy `w` of its own control link is lost. -/
def copyMarked (p : LeafPort) (w : Twin) : LeafPort := { p with ctlA := p.ctlA || w == .a, ctlB := p.ctlB || w == .b }

theorem copyMarked_a (p : LeafPort) : copyMarked p .a = { p with ctlA := true } := by
  simp only [copyMarked, show (Twin.a == .a) = true from rfl, show (Twin.a == .b) = false from rfl, Bool.or_true, Bool.or_false]

theorem copyMarked_b (p : LeafPort) : copyMarked p .b = { p with ctlB := true } := by
  simp only [copyMarked, show (Twin.b == .b) = true from rfl, show (Twin.b == .a) = false from rfl, Bool.or_true, Bool.or_false]

theorem copyMarked_ne_default (p : LeafPort) (w : Twin) : copyMarked p w ≠ {} := by
  intro e
  cases w with
  | a => simpa [copyMarked_a] using congrArg LeafPort.ctlA e
  | b => simpa [copyMarked_b] using congrArg LeafPort.ctlB e

theorem leafCopyLost_again (h : (w = .a ∧ (s.leaf ix).ctlA = true) ∨ (w = .b ∧ (s.leaf ix).ctlB = true)) :
    s.leafCopyLost ix w = s := by
  rcases h with ⟨rfl, h⟩ | ⟨rfl, h⟩ <;> simp [State.leafCopyLost, h]

theorem leafCopyLost_eq (h : (w = .a ∧ (s.leaf ix).ctlA = false) ∨ (w = .b ∧ (s.leaf ix).ctlB = false)) :
    s.leafCopyLost ix w = (s.setLeaf ix (copyMarked (s.leaf ix) w)).fault
      { kind := 8, rank := s.cfg.rankOf ix, wh := ix, twin := twinCode w, ctrl := true } (s.leafSags ix) := by
  rcases h with ⟨rfl, h⟩ | ⟨rfl, h⟩ <;> simp [State.leafCopyLost, copyMarked_a, copyMarked_b, h]

end

section
variable {node : Nat} {w : Twin} {s : State} (hcan : canonical s)
include hcan

section
variable (hd : s.dataIx node = true) (hp : (s.node node).stat.pairOut = false)
include hd hp

/-- A residue check on the datapath is resolved as its twin's fault. -/
theorem exec_residue_data : ∃ u, u = counted s node w .residue ∧ node / 4 % 2 = 0 ∧ canonical u ∧ (u.stat node).pairOut = false
    ∧ exec (.twinResidueFire node ⟨w, .residue⟩) s = .next (u.twinFault node w).noteKilnCtl := by
  obtain ⟨hc, hq⟩ : node / 4 % 2 = 0 ∧ s.nodeBuilt (qOf node) = true := by simpa [State.dataIx] using hd
  rw [← stat_of_data hc] at hp
  obtain ⟨hpair, -⟩ := twins_counted (ix := node) (w := w) hcan .residue
  exact ⟨_, rfl, hc, canonical_counted hcan _, hpair.trans hp, execTwinResidueFire_resolves hq hp (.inl rfl) nofun⟩

theorem residueFire_takes_twin_out (ha : (s.node node).stat.aOut = false) (hb : (s.node node).stat.bOut = false) :
    ∃ t, exec (.twinResidueFire node ⟨w, .residue⟩) s = .next t
      ∧ (t.node node).stat = ((s.node node).stat.residue w).twinOut w 5 ∧ (t.node node).stat.pairOut = false
      ∧ (t.node node).slots = (s.node node).slots ∧ (∀ k, k ≠ node → t.node k = s.node k)
      ∧ t = { s with nodes := t.nodes, kiln := t.kiln, faultLog := t.faultLog, ports := t.ports, smb := t.smb, trace := t.trace,
                     counters := t.counters } := by
  obtain ⟨u, hu, hc, hcanu, hpu, hexec⟩ := exec_residue_data (w := w) hcan hd hp
  have hset := counted_of_data (s := s) (w := w) hc
  obtain ⟨-, hau, hbu⟩ := twins_counted (ix := node) (w := w) hcan .residue
  rw [← stat_of_data hc] at ha hb
  rw [← hu] at hset hau hbu
  obtain ⟨hnode, hother, hframe⟩ := data_takeover (w := w) hcanu hpu hc (hau.trans ha) (hbu.trans hb) rfl
  have hstat : (u.stat node) = (s.node node).stat.residue w := by rw [hu, stat_counted hcan, if_pos rfl, stat_of_data hc]
  have hslots : (u.node node).slots = (s.node node).slots := by rw [hset, node_setNode hcan.nodes]
  refine ⟨_, hexec, by rw [hnode, hstat], by rw [hnode, pairOut_twinOut, hpu], by rw [hnode, hslots], fun k hk => ?_, ?_⟩
  · rw [hother k hk, hset, node_setNode_ne s _ hk]
  · rw [hframe, hset]
    rfl

theorem residueFire_loses_pair (hw : servesAlone w (s.node node).stat) : ∃ t, exec (.twinResidueFire node ⟨w, .residue⟩) s = .next t
    ∧ (t.node node).stat.pairOut = true ∧ (t.node node).stat.outReason = 7 ∧ (t.node node).slots = [] := by
  obtain ⟨u, hu, hc, hcanu, hpu, hexec⟩ := exec_residue_data (w := w) hcan hd hp
  rw [← stat_of_data hc, ← servesAlone_counted (w := w) hcan .residue, ← hu] at hw
  obtain ⟨hlost, hslots⟩ := data_pairLost hcanu hpu hc hw rfl
  exact ⟨_, hexec, by rw [hlost]; rfl, by rw [hlost]; rfl, hslots⟩

theorem residueFire_of_twin_out (hw : twinIsOut w (s.node node).stat) : ∃ t, exec (.twinResidueFire node ⟨w, .residue⟩) s = .next t
    ∧ (t.node node).stat = (s.node node).stat.residue w ∧ t = { s with nodes := t.nodes, kiln := t.kiln } := by
  obtain ⟨u, hu, hc, hcanu, hpu, hexec⟩ := exec_residue_data (w := w) hcan hd hp
  rw [← stat_of_data hc, ← twinIsOut_counted (w := w) hcan .residue, ← hu] at hw
  rw [twinFault_of_out (.inr hw)] at hexec
  refine ⟨_, hexec, ?_, ?_⟩
  · rw [State.node, noteKilnCtl_nodes, hu, counted_of_data hc]
    exact congrArg Node.stat (node_setNode hcan.nodes node _)
  · rw [noteKilnCtl_frame, hu, counted_of_data hc]
    rfl

end

section
variable (hctl : isCtl node = true) (hq : s.nodeBuilt (qOf node) = true) (hp : (s.ctlNode node).stat.pairOut = false)
include hctl hq hp

/-- A fault of one twin on the control path is resolved as that twin's. -/
theorem exec_twinFire_ctl {c : TwinCause} (h : c ≠ .compare) : ∃ u, u = counted s node w c ∧ canonical u
    ∧ (u.stat node).pairOut = false ∧ exec (.twinResidueFire node ⟨w, c⟩) s = .next (u.twinFault node w).noteKilnCtl := by
  rw [← stat_of_ctl (isCtl_eq_true.mp hctl)] at hp
  obtain ⟨hpair, -⟩ := twins_counted (ix := node) (w := w) hcan c
  exact ⟨_, rfl, canonical_counted hcan _, hpair.trans hp, execTwinResidueFire_resolves hq hp (.inr hctl) h⟩

theorem twinFire_ctl_takes_twin_out {c : TwinCause} (h : c ≠ .compare) (ha : (s.ctlNode node).stat.aOut = false)
    (hb : (s.ctlNode node).stat.bOut = false) : ∃ t, exec (.twinResidueFire node ⟨w, c⟩) s = .next t ∧ t.nodes = s.nodes
      ∧ (t.ctlNode node).stat.pairOut = false
      ∧ (t.ctlNode node).stat = (if c = .residue then (s.ctlNode node).stat.residue w else (s.ctlNode node).stat).twinOut w 8 := by
  have hc := isCtl_eq_true.mp hctl
  obtain ⟨u, hu, hcanu, hpu, hexec⟩ := exec_twinFire_ctl (w := w) hcan hctl hq hp h
  obtain ⟨-, hau, hbu⟩ := twins_counted (ix := node) (w := w) hcan c
  rw [← stat_of_ctl hc] at ha hb
  rw [← hu] at hau hbu
  obtain ⟨hnodes, hstat⟩ := ctl_takeover (w := w) hcanu hpu hc (hau.trans ha) (hbu.trans hb) rfl
  refine ⟨_, hexec, hnodes.trans (hu ▸ counted_nodes_of_ctl hc c), by rw [hstat, pairOut_twinOut, hpu], ?_⟩
  rw [hstat, hu, stat_counted hcan, stat_of_ctl hc]

theorem twinFire_ctl_loses_pair {c : TwinCause} (h : c ≠ .compare) (hw : servesAlone w (s.ctlNode node).stat) :
    ∃ t, exec (.twinResidueFire node ⟨w, c⟩) s = .next t ∧ (t.ctlNode node).stat.pairOut = true
      ∧ (t.ctlNode node).stat.outReason = 9 ∧ (node = nodeIx 0 true 0 → t.kiln.admitStopped = true) := by
  have hc := isCtl_eq_true.mp hctl
  obtain ⟨u, hu, hcanu, hpu, hexec⟩ := exec_twinFire_ctl (w := w) hcan hctl hq hp h
  rw [← stat_of_ctl hc, ← servesAlone_counted (w := w) hcan c, ← hu] at hw
  rw [twinFault_last_ctl hpu hc hw] at hexec
  obtain ⟨hlost, hstop⟩ := ctl_pairLost hcanu hc (f := fun n => n.pairLost 9) rfl rfl
  exact ⟨_, hexec, congrArg NodeStat.pairOut hlost, congrArg NodeStat.outReason hlost, hstop⟩

theorem compareFire_loses_pair : ∃ t, exec (.twinResidueFire node ⟨w, .compare⟩) s = .next t
    ∧ (t.ctlNode node).stat.pairOut = true
    ∧ (t.ctlNode node).stat.outReason = 9 ∧ (t.ctlNode node).stat.miscompare = satInc (s.ctlNode node).stat.miscompare := by
  have hc := isCtl_eq_true.mp hctl
  rw [← stat_of_ctl hc] at hp
  obtain ⟨hlost, -⟩ := ctl_pairLost hcan hc (f := fun n => { n with miscompare := satInc n.miscompare }.pairLost 9) rfl rfl
  exact ⟨_, execTwinResidueFire_compare (w := w) hq hp hctl, congrArg NodeStat.pairOut hlost, congrArg NodeStat.outReason hlost,
    congrArg NodeStat.miscompare hlost⟩

end

theorem coneExpiry_cuts_link {key : Nat} (hf : (s.link key).failed = false) (ho : (s.link key).offer.isSome = true) :
    ∃ t, exec (.stageConeExpiry (.link key)) s = .next t ∧ (t.link key).failed = true ∧ (t.link key).reason = 4
      ∧ (t.link key).offer = none ∧ (t.link key).reported = false ∧ (∀ k, k ≠ key → t.link k = s.link k)
      ∧ t = { s with links := t.links, nodes := t.nodes } := by
  refine ⟨_, execStageConeExpiry_link hf ho, ?_, ?_, ?_, ?_, fun k => link_cutLink_ne s 4, (linksDrained_cutLink s key 4).eq⟩ <;>
    rw [link_cutLink hcan.links hf] <;> rfl

end

theorem coneExpiry_marks_leaf_copy {l : Nat} {w : Twin} {s : State} (h : s.leafExists l = true)
    (hw : (w = .a ∧ (s.leaf l).ctlA = false) ∨ (w = .b ∧ (s.leaf l).ctlB = false)) :
    ∃ t, exec (.stageConeExpiry (.leafCtrl l w .up)) s = .next t ∧ faultsOnly (s.setLeaf l (copyMarked (s.leaf l) w)) t
      ∧ t.leaf l = copyMarked (s.leaf l) w ∧ ∀ k, k ≠ l → t.leaf k = s.leaf k := by
  rw [exec_stageConeExpiry, execStageConeExpiry_leaf_up h, leafCopyLost_eq hw]
  have hfault := faultsOnly_fault (s.setLeaf l (copyMarked (s.leaf l) w))
    { kind := 8, rank := s.cfg.rankOf l, wh := l, twin := twinCode w, ctrl := true } (s.leafSags l)
  refine ⟨_, rfl, hfault, ?_, fun k hk => ?_⟩ <;> rw [hfault.eq]
  · exact leaf_setLeaf_of_ne_default (copyMarked_ne_default _ w)
  · exact leaf_setLeaf_ne s _ hk

/-- Settles O29: a twin's fault by the path it is on and by what serves there, then each handshake that a stage cone watches. -/
theorem twinsAndCones : Obligations.TwinsAndCones := by
  unfold Obligations.TwinsAndCones
  refine ⟨fun node w c s => execTwinResidueFire_idle, fun node w s hcan hd hp => ?data, fun node w c s hcan hctl hq hp => ?control,
    fun key s hcan => ?link, fun node w s => ?ctrl, fun l w s => ⟨execStageConeExpiry_no_leaf, fun h => ?leaf⟩⟩
  case data =>
    exact ⟨residueFire_takes_twin_out hcan hd hp, residueFire_loses_pair hcan hd hp, residueFire_of_twin_out hcan hd hp⟩
  case control =>
    refine ⟨twinFire_ctl_takes_twin_out hcan hctl hq hp, twinFire_ctl_loses_pair hcan hctl hq hp, fun h => ?_⟩
    subst h
    exact compareFire_loses_pair hcan hctl hq hp
  case link => exact ⟨coneExpiry_cuts_link hcan, execStageConeExpiry_link_idle⟩
  case ctrl =>
    refine ⟨execStageConeExpiry_ctrl_idle, fun hq hctl => ⟨execStageConeExpiry_ctrl hq hctl, fun hp => ?_⟩⟩
    rw [← stat_of_ctl (isCtl_eq_true.mp hctl)] at hp
    exact (execTwinResidueFire_resolves (c := .linkCrc) hq hp (.inr hctl) nofun).trans (execStageConeExpiry_ctrl hq hctl).symm
  case leaf =>
    refine ⟨execStageConeExpiry_leaf_down h, fun hw => ?_, fun hw => ?_⟩
    · exact (execStageConeExpiry_leaf_up h).trans (congrArg _ (leafCopyLost_again hw))
    · obtain ⟨t, hexec, hfault, hleaf, hother⟩ := coneExpiry_marks_leaf_copy h hw
      exact ⟨t, hexec, by rw [hfault.eq]; rfl, hleaf, fun _ => hother⟩

end Sys2Proof.Proofs

/-! ### O25: the grant -/

namespace Sys2Proof.Proofs
open Sys2Proof.Machine

theorem nextFn_allOnes : nextFn (BitVec.allOnes 48) = 1 := if_pos rfl

theorem toNat_nextFn {x : BitVec 48} (h : x ≠ BitVec.allOnes 48) : (nextFn x).toNat = x.toNat + 1 := by
  have hlt : x.toNat + 1 < 2 ^ 48 := by
    have hne : x.toNat ≠ 2 ^ 48 - 1 := fun e => h (BitVec.eq_of_toNat_eq (e.trans (by decide)))
    have hx := x.isLt
    omega
  rw [nextFn, if_neg h, BitVec.toNat_add]
  exact Nat.mod_eq_of_lt hlt

/-- Zero is no firing number (R308). -/
theorem nextFn_ne_zero (x : BitVec 48) : nextFn x ≠ 0 := by
  by_cases h : x = BitVec.allOnes 48
  · rw [h, nextFn_allOnes]
    decide
  · intro h0
    have hnat := toNat_nextFn h
    rw [h0] at hnat
    exact absurd hnat (Nat.succ_ne_zero x.toNat).symm

section
variable {s : State} {f : Firing}

theorem exec_grant (s : State) : exec .grant s = execGrant s := rfl

theorem execGrant_idle (h : s.kiln.paceHold = true ∨ s.kiln.admitStopped = true) : execGrant s = .next s := by
  rcases h with h | h <;> simp [execGrant, h]

section
variable (hp : s.kiln.paceHold = false) (ha : s.kiln.admitStopped = false)
include hp ha

theorem execGrant_of_none (hf : s.offer.pickGrant = none) : execGrant s = .next s.offer := by
  simp [execGrant, hp, ha, hf]

variable (hf : s.offer.pickGrant = some f)
include hf

theorem execGrant_of_kaccCheck {st : BitVec 8} {c : Nat} (hk : s.offer.kaccCheck f = some (st, c)) :
    execGrant s = .next (s.offer.kaccRefuse f st c).offer := by
  simp [execGrant, hp, ha, hf, hk]

theorem execGrant_of_depCheck {st : BitVec 8} {c : Nat} (hk : s.offer.kaccCheck f = none) (hd : s.offer.depCheck f = some (st, c)) :
    execGrant s = .next (s.offer.decideEnd f.uid st 0xFFFF c).offer := by
  simp [execGrant, hp, ha, hf, hk, hd]

theorem execGrant_grants (hk : s.offer.kaccCheck f = none) (hd : s.offer.depCheck f = none) : execGrant s
    = .next ((((s.offer.grantOne f).startGranted f.uid).sendEnds (s.offer.kiln.firings.length + 1) f.group).offer.noteOld).driveKiln := by
  simp [execGrant, hp, ha, hf, hk, hd]

end

/-! What a grant does beside the kiln's own change: slots of nodes, segments of die slices, a trace record and messages downward. -/

/-- A fold whose every step leaves the kiln alone leaves it alone. -/
theorem foldl_kiln {α : Type} {f : State → α → State} (step : ∀ a x, (f a x).kiln = a.kiln) (xs : List α) (s : State) :
    (xs.foldl f s).kiln = s.kiln :=
  foldl_rel (R := fun a b => b.kiln = a.kiln) (fun _ => rfl) (fun h k => k.trans h) step xs s

theorem openSlots_kiln (s : State) (f : Firing) (planes : List Nat) : (s.openSlots f planes).kiln = s.kiln := by
  unfold State.openSlots
  split
  · rfl
  · refine foldl_kiln (fun a p => ?_) planes s
    exact foldl_kiln (fun _ _ => by rfl) _ a

theorem keepAwake_kiln (s : State) (f : Firing) : (s.keepAwake f).kiln = s.kiln :=
  foldl_kiln (fun _ _ => by rfl) _ s

theorem sendDown_kiln (s : State) (m : CtlMsg) : (s.sendDown m).kiln = s.kiln :=
  foldl_kiln (fun _ _ => by rfl) _ s

theorem sendGrant_kiln (s : State) (f : Firing) : (s.sendGrant f).kiln = s.kiln := by
  rw [State.sendGrant, sendDown_kiln, traceOffer_frame]

/-- The firing as its grant leaves it (R308): numbered, stamped, on its planes, and waiting for nothing more. -/
def grantedAs (s : State) (f : Firing) : Firing :=
  { f with
    st := .granted, fn := nextFn s.kiln.lastFn, bornFn := nextFn s.kiln.lastFn, ts := s.time,
    planes := if f.usesPlane then s.hNow f else [],
    deals := if (if f.usesPlane then s.hNow f else []).isEmpty then [] else [if f.usesPlane then s.hNow f else []],
    latency := f.usesPlane && s.wouldLatency f, wants := [], asked := [], heldSlots := [], heldGlaze := [],
    region := s.regionEntry f.desc.depRegion, bound := (s.digestOf f).map (fun e => (e.1, e.2.1)),
    prov := match s.digestOf f with
      | some e => e.2.2
      | none => 0 }

/-- All that a grant changes at the kiln. -/
theorem grantOne_kiln (s : State) (f : Firing) : (s.grantOne f).kiln = { s.kiln with
    lastFn := nextFn s.kiln.lastFn
    firings := modFirst (fun x => x.uid == f.uid) (fun _ => grantedAs s f) s.kiln.firings
    kaccs := (s.grantOne f).kiln.kaccs
    groups := tmod {} s.kiln.groups f.group (fun r => { r with nextOrd := f.ord + 1 }) } := by
  unfold State.grantOne
  dsimp only
  simp only [sendGrant_kiln, State.modGroup, State.modKacc, modKiln_kiln, apply_ite State.kiln, keepAwake_kiln, openSlots_kiln, ite_self]
  split <;> rfl

/-- The firing of the number is afterwards the granted one. -/
theorem firing?_grantOne (h : s.firing? f.uid = some f) : (s.grantOne f).firing? f.uid = some (grantedAs s f) := by
  have hfind := find?_modFirst (p := fun x : Firing => x.uid == f.uid) (f := fun _ => grantedAs s f)
    (fun _ _ => beq_self_eq_true f.uid) s.kiln.firings
  rw [State.firing?, grantOne_kiln]
  exact hfind.trans (congrArg (Option.map fun _ => grantedAs s f) h)

/-- Whatever stood there, an entry written with another value than the default reads as written. -/
theorem tget_tset_of_ne_default {α : Type} [DecidableEq α] {d v : α} (h : v ≠ d) (t : Table α) (k : Nat) :
    tget d (tset d t k v) k = v := by
  rw [tset, if_neg h, tget_tinsert_self]

/-- The group's next firing may follow: its order is no longer the order 0 of a group of which nothing has run. -/
theorem nextOrd_grantOne (s : State) (f : Firing) : (tget {} (s.grantOne f).kiln.groups f.group).nextOrd = f.ord + 1 := by
  have hne : { tget {} s.kiln.groups f.group with nextOrd := f.ord + 1 } ≠ ({} : GroupRun) := fun h =>
    Nat.succ_ne_zero f.ord (congrArg GroupRun.nextOrd h)
  rw [grantOne_kiln]
  exact congrArg GroupRun.nextOrd (tget_tset_of_ne_default hne s.kiln.groups f.group)

end

/-- Settles O25: by what the row finds at the kiln after its offers, and the one equation of what a grant changes there. -/
theorem grant : Obligations.Grant := by
  unfold Obligations.Grant
  refine ⟨fun x => ⟨nextFn_ne_zero x, toNat_nextFn, fun h => h ▸ nextFn_allOnes⟩,
    fun s h => ?idle, fun s hp ha => ?row, fun f s _ hf => ?one⟩
  case idle =>
    rw [exec_grant, execGrant_idle h]
  case row =>
    rw [exec_grant]
    exact ⟨execGrant_of_none hp ha, fun f hf => ⟨fun _ _ => execGrant_of_kaccCheck hp ha hf, fun _ _ => execGrant_of_depCheck hp ha hf,
      execGrant_grants hp ha hf⟩⟩
  case one =>
    exact ⟨by rw [grantOne_kiln], nextOrd_grantOne s f, grantedAs s f, firing?_grantOne hf, rfl, rfl, rfl, rfl, rfl, rfl, rfl, rfl, rfl⟩

end Sys2Proof.Proofs

/-! ### O37: the failure of a leaf port -/

namespace Sys2Proof.Proofs
open Sys2Proof.Machine

section
variable {l : Nat} {s : State}

/-! The leaf port's side: it fails and ends what it has taken (R401, R402). -/

theorem exec_leafPortFailureSignal (l : Nat) (s : State) :
    exec (.leafPortFailureSignal l) s = execLeafPortFailureSignal l s := rfl

theorem execLeafPortFailureSignal_idle (h : s.leafExists l = false ∨ (s.leaf l).failed = true ∨ s.leafMustFail l = false) :
    execLeafPortFailureSignal l s = .next s := by
  rcases h with h | h | h <;> simp [execLeafPortFailureSignal, h]

theorem execLeafPortFailureSignal_fails (he : s.leafExists l = true) (hf : (s.leaf l).failed = false) (hm : s.leafMustFail l = true) :
    execLeafPortFailureSignal l s = .next (s.setLeaf l ((s.leaf l).fail.endAll s.time)) := by
  simp [execLeafPortFailureSignal, he, hf, hm]

theorem fail_of_working {p : LeafPort} (h : p.failed = false) : p.fail = { p with
    failed := true, failReported := false, enable := false, intStatus := setBit p.intStatus ibErrRecord } := by
  simp [LeafPort.fail, LeafPort.raise, h]

theorem endAll_frame (p : LeafPort) (ts : Quad) : p.endAll ts = { p with taken := (p.endAll ts).taken } := rfl

/-- Nothing that a failed leaf port has taken goes on: a firing has an end, and so has a pass. -/
theorem ended_of_mem_endAll {p : LeafPort} {ts : Quad} {t : Taken} (h : t ∈ (p.endAll ts).taken) :
    (t.phase ≠ .pass → t.ended ≠ none) ∧ (t.phase = .pass → t.passEnd ≠ none) := by
  obtain ⟨x, -, rfl⟩ := List.mem_map.mp h
  split
  · next hpass => exact ⟨fun hp => absurd hpass hp, fun _ => Option.some_ne_none _⟩
  · next _ hfire => exact ⟨fun _ => Option.some_ne_none _, fun hp => absurd hp hfire⟩
  · next hended hfire => exact ⟨fun _ => hended ▸ Option.some_ne_none _, fun hp => absurd hp hfire⟩

/-! The kiln's side: the failure is registered (R403). -/

theorem exec_leafFailureRegister (l : Nat) (s : State) : exec (.leafFailureRegister l) s = execLeafFailureRegister l s := rfl

theorem execLeafFailureRegister_idle (h : (s.leaf l).failed = false ∨ (s.leaf l).failReported = true) :
    execLeafFailureRegister l s = .next s := by
  rcases h with h | h <;> simp [execLeafFailureRegister, h]

theorem execLeafFailureRegister_registers (hf : (s.leaf l).failed = true) (hr : (s.leaf l).failReported = false) :
    execLeafFailureRegister l s = .next (s.registerLeaf l).offer.driveKiln := by
  simp [execLeafFailureRegister, hf, hr]

/-- `t` is `s` but for ARMs that control-path nodes have sent on. -/
def armsOnly (s t : State) : Prop := t = { s with ctls := t.ctls, kiln := { s.kiln with inq := t.kiln.inq } }

theorem armsOnly.refl (s : State) : armsOnly s s := rfl

theorem armsOnly.trans {s t u : State} (h : armsOnly s t) (k : armsOnly t u) : armsOnly s u := by
  unfold armsOnly at *
  rw [k, h]

theorem armsOnly_armUp (s : State) (q : Nat) (a : Arm) : armsOnly s (s.armUp q a) := by
  unfold State.armUp
  split <;> rfl

theorem armsOnly_forward (s : State) (q g ord : Nat) (r : GroupRec) : armsOnly s (s.forward q g ord r) := by
  unfold State.forward
  split
  · exact .refl s
  · split
    · exact armsOnly_armUp ..
    · exact .refl s

theorem armsOnly_forwardPast (s before : State) (q : Nat) : armsOnly s (s.forwardPast before q) := by
  refine foldl_rel armsOnly.refl armsOnly.trans (fun a p => ?_) _ s
  split
  · exact .refl a
  · split
    · exact .refl a
    · exact armsOnly_forward ..

theorem faultsOnly_leafEvent (s : State) (l count : Nat) : faultsOnly s (s.leafEvent l count) := faultsOnly_fault ..

/-- Firmware disables a leaf: its bit in the shadow set, the set's next generation, and a record (R58, R479). -/
theorem recordsOnly_disableLeaf (s : State) (l : Nat) : recordsOnly
    (s.modCfg (fun c => { c with
      shadow := { c.shadow with disabled := c.shadow.disabled ||| BitVec.ofNat 8192 (2 ^ l) }, shadowGen := c.shadowGen + 1 }))
    (s.disableLeaf l) := recordsOnly_firingEvent ..

/-- The leaf's failure as the kiln and firmware note it, its event and its record left out. -/
def leafNoted (s : State) (l : Nat) : State :=
  { s with
    leaves := tset {} s.leaves l { s.leaf l with failReported := true, failCounted := true }
    kiln := { s.kiln with failedLeaves := insertRise l s.kiln.failedLeaves }
    cfg := { s.cfg with
      shadow := { s.cfg.shadow with disabled := s.cfg.shadow.disabled ||| BitVec.ofNat 8192 (2 ^ l) }
      shadowGen := s.cfg.shadowGen + 1 } }

/-- The same with its event and its record. -/
def leafReported (s : State) (l : Nat) : State :=
  (((s.modLeaf l (fun p => { p with failReported := true, failCounted := true })).modKiln
    (fun k => { k with failedLeaves := insertRise l k.failedLeaves })).leafEvent l (s.leaf l).unwritten).disableLeaf l

theorem faultsOnly_leafReported (s : State) (l : Nat) : faultsOnly (leafNoted s l) (leafReported s l) := by
  refine faultsOnly.trans ⟨?_⟩ (recordsOnly_disableLeaf _ l).faultsOnly
  rw [(faultsOnly_leafEvent _ l (s.leaf l).unwritten).eq]
  rfl

/-- Where every firing has ended, registering a leaf ends none: it notes the failure, lets ARMs that waited for the leaf alone go on,
and closes the positions that waited for it. -/
theorem registerLeaf_of_all_ended (h : ∀ f ∈ s.kiln.firings, f.st = .ended) : s.registerLeaf l
    = (((leafReported s l).forwardPast s (leafQ l)).forwardPast s (dieQ (l / 256))).closePositions := by
  have hnone : (leafReported s l).kiln.firings.filter (fun f => f.st != .ended && f.leaves.contains l) = [] := by
    rw [(faultsOnly_leafReported s l).eq]
    exact List.filter_eq_nil_iff.mpr (fun f hf => by simp [h f hf])
  rw [leafReported] at hnone
  simp only [State.registerLeaf, leafReported, hnone, List.map_nil, List.foldl_nil]

/-- What is there of a registered leaf where no firing had to end for it. -/
theorem registerLeaf_notes (h : ∀ f ∈ s.kiln.firings, f.st = .ended) : (s.registerLeaf l).cfg = (leafNoted s l).cfg
    ∧ (s.registerLeaf l).leaves = (leafNoted s l).leaves
    ∧ (s.registerLeaf l).kiln.failedLeaves = (leafNoted s l).kiln.failedLeaves := by
  have harms := (armsOnly_forwardPast (leafReported s l) s (leafQ l)).trans (armsOnly_forwardPast _ s (dieQ (l / 256)))
  have hnoted := (faultsOnly_leafReported s l).eq
  rw [registerLeaf_of_all_ended h]
  refine ⟨(congrArg State.cfg harms).trans ?_, (congrArg State.leaves harms).trans ?_, (congrArg (·.kiln.failedLeaves) harms).trans ?_⟩ <;>
    rw [hnoted]

end

/-- Settles O37: the leaf port's row by what failing and ending leave, the kiln's by what is noted where no firing is left to end. -/
theorem leafFailure : Obligations.LeafFailure := by
  unfold Obligations.LeafFailure
  refine ⟨fun l s h => ?idle, fun l s he hf hm => ?fails,
    fun l s => ⟨fun h => ?registered, fun hf hr => ⟨?registers, fun hs h => ?notes⟩⟩⟩
  case idle =>
    rw [exec_leafPortFailureSignal, execLeafPortFailureSignal_idle h]
  case fails =>
    refine ⟨(s.leaf l).fail.endAll s.time, ?_, ?_⟩
    · rw [exec_leafPortFailureSignal, execLeafPortFailureSignal_fails he hf hm]
    · have htaken := fun t ht => ended_of_mem_endAll (p := (s.leaf l).fail) (ts := s.time) (t := t) ht
      rw [endAll_frame, fail_of_working hf] at *
      exact ⟨rfl, rfl, rfl, rfl, fun t ht => (htaken t ht).1, fun t ht => (htaken t ht).2, rfl, rfl, rfl⟩
  case registered =>
    rw [exec_leafFailureRegister, execLeafFailureRegister_idle h]
  case registers =>
    rw [exec_leafFailureRegister, execLeafFailureRegister_registers hf hr]
  case notes =>
    obtain ⟨hcfg, hleaves, hfailed⟩ := registerLeaf_notes (l := l) h
    refine ⟨by rw [hcfg]; rfl, by rw [hcfg]; rfl, ?_, hfailed⟩
    rw [State.leaf, hleaves]
    exact tget_tset_self hs.leaves l _

end Sys2Proof.Proofs

/-! ### O20: the bisque passes -/

namespace Sys2Proof.Proofs
open Sys2Proof.Machine

/-! An ADD action's sum, by what adding gave (R112, R172). -/

section
variable {p : LeafPort} {x : Taken} {b : Bisque} {xs : List Sherd}

theorem commitSum_of_range (h : (sherdSum (passBase x b, false) xs).2 = true) : p.commitSum x b xs = p.endPass x stRange 0 0 none := by
  obtain ⟨v, hv⟩ : ∃ v, sherdSum (passBase x b, false) xs = (v, true) := ⟨_, Prod.ext rfl h⟩
  simp only [LeafPort.commitSum, hv]

theorem commitSum_of_absent (h : sherdSum (passBase x b, false) xs = (none, false)) :
    p.commitSum x b xs = p.endPass x stOk 0 0 (some (.empty, {})) := by
  simp only [LeafPort.commitSum, h]

theorem commitSum_of_value {v : Sherd} (h : sherdSum (passBase x b, false) xs = (some v, false)) :
    p.commitSum x b xs = p.endPass x stOk 0 0 (some (.held, v)) := by
  simp only [LeafPort.commitSum, h]

theorem passBase_absent (h : passFirst x.words = true ∨ b.st ≠ .held) : passBase x b = none := by
  rcases h with h | h <;> simp [passBase, h]

theorem passBase_held (hf : passFirst x.words = false) (hb : b.st = .held) : passBase x b = some b.val := by
  simp [passBase, hf, hb]

end

/-! A pass whose read or write failed (R282, R283). -/

theorem bitOf_setBit (w : Word) {i : Nat} (hi : i < 32) : bitOf (setBit w i).toNat i = true := by
  have hbit : (setBit w i).toNat.testBit i = true := by
    have hlt : 2 ^ i < 2 ^ 32 := Nat.pow_lt_pow_right (by decide) hi
    rw [setBit, BitVec.toNat_or, BitVec.toNat_ofNat, Nat.mod_eq_of_lt hlt, Nat.testBit_or, Nat.testBit_two_pow_self, Bool.or_true]
  rw [Nat.testBit_eq_decide_div_mod_eq] at hbit
  rwa [bitOf, slice, Nat.shiftRight_eq_div_pow, Nat.pow_one]

@[simp] theorem passFault_bisque (p : LeafPort) (t : Taken) (c : Nat) (cls : BitVec 8) : (p.passFault t c cls).bisque = p.bisque := rfl

@[simp] theorem passFault_chunkFaults (p : LeafPort) (t : Taken) (c : Nat) (cls : BitVec 8) :
    (p.passFault t c cls).chunkFaults = satInc p.chunkFaults := rfl

@[simp] theorem passFault_intStatus (p : LeafPort) (t : Taken) (c : Nat) (cls : BitVec 8) :
    (p.passFault t c cls).intStatus = setBit p.intStatus ibChunkFault := rfl

/-! What finds a pass and runs it (R174, R414). -/

section
variable {l action : Nat} {x : Taken} {s : State}

theorem onPass_idle {f : LeafPort → Taken → LeafPort} (h : (s.leaf l).pass action = none) : s.onPass l action f = .next s := by
  simp [State.onPass, h]

theorem onPass_runs {f : LeafPort → Taken → LeafPort} (h : (s.leaf l).pass action = some x) :
    s.onPass l action f = .next (s.setLeaf l (f (s.leaf l) x)) := by
  simp [State.onPass, h]

theorem exec_bisqueClear (l : Nat) (s : State) : exec (.bisqueClear l) s = execBisqueClear l s := rfl

theorem exec_bisqueLoad (l : Nat) (r : PassRead) (s : State) : exec (.bisqueLoad l r) s = execBisqueLoad l r s := rfl

theorem exec_bisqueAddSum (l : Nat) (r : PassRead) (s : State) : exec (.bisqueAddSum l r) s = execBisqueAddSum l r s := rfl

theorem exec_bisqueAddSumsq (l : Nat) (r : PassRead) (s : State) : exec (.bisqueAddSumsq l r) s = execBisqueAddSumsq l r s := rfl

theorem exec_bisqueAddDot (l : Nat) (r u : PassRead) (s : State) : exec (.bisqueAddDot l r u) s = execBisqueAddDot l r u s := rfl

theorem exec_bisqueAddSherd (l : Nat) (r : PassRead) (s : State) : exec (.bisqueAddSherd l r) s = execBisqueAddSherd l r s := rfl

theorem exec_bisqueStore (l : Nat) (bad : Option Nat) (s : State) : exec (.bisqueStore l bad) s = execBisqueStore l bad s := rfl

theorem execBisqueStore_idle (h : (s.leaf l).pass 6 = none) (bad : Option Nat) : execBisqueStore l bad s = .next s := by
  simp [execBisqueStore, h]

end

/-- The bytes that BISQUE_STORE writes of an accumulator: its value in canonical form, or the absent header. -/
def storedBytes (b : Bisque) : List Byte := if b.st = .held then sherdBytes b.val.canon else leBytes 8 absentHeader

/-- The sherd operand of a pass, in what its read returned. -/
def sherdRead (p : LeafPort) (x : Taken) (bs : List Byte) : Option (Option Sherd) :=
  readOneSherd (p.sourceBytes (slice x.words.toNat 192 32) bs sherdMax)

/-- The elements of a pass's vector, whose address stands at bit `lo` of the descriptor, in what its read returned. -/
def vectorRead (p : LeafPort) (x : Taken) (lo : Nat) (bs : List Byte) : List Nat :=
  passElems x (p.sourceBytes (slice x.words.toNat lo 32) bs (passLen x.words * compWidth (passFmt x.words)))

/-! Each command on an accumulator that is not damaged and that the pass may use. -/

section
variable {l : Nat} {x : Taken} {b : Bisque} {s : State}
  (hb : b = tget {} (s.leaf l).bisque (passIdx x.words)) (hd : b.damaged = false)
include hb hd

theorem runPass_of_intact {needs : Bool} (f : Bisque → LeafPort) (hn : needs = true → b.st ≠ .neverWritten) :
    (s.leaf l).runPass x needs f = f b := by
  simp only [LeafPort.runPass, ← hb, hd]
  cases needs with
  | false => rfl
  | true => simp [hn rfl]

theorem runPass_without_need (f : Bisque → LeafPort) : (s.leaf l).runPass x false f = f b :=
  runPass_of_intact hb hd f nofun

theorem execBisqueClear_runs (hx : (s.leaf l).pass 0 = some x) :
    execBisqueClear l s = .next (s.setLeaf l ((s.leaf l).endPass x stOk 0 0 (some (.empty, {})))) := by
  rw [execBisqueClear, onPass_runs hx, runPass_without_need hb hd]

section
variable {bs : List Byte} (hx : (s.leaf l).pass 1 = some x)
include hx

theorem execBisqueLoad_of_value {v : Sherd} (hv : sherdRead (s.leaf l) x bs = some (some v)) :
    execBisqueLoad l (.ok bs) s = .next (s.setLeaf l ((s.leaf l).endPass x stOk 0 0 (some (.held, v)))) := by
  rw [sherdRead] at hv
  simp only [execBisqueLoad, onPass_runs hx, runPass_without_need hb hd, hv]

theorem execBisqueLoad_of_absent (hv : sherdRead (s.leaf l) x bs = some none) :
    execBisqueLoad l (.ok bs) s = .next (s.setLeaf l ((s.leaf l).endPass x stOk 0 0 (some (.empty, {})))) := by
  rw [sherdRead] at hv
  simp only [execBisqueLoad, onPass_runs hx, runPass_without_need hb hd, hv]

theorem execBisqueLoad_of_malformed (hv : sherdRead (s.leaf l) x bs = none) :
    execBisqueLoad l (.ok bs) s = .next (s.setLeaf l ((s.leaf l).endPass x stRange 0 0 none)) := by
  rw [sherdRead] at hv
  simp only [execBisqueLoad, onPass_runs hx, runPass_without_need hb hd, hv]

end

section
variable (hw : passFirst x.words = true ∨ b.st ≠ .neverWritten)
include hw

/-- An ADD action runs with `first`, or on an accumulator once written. -/
theorem runPass_of_adding (f : Bisque → LeafPort) : (s.leaf l).runPass x (!passFirst x.words) f = f b :=
  runPass_of_intact hb hd f (fun hn => hw.resolve_left (by simpa using hn))

theorem addPass_ok (bs : List Byte) (f : Nat → Nat → Sherd) : (s.leaf l).addPass x (.ok bs) f = (s.leaf l).commitSum x b
    ((vectorRead (s.leaf l) x 192 bs).map (f (passFmt x.words))) := by
  rw [LeafPort.addPass, runPass_of_adding hb hd hw, vectorRead]

theorem execBisqueAddDot_ok (hx : (s.leaf l).pass 4 = some x) (bx cy : List Byte) :
    execBisqueAddDot l (.ok bx) (.ok cy) s = .next (s.setLeaf l ((s.leaf l).commitSum x b
      ((List.zip (vectorRead (s.leaf l) x 192 bx) (vectorRead (s.leaf l) x 224 cy)).map
        (fun e => sherdOfProduct (passFmt x.words) e.1 e.2)))) := by
  rw [execBisqueAddDot, onPass_runs hx, runPass_of_adding hb hd hw, vectorRead, vectorRead]

theorem execBisqueAddSherd_of_sherd (hx : (s.leaf l).pass 5 = some x) {bs : List Byte} {v : Option Sherd}
    (hv : sherdRead (s.leaf l) x bs = some v) :
    execBisqueAddSherd l (.ok bs) s = .next (s.setLeaf l ((s.leaf l).commitSum x b v.toList)) := by
  rw [sherdRead] at hv
  simp only [execBisqueAddSherd, onPass_runs hx, runPass_of_adding hb hd hw, hv]

theorem execBisqueAddSherd_of_malformed (hx : (s.leaf l).pass 5 = some x) {bs : List Byte}
    (hv : sherdRead (s.leaf l) x bs = none) :
    execBisqueAddSherd l (.ok bs) s = .next (s.setLeaf l ((s.leaf l).endPass x stRange 0 0 none)) := by
  rw [sherdRead] at hv
  simp only [execBisqueAddSherd, onPass_runs hx, runPass_of_adding hb hd hw, hv]

end

section
variable (hx : (s.leaf l).pass 6 = some x) (hw : b.st ≠ .neverWritten)
include hx hw

theorem execBisqueStore_stores : execBisqueStore l none s
    = .next (s.setLeaf l (((s.leaf l).store (slice x.words.toNat 256 32) (storedBytes b)).endPass x stOk 0 0 none)).tock := by
  simp only [execBisqueStore, hx, runPass_of_intact hb hd _ (fun _ => hw), storedBytes, beq_iff_eq]

/-- A write that fails leaves other bytes in the scratchpad, and the pass ends as one whose chunk faulted. -/
theorem execBisqueStore_faults (c : Nat) : ∃ p : LeafPort, p = { s.leaf l with scratch := p.scratch }
    ∧ execBisqueStore l (some c) s = .next (s.setLeaf l (p.passFault x c clWriteAddr)).tock := by
  simp only [execBisqueStore, hx, runPass_of_intact hb hd _ (fun _ => hw)]
  exact ⟨_, rfl, rfl⟩

end

end

/-- Settles O20: a command without its pass by `onPass`, a sum by what adding gives, and each pass that runs by its own equation. -/
theorem bisquePasses : Obligations.BisquePasses := by
  unfold Obligations.BisquePasses
  refine ⟨fun l s => ?idle, fun p x b xs => ?sum, fun l x b s hb hd => ⟨fun hx => ?clear, fun bs hx => ?load,
    fun hw => ⟨fun bs hx => ?addSum, fun bs hx => ?addSumsq, fun bx cy hx => ?addDot, fun bs hx => ?addSherd⟩, fun hx hw bs hbs => ?store⟩⟩
  case idle =>
    refine ⟨fun h => ?_, fun _ h => ?_, fun _ h => ?_, fun _ h => ?_, fun _ _ h => ?_, fun _ h => ?_, fun _ h => ?_⟩
    · rw [exec_bisqueClear, execBisqueClear, onPass_idle h]
    · rw [exec_bisqueLoad, execBisqueLoad, onPass_idle h]
    · rw [exec_bisqueAddSum, execBisqueAddSum, onPass_idle h]
    · rw [exec_bisqueAddSumsq, execBisqueAddSumsq, onPass_idle h]
    · rw [exec_bisqueAddDot, execBisqueAddDot, onPass_idle h]
    · rw [exec_bisqueAddSherd, execBisqueAddSherd, onPass_idle h]
    · rw [exec_bisqueStore, execBisqueStore_idle h]
  case sum =>
    exact ⟨commitSum_of_range, commitSum_of_absent, fun _ => commitSum_of_value, passBase_absent, passBase_held⟩
  case clear =>
    rw [exec_bisqueClear, execBisqueClear_runs hb hd hx]
  case load =>
    simp only [exec_bisqueLoad]
    exact ⟨fun _ => execBisqueLoad_of_value hb hd hx, execBisqueLoad_of_absent hb hd hx, execBisqueLoad_of_malformed hb hd hx⟩
  case addSum =>
    rw [exec_bisqueAddSum, execBisqueAddSum, onPass_runs hx, addPass_ok hb hd hw, vectorRead]
  case addSumsq =>
    rw [exec_bisqueAddSumsq, execBisqueAddSumsq, onPass_runs hx, addPass_ok hb hd hw, vectorRead]
  case addDot =>
    rw [exec_bisqueAddDot, execBisqueAddDot_ok hb hd hw hx, vectorRead, vectorRead]
  case addSherd =>
    simp only [exec_bisqueAddSherd]
    exact ⟨fun _ => execBisqueAddSherd_of_sherd hb hd hw hx, execBisqueAddSherd_of_malformed hb hd hw hx⟩
  case store =>
    simp only [exec_bisqueStore]
    refine ⟨⟨_, execBisqueStore_stores hb hd hx hw, by rw [hbs]; rfl⟩, fun c => ?_⟩
    obtain ⟨p, hp, he⟩ := execBisqueStore_faults hb hd hx hw c
    refine ⟨_, he, ?_, ?_, bitOf_setBit _ (by decide)⟩
    · rw [passFault_bisque, hp]
    · rw [passFault_chunkFaults, hp]

end Sys2Proof.Proofs

/-! ### O31: losses, redeals and the overflow replay -/

namespace Sys2Proof.Proofs
open Sys2Proof.Machine

/-! What the losses newly registered are, and what registering them leaves (R389, R390). -/

/-- A fold whose steps change a reading at one index only, and there by a change that is made once, changes that reading where the
index is in the list. -/
theorem foldl_reading {β : Type} {f : State → Nat → State} {read : State → β} {g : β → β} {k : Nat}
    (hk : ∀ a, read (f a k) = g (read a)) (hne : ∀ a j, j ≠ k → read (f a j) = read a) (hg : ∀ x, g (g x) = g x) (ks : List Nat) :
    ∀ s, read (ks.foldl f s) = if k ∈ ks then g (read s) else read s := by
  induction ks with
  | nil => exact fun s => rfl
  | cons j ks ih =>
    intro s
    rw [List.foldl_cons, ih]
    by_cases hj : j = k
    · subst hj
      by_cases hmem : j ∈ ks <;> simp [hmem, hk, hg]
    · simp [hne s j hj, Ne.symm hj]

/-- The keys of a table whose values have a property that its default lacks: the indices whose entry has it. -/
theorem mem_keys_filter {α : Type} {d : α} {p : α → Bool} (hd : p d = false) {t : Table α} {k : Nat} :
    ∀ {lo : Nat}, keysRise lo t = true → (k ∈ (t.filter (fun e => p e.2)).map (·.1) ↔ p (tget d t k) = true) := by
  induction t with
  | nil => simp [tget, hd]
  | cons e t ih =>
    obtain ⟨j, v⟩ := e
    intro lo h
    simp only [keysRise, Bool.and_eq_true] at h
    obtain ⟨-, hrise⟩ := h
    have hrest := ih hrise
    by_cases hj : j = k
    · subst hj
      have hlow : tget d t j = d := tget_of_lt d hrise (Nat.lt_succ_self j)
      rw [hlow, hd] at hrest
      cases hv : p v <;> simp [tget, hv, hrest]
    · cases hv : p v <;> simp [tget, hv, hrest, hj, Ne.symm hj]

/-- Links that LOSS_REGISTER finds newly lost. -/
def lostLinks (s : State) : List Nat := (s.links.filter (fun e => e.2.failed && !e.2.reported)).map (·.1)

/-- Node positions whose pair LOSS_REGISTER finds newly lost, those of the datapath first (assumption log 49). -/
def lostPairs (s : State) : List Nat := (s.nodes.filter (fun e => e.2.stat.pairOut && !e.2.stat.reported)).map (·.1)
  ++ (s.ctls.filter (fun e => e.2.stat.pairOut && !e.2.stat.reported)).map (·.1)

/-- The state with every loss registered, before any firing feels it. -/
def lossesNoted (s : State) : State := (lostPairs s).foldl State.notePair ((lostLinks s).foldl State.noteLink s)

theorem exec_lossRegister (s : State) : exec .lossRegister s = .next (State.offer
    (((lossesNoted s).endMiscompared.kiln.firings.map (·.uid)).foldl State.lossOn (lossesNoted s).endMiscompared)).driveKiln := rfl

/-- `t` is `s` but for losses registered: marks on links and node positions, and their fault events. -/
def marksOnly (s t : State) : Prop :=
  t = { s with links := t.links, nodes := t.nodes, ctls := t.ctls, faultLog := t.faultLog, ports := t.ports, smb := t.smb,
               trace := t.trace, counters := t.counters }

theorem marksOnly.refl (s : State) : marksOnly s s := rfl

theorem marksOnly.trans {s t u : State} (h : marksOnly s t) (k : marksOnly t u) : marksOnly s u := by
  unfold marksOnly at *
  rw [k, h]

section
variable (s : State) (k : Nat)

theorem faultsOnly_linkEvent (kind count : Nat) : faultsOnly s (s.linkEvent k kind count) := faultsOnly_fault ..

/-- Registering a link marks it; the rest is its fault event. -/
theorem faultsOnly_noteLink : faultsOnly (s.setLink k { s.link k with reported := true }) (s.noteLink k) := by
  unfold State.noteLink
  split
  · exact .refl _
  · exact faultsOnly_linkEvent ..

/-- Registering a pair marks it; the rest is its fault event. -/
theorem faultsOnly_notePair : faultsOnly (s.modStat k (fun n => { n with reported := true })) (s.notePair k) := by
  unfold State.notePair
  dsimp only
  split
  · exact faultsOnly_nodeEvent ..
  · split
    · exact .refl _
    · split
      · exact faultsOnly_fault ..
      · exact faultsOnly_nodeEvent ..

theorem noteLink_links : (s.noteLink k).links = tset {} s.links k { s.link k with reported := true } := by
  rw [(faultsOnly_noteLink s k).eq]
  rfl

theorem noteLink_nodes : (s.noteLink k).nodes = s.nodes := by
  rw [(faultsOnly_noteLink s k).eq]
  rfl

theorem notePair_links : (s.notePair k).links = s.links := by
  rw [(faultsOnly_notePair s k).eq, modStat_frame]

theorem notePair_nodes : (s.notePair k).nodes = (s.modStat k (fun n => { n with reported := true })).nodes := by
  rw [(faultsOnly_notePair s k).eq]

theorem marksOnly_noteLink : marksOnly s (s.noteLink k) := by
  unfold marksOnly
  rw [(faultsOnly_noteLink s k).eq]
  rfl

theorem marksOnly_notePair : marksOnly s (s.notePair k) := by
  unfold marksOnly
  rw [(faultsOnly_notePair s k).eq, modStat_frame]

/-- A mark is no default, so a table lists what bears one. -/
theorem markedLink_ne_default (x : Link) : { x with reported := true } ≠ ({} : Link) := fun h =>
  Bool.noConfusion (congrArg Link.reported h)

theorem markedNode_ne_default (n : Node) : { n with stat := { n.stat with reported := true } } ≠ ({} : Node) := fun h =>
  Bool.noConfusion (congrArg (fun m : Node => m.stat.reported) h)

theorem link_noteLink : (s.noteLink k).link k = { s.link k with reported := true } := by
  rw [State.link, noteLink_links]
  exact tget_tset_of_ne_default (markedLink_ne_default _) ..

theorem link_noteLink_ne {j : Nat} (h : j ≠ k) : (s.noteLink j).link k = s.link k := by
  rw [State.link, noteLink_links]
  exact tget_tset_ne _ _ _ h.symm

theorem stat_notePair (h : k / 4 % 2 = 0) : ((s.notePair k).node k).stat = { (s.node k).stat with reported := true } := by
  rw [State.node, notePair_nodes, modStat_of_data h]
  exact congrArg Node.stat (tget_tset_of_ne_default (markedNode_ne_default (s.node k)) ..)

theorem node_notePair_ne {j : Nat} (h : j ≠ k) : (s.notePair j).node k = s.node k := by
  rw [State.node, notePair_nodes]
  rcases Nat.mod_two_eq_zero_or_one (j / 4) with hj | hj
  · exact node_modStat_ne hj _ h.symm
  · rw [modStat_of_ctl hj]
    rfl

theorem marksOnly_lossesNoted : marksOnly s (lossesNoted s) :=
  .trans (foldl_rel .refl .trans marksOnly_noteLink _ s) (foldl_rel .refl .trans marksOnly_notePair _ _)

theorem link_lossesNoted : (lossesNoted s).link k = if k ∈ lostLinks s then { s.link k with reported := true } else s.link k := by
  have hpairs : (lossesNoted s).links = ((lostLinks s).foldl State.noteLink s).links :=
    foldl_rel (R := fun a b => b.links = a.links) (fun _ => rfl) (fun h h' => h'.trans h) notePair_links _ _
  rw [State.link, hpairs]
  exact foldl_reading (read := (State.link · k)) (g := fun x => { x with reported := true })
    (fun a => link_noteLink a k) (fun a _ => link_noteLink_ne a k) (fun _ => rfl) _ s

theorem stat_lossesNoted (h : k / 4 % 2 = 0) : ((lossesNoted s).node k).stat
    = if k ∈ lostPairs s then { (s.node k).stat with reported := true } else (s.node k).stat := by
  have hlinks : ((lostLinks s).foldl State.noteLink s).nodes = s.nodes :=
    foldl_rel (R := fun a b => b.nodes = a.nodes) (fun _ => rfl) (fun h h' => h'.trans h) noteLink_nodes _ _
  have hpairs := foldl_reading (read := fun a => (a.node k).stat) (g := fun n => { n with reported := true })
    (fun a => stat_notePair a k h)
    (fun a _ hj => congrArg Node.stat (node_notePair_ne a k hj)) (fun _ => rfl) (lostPairs s) ((lostLinks s).foldl State.noteLink s)
  have hnode : ((lostLinks s).foldl State.noteLink s).node k = s.node k := by
    rw [State.node, hlinks]
    rfl
  rwa [hnode] at hpairs

end

section
variable {s : State} {k : Nat} (hs : canonical s)
include hs

theorem mem_lostLinks : k ∈ lostLinks s ↔ (s.link k).failed = true ∧ (s.link k).reported = false := by
  have hmem := mem_keys_filter (k := k) (p := fun x : Link => x.failed && !x.reported) (d := {}) rfl (keysRise_of_wf hs.links)
  simpa [lostLinks, State.link] using hmem

theorem mem_lostPairs (hp : (s.node k).stat.pairOut = true) (hr : (s.node k).stat.reported = false) : k ∈ lostPairs s := by
  have hmem := mem_keys_filter (k := k) (p := fun x : Node => x.stat.pairOut && !x.stat.reported) (d := {}) rfl (keysRise_of_wf hs.nodes)
  refine List.mem_append_left _ (hmem.mpr ?_)
  exact Bool.and_eq_true_iff.mpr ⟨hp, (Bool.not_eq_true' _).mpr hr⟩

theorem link_lossesNoted_of_failed (hf : (s.link k).failed = true) : (lossesNoted s).link k = { s.link k with reported := true } := by
  rw [link_lossesNoted]
  split
  · rfl
  · next hmem =>
    have hr : (s.link k).reported = true := by simpa [mem_lostLinks hs, hf] using hmem
    rw [← hr]

theorem link_lossesNoted_of_up (hf : (s.link k).failed = false) : (lossesNoted s).link k = s.link k := by
  rw [link_lossesNoted, if_neg]
  simp [mem_lostLinks hs, hf]

theorem stat_lossesNoted_of_pairOut (hp : (s.node k).stat.pairOut = true) (h : k / 4 % 2 = 0) :
    ((lossesNoted s).node k).stat = { (s.node k).stat with reported := true } := by
  rw [stat_lossesNoted s k h]
  split
  · rfl
  · next hmem =>
    have hr : (s.node k).stat.reported = true := by
      rw [← Bool.not_eq_false]
      exact fun hr => hmem (mem_lostPairs hs hp hr)
    rw [← hr]

end

theorem endMiscompared_miscomp (s : State) : s.endMiscompared.kiln.miscomp = [] := rfl

theorem endMiscompared_of_none {s : State} (h : s.kiln.miscomp = []) : s.endMiscompared = s := by
  rw [State.endMiscompared, h, List.foldl_nil, State.modKiln, ← h]

/-! What the loss of planes asks of one firing (R391 to R394). -/

section
variable {s : State} {f : Firing} {up : List Nat} (hf : s.firing? f.uid = some f) (hu : up = f.planes.filter (s.planeUp f.pathLeaves))
include hf hu

theorem lossOn_idle (h : f.st ≠ .granted ∨ f.cause ≠ none ∨ f.usesPlane = false ∨ up.length = f.planes.length
    ∨ (∃ p, f.onlyPlane = some p ∧ up.contains p = true)) : s.lossOn f.uid = s := by
  subst hu
  rw [State.lossOn, hf]
  dsimp only
  rcases h with h | h | h | h | ⟨p, hp, hc⟩
  · exact if_pos (by simp [h])
  · exact if_pos (by simp [Option.isSome_iff_ne_none.mpr h])
  · exact if_pos (by simp [h])
  · rw [if_pos h, ite_self]
  · rw [hp]
    dsimp only
    rw [if_pos hc, ite_self, ite_self]

/-- A granted firing that has lost a plane it needs: without a plane left it ends, in overflow it keeps the planes for its replay,
else what it carries is dealt again. -/
theorem lossOn_of_lost (hst : f.st = .granted) (hc : f.cause = none) (hp : f.usesPlane = true) (hl : up.length ≠ f.planes.length)
    (ho : ∀ p, f.onlyPlane = some p → up.contains p = false) : s.lossOn f.uid
    = if up.isEmpty then s.decideEnd f.uid stFault 0xFFFF clNoPlane.toNat
      else if f.ovf then s.modFiring f.uid (fun x => { x with planes := up, waitPlane := none })
      else if f.latency then s.moveLatency s.redealNeeds f up
      else s.redeal f up := by
  subst hu
  rw [State.lossOn, hf]
  dsimp only
  rw [if_neg (by simp [hst, hc, hp]), if_neg hl]
  cases hplane : f.onlyPlane with
  | none => rfl
  | some p => exact if_neg (Bool.not_eq_true _ ▸ ho p hplane)

end

/-! A redeal that waited gets its plane (R394). -/

theorem dropKilnSlots_kiln (s : State) (x : Nat) (planes : List Nat) : (s.dropKilnSlots x planes).kiln = s.kiln :=
  foldl_kiln (fun _ _ => by rfl) planes s

/-- A redeal is counted once. -/
theorem redeal_redeals (s : State) (f : Firing) (h : List Nat) : (s.redeal f h).kiln.redeals = satInc s.kiln.redeals := by
  rw [State.redeal, sendGrant_kiln, modKiln_kiln, dropKilnSlots_kiln]
  rfl

section
variable {s : State} {f : Firing}

theorem moveLatency_redeals {held : Needs} {h : List Nat}
    (hfits : s.fits (held.add (s.heldNeeds f.uid)) (f.needs [pickPlane h f.fn.toNat]) = true) :
    (s.moveLatency held f h).kiln.redeals = satInc s.kiln.redeals := by
  rw [State.moveLatency, if_pos hfits, redeal_redeals, openSlots_kiln]

theorem exec_redealResourceFree (s : State) : exec .redealResourceFree s = execRedealResourceFree s := rfl

/-- The first latency-path redeal whose new plane has what it needs. -/
def readyRedeal (s : State) : Option Firing :=
  s.kiln.firings.find? (fun f => f.st == .granted && f.waitPlane.any (fun p => s.fits (s.heldNeeds f.uid) (f.needs [p])))

theorem execRedealResourceFree_idle (h : readyRedeal s = none) : execRedealResourceFree s = .next s := by
  rw [readyRedeal] at h
  rw [execRedealResourceFree, h]

theorem execRedealResourceFree_moves (h : readyRedeal s = some f) :
    execRedealResourceFree s = .next (s.moveLatency {} { f with waitPlane := none } f.planes) := by
  rw [readyRedeal] at h
  rw [execRedealResourceFree, h]

/-! An attempt in overflow that has drained starts again, or the firing ends (R142, R144, R391). -/

variable {x : Nat}

theorem exec_overflowReplay (x : Nat) (s : State) : exec (.overflowReplay x) s = execOverflowReplay x s := rfl

theorem execOverflowReplay_idle (h : ∀ f, s.granted? x = some f → f.ovf = false ∨ f.allDone = false ∨ f.cause ≠ none
    ∨ f.preloadRange = true) : execOverflowReplay x s = .next s := by
  unfold execOverflowReplay
  split
  · rfl
  · next f hf =>
    refine if_pos ?_
    rcases h f hf with h | h | h | h
    · simp [h]
    · simp [h]
    · simp [Option.isSome_iff_ne_none.mpr h]
    · simp [h]

/-- What a replay keeps of its firing: all that names it (R308). -/
theorem forReplay_identity (f : Firing) : f.forReplay.setter = f.setter ∧ f.forReplay.fn = f.fn ∧ f.forReplay.seq = f.seq
    ∧ f.forReplay.ts = f.ts ∧ f.forReplay.attempt = f.attempt + 1 ∧ f.forReplay.ovf = false :=
  ⟨rfl, rfl, rfl, rfl, rfl, rfl⟩

section
variable (hf : s.granted? x = some f) (ho : f.ovf = true) (hd : f.allDone = true) (hc : f.cause = none) (hp : f.preloadRange = false)
include hf ho hd hc hp

theorem execOverflowReplay_of_drained : execOverflowReplay x s
    = if 3 ≤ f.attempt ∨ scaleAt f.desc (f.attempt + 1) < -15 then
        .next (((s.decideEnd f.uid stOverflow 0xFFFF 0).sendEnds (s.kiln.firings.length + 1) f.group).offer.driveKiln)
      else if s.replayFits f = true then .next (((s.freshSlots f).modFiring f.uid (fun _ => f.forReplay)).sendGrant f.forReplay)
      else .next s := by
  rw [execOverflowReplay, hf]
  cases hfits : s.replayFits f <;> simp [ho, hd, hc, hp, hfits]

theorem execOverflowReplay_ends (h : 3 ≤ f.attempt ∨ scaleAt f.desc (f.attempt + 1) < -15) : execOverflowReplay x s
    = .next (((s.decideEnd f.uid stOverflow 0xFFFF 0).sendEnds (s.kiln.firings.length + 1) f.group).offer.driveKiln) := by
  rw [execOverflowReplay_of_drained hf ho hd hc hp, if_pos h]

variable (ha : f.attempt < 3) (hs : -15 ≤ scaleAt f.desc (f.attempt + 1))
include ha hs

theorem execOverflowReplay_replays (hfits : s.replayFits f = true) : execOverflowReplay x s
    = .next (((s.freshSlots f).modFiring f.uid (fun _ => f.forReplay)).sendGrant f.forReplay) := by
  rw [execOverflowReplay_of_drained hf ho hd hc hp, if_neg (by omega), if_pos hfits]

theorem execOverflowReplay_waits (hfits : s.replayFits f = false) : execOverflowReplay x s = .next s := by
  rw [execOverflowReplay_of_drained hf ho hd hc hp, if_neg (by omega), if_neg (by simp [hfits])]

end

end

/-- Settles O31: the register by what noting each loss leaves, the rest by the cases of what a loss, a free plane or a drained attempt
asks of its firing. -/
theorem lossAndReplay : Obligations.LossAndReplay := by
  unfold Obligations.LossAndReplay
  refine ⟨fun s hs => ?register, fun f up s hf hu => ⟨lossOn_idle hf hu, fun hst hc hp hl ho => ?lost⟩, fun r s hr => ?redeal,
    fun x s h => ?idle, fun x f s hf ho hd hc hp => ?replay⟩
  case register =>
    refine ⟨lossesNoted s, exec_lossRegister s, fun k => link_lossesNoted_of_failed hs, fun k => link_lossesNoted_of_up hs,
      fun k => stat_lossesNoted_of_pairOut hs, marksOnly_lossesNoted s, endMiscompared_miscomp _, fun h => endMiscompared_of_none ?_⟩
    rw [marksOnly_lossesNoted s]
    exact h
  case lost =>
    rw [lossOn_of_lost hf hu hst hc hp hl ho]
    refine ⟨fun hn => ?_, fun hn hv => ?_, fun hn hv hlat => ?_, fun hn hv hlat => ?_⟩
    · simp [hn]
    · simp [hn, hv]
    · simp [hn, hv, hlat]
    · simp [hn, hv, hlat]
  case redeal =>
    rw [exec_redealResourceFree]
    exact ⟨fun h => execRedealResourceFree_idle (hr.symm.trans h),
      fun f h => ⟨execRedealResourceFree_moves (hr.symm.trans h), fun hfits => moveLatency_redeals hfits⟩⟩
  case idle =>
    rw [exec_overflowReplay, execOverflowReplay_idle h]
  case replay =>
    rw [exec_overflowReplay]
    exact ⟨fun ha hs => ⟨fun hfits => ⟨execOverflowReplay_replays hf ho hd hc hp ha hs hfits, forReplay_identity f⟩,
      execOverflowReplay_waits hf ho hd hc hp ha hs⟩, execOverflowReplay_ends hf ho hd hc hp⟩

end Sys2Proof.Proofs

/-! ### O16: taking a descriptor -/

namespace Sys2Proof.Proofs
open Sys2Proof.Machine

/-! What taking leaves at the leaf port (R173, R181, R260, R261), and what a leaf port that stops itself keeps (R283). -/

theorem takeRule_of_pass (p : LeafPort) (ahead : List HeldDesc) (cnt : BitVec 16) {w : BitVec 1024} (h : isPass w = true) :
    p.takeRule ahead cnt w = .free := by
  simp [LeafPort.takeRule, h]

/-- A pass is taken without a check of its group: it bears the tag of its accumulator, and ends at once where it is malformed or where a
firing holds that tag. -/
theorem takePass_eq (p : LeafPort) (h : HeldDesc) : ∃ x : Taken, p.takePass h = { p with
      taken := p.taken ++ [x], bisque := tmod {} p.bisque (passIdx h.2.1) (fun a => { a with tags := a.tags ++ [h.1] }) }
    ∧ x.cnt = h.1 ∧ x.words = h.2.1 ∧ x.phase = .pass
    ∧ (∀ c, passInvalid h.2.1 = some c → x.passEnd = some (stMismatch, BitVec.ofNat 8 c, 0))
    ∧ (passInvalid h.2.1 = none → p.tagHeld (passIdx h.2.1) = true → x.passEnd = some (stDenied, 0, 0))
    ∧ (passInvalid h.2.1 = none → p.tagHeld (passIdx h.2.1) = false → x.passEnd = none) := by
  refine ⟨_, rfl, rfl, rfl, rfl, fun c hc => ?_, fun hv ht => ?_, fun hv ht => ?_⟩
  · simp [hc]
  · simp [hv, ht]
  · simp [hv, ht]

/-- A firing is taken with what its checks found: it tags every accumulator it names, and is refused where one bears a tag. -/
theorem takeFiring_eq (p : LeafPort) (who : Who) (h : HeldDesc) : ∃ x : Taken, p.takeFiring who h = { p with
      taken := p.taken ++ [x]
      bisque := (descOf h.2.1).bisques.foldl (fun b i => tmod {} b i (fun a => { a with tags := a.tags ++ [h.1] })) p.bisque }
    ∧ x.cnt = h.1 ∧ x.words = h.2.1 ∧ x.segs = h.2.2 ∧ x.phase = .taken ∧ x.ended = none ∧ x.invalid = invalidCode h.2.1 h.2.2 who
    ∧ (x.denied = true ↔ ∃ i ∈ (descOf h.2.1).bisques, (tget {} p.bisque i).tags ≠ []) := by
  refine ⟨_, rfl, rfl, rfl, rfl, rfl, rfl, ?invalid, ?denied⟩
  case invalid => dsimp only
  case denied => simp

theorem stop_of_working {p : LeafPort} (h : p.failed = false) (cls : BitVec 8) (slot addr fn : Nat) (ts : Quad) :
    p.stop cls slot addr fn ts = { p.log cls slot addr 0 fn with
      failed := true, failReported := false, enable := false, intStatus := setBit p.intStatus ibErrRecord
      taken := (p.stop cls slot addr fn ts).taken } := by
  have hlog : (p.log cls slot addr 0 fn).failed = false := h
  rw [LeafPort.stop, fail_of_working hlog, endAll_frame]
  rfl

section
variable {l : Nat} {s : State}

theorem leafOnly_take (q : LeafPort) (h : HeldDesc) : leafOnly s ((s.setLeaf l q).take l h) l := by
  refine ⟨rfl, fun k hk => ?_⟩
  rw [State.take, modLeaf_eq, leaf_setLeaf_ne _ _ hk, leaf_setLeaf_ne _ _ hk]

section
variable (hs : canonical s)
include hs

theorem leaf_take (q : LeafPort) (h : HeldDesc) : ((s.setLeaf l q).take l h).leaf l
    = if isPass h.2.1 = true then q.takePass h else q.takeFiring (s.cfg.who (descOf h.2.1).group l) h := by
  rw [State.take, modLeaf_eq, leaf_setLeaf (tableWf_tset hs.leaves l q), leaf_setLeaf hs.leaves, setLeaf_cfg]

theorem leaf_take_pass (q : LeafPort) {h : HeldDesc} (hw : isPass h.2.1 = true) :
    ((s.setLeaf l q).take l h).leaf l = q.takePass h := by
  rw [leaf_take hs, if_pos hw]

theorem leaf_take_firing (q : LeafPort) {h : HeldDesc} (hw : isPass h.2.1 = false) :
    ((s.setLeaf l q).take l h).leaf l = q.takeFiring (s.cfg.who (descOf h.2.1).group l) h := by
  rw [leaf_take hs, if_neg (by rw [hw]; nofun)]

end

/-! The row, by what it finds held and in the ring (R262, R263). -/

variable {w : BitVec 1024} {segs : List (BitVec 256)}

theorem exec_takeDescriptor (l : Nat) (words : Option (BitVec 1024)) (segs : List (BitVec 256)) (s : State) :
    exec (.takeDescriptor l words segs) s = execTakeDescriptor l words segs s := rfl

theorem execTakeDescriptor_idle (words : Option (BitVec 1024)) (h : (s.leaf l).running = false ∨ (s.leaf l).failed = true
    ∨ ((s.leaf l).held = [] ∧ (s.leaf l).next = (s.leaf l).ringTail)) : execTakeDescriptor l words segs s = .next s := by
  rcases h with h | h | ⟨hheld, hnext⟩
  · simp [execTakeDescriptor, h]
  · simp [execTakeDescriptor, h]
  · simp [execTakeDescriptor, hheld, hnext, LeafPort.firstFree]

variable (hr : (s.leaf l).running = true) (hf : (s.leaf l).failed = false)
include hr hf

theorem execTakeDescriptor_held (words : Option (BitVec 1024)) {h : HeldDesc} (hh : (s.leaf l).firstFree [] (s.leaf l).held = some h) :
    execTakeDescriptor l words segs s
      = .next ((s.setLeaf l { s.leaf l with held := (s.leaf l).held.filter (fun x => x.1 != h.1) }).take l h) := by
  simp [execTakeDescriptor, hr, hf, hh]

variable (hh : (s.leaf l).held = []) (hn : (s.leaf l).next ≠ (s.leaf l).ringTail)
include hh hn

theorem execTakeDescriptor_free (hrule : (s.leaf l).takeRule [] (s.leaf l).next w = .free) : execTakeDescriptor l (some w) segs s
    = .next ((s.setLeaf l { s.leaf l with next := (s.leaf l).next + 1 }).take l
        ((s.leaf l).next, w, if isPass w = true then [] else segs.take (descOf w).segCount)) := by
  simp [execTakeDescriptor, hr, hf, hh, hn, LeafPort.firstFree, LeafPort.ringHeld, hrule]

theorem execTakeDescriptor_ruled (hw : isPass w = false) (hrule : (s.leaf l).takeRule [] (s.leaf l).next w ≠ .free) :
    execTakeDescriptor l (some w) segs s = .next (s.setLeaf l { s.leaf l with
      next := (s.leaf l).next + 1, held := [((s.leaf l).next, w, segs.take (descOf w).segCount)] }) := by
  simp [execTakeDescriptor, hr, hf, hh, hn, LeafPort.firstFree, LeafPort.ringHeld, hrule, hw]

theorem execTakeDescriptor_unread : ∃ slot addr,
    execTakeDescriptor l none segs s = .next (s.setLeaf l ((s.leaf l).stop clDescRead slot addr 0 s.time)) := by
  simp only [execTakeDescriptor, hr, hf, hh, hn, LeafPort.firstFree, LeafPort.ringHeld]
  exact ⟨_, _, rfl⟩

end

/-- Settles O16: the row by what it finds, then what taking a firing and taking a pass leave at the leaf port. -/
theorem takeDescriptor : Obligations.TakeDescriptor := by
  unfold Obligations.TakeDescriptor
  refine ⟨fun l w segs s => ⟨execTakeDescriptor_idle w, fun h hr hf => execTakeDescriptor_held hr hf w⟩,
    fun l s hs hr hf hh hn => ⟨fun w segs hw => ⟨fun hrule => ?firing, execTakeDescriptor_ruled hr hf hh hn hw⟩,
      fun w segs hw => ?pass, fun segs => ?unread⟩⟩
  case firing =>
    obtain ⟨x, htake, hx⟩ := takeFiring_eq { s.leaf l with next := (s.leaf l).next + 1 } (s.cfg.who (descOf w).group l)
      ((s.leaf l).next, w, segs.take (descOf w).segCount)
    refine ⟨_, x, execTakeDescriptor_free hr hf hh hn hrule, leafOnly_take .., ?_, hx⟩
    rw [leaf_take_firing hs _ hw, if_neg (by rw [hw]; nofun)]
    exact htake
  case pass =>
    obtain ⟨x, htake, hx⟩ := takePass_eq { s.leaf l with next := (s.leaf l).next + 1 } ((s.leaf l).next, w, [])
    refine ⟨_, x, execTakeDescriptor_free hr hf hh hn (takeRule_of_pass _ _ _ hw), leafOnly_take .., ?_, hx⟩
    rw [leaf_take_pass hs _ hw, if_pos hw]
    exact htake
  case unread =>
    obtain ⟨slot, addr, he⟩ := execTakeDescriptor_unread (segs := segs) hr hf hh hn
    rw [stop_of_working hf] at he
    exact ⟨_, he, rfl, rfl, rfl, rfl, rfl, bitOf_setBit _ (by decide)⟩

end Sys2Proof.Proofs

/-! ### O21: passes that end without changing their accumulator -/

namespace Sys2Proof.Proofs
open Sys2Proof.Machine

/-! How a pass ends that does not reach its accumulator's value (R171, R173, R282, R414). -/

/-- Leaf port `p` once pass `x` has found its accumulator damaged: the damage is reported by the pass, and is then gone. -/
def endedByDamage (p : LeafPort) (x : Taken) : LeafPort :=
  ({ p with bisque := tmod {} p.bisque (passIdx x.words) (fun a => { a with damaged := false }) } : LeafPort).endPass x
    stFault clStateLost 0 none

section
variable {p : LeafPort} {x : Taken} {needs : Bool}

theorem runPass_of_neverWritten (hd : (tget {} p.bisque (passIdx x.words)).damaged = false)
    (hn : (tget {} p.bisque (passIdx x.words)).st = .neverWritten) (f : Bisque → LeafPort) :
    p.runPass x true f = p.endPass x stNeverWritten 0 0 none := by
  simp [LeafPort.runPass, hd, hn]

theorem runPass_of_damaged (hd : (tget {} p.bisque (passIdx x.words)).damaged = true) (f : Bisque → LeafPort) :
    p.runPass x needs f = endedByDamage p x := by
  simp [LeafPort.runPass, endedByDamage, hd]

end

@[simp] theorem passFault_scratch (p : LeafPort) (t : Taken) (c : Nat) (cls : BitVec 8) : (p.passFault t c cls).scratch = p.scratch := rfl

@[simp] theorem passFault_flogCount (p : LeafPort) (t : Taken) (c : Nat) (cls : BitVec 8) :
    (p.passFault t c cls).flogCount = satInc p.flogCount := rfl

/-- The failed chunk of a pass's read, and how its read failed. -/
def failedChunk : PassRead → Option (Nat × IoClass)
  | .bad c k => some (c, k)
  | .ok _ => none

theorem eq_bad_of_failedChunk {r : PassRead} {c : Nat} {k : IoClass} (h : failedChunk r = some (c, k)) : r = .bad c k := by
  cases r with
  | ok => exact nomatch h
  | bad => cases h; rfl

/-- Outcome `o` runs pass `x` on leaf port `l`: a pass that gets as far as its accumulator's value ends with FAULT where `bad` names the
first failed chunk of its reads. -/
def runsPass (s : State) (l : Nat) (x : Taken) (needs : Bool) (bad : Option (Nat × IoClass))
    (o : Host.Outcome State Fault Refusal) : Prop :=
  ∃ f, o = .next (s.setLeaf l ((s.leaf l).runPass x needs f))
    ∧ ∀ c k, bad = some (c, k) → ∀ b, f b = (s.leaf l).passFault x c (readClass k)

section
variable {l : Nat} {x : Taken} {s : State}

section
variable {needs : Bool} {bad : Option (Nat × IoClass)} {o : Host.Outcome State Fault Refusal}

theorem runsPass.neverWritten (h : runsPass s l x needs bad o) (hneeds : needs = true)
    (hd : (tget {} (s.leaf l).bisque (passIdx x.words)).damaged = false)
    (hn : (tget {} (s.leaf l).bisque (passIdx x.words)).st = .neverWritten) :
    o = .next (s.setLeaf l ((s.leaf l).endPass x stNeverWritten 0 0 none)) := by
  obtain ⟨f, ho, -⟩ := h
  rw [ho, hneeds, runPass_of_neverWritten hd hn]

theorem runsPass.damaged (h : runsPass s l x needs bad o) (hd : (tget {} (s.leaf l).bisque (passIdx x.words)).damaged = true) :
    o = .next (s.setLeaf l (endedByDamage (s.leaf l) x)) := by
  obtain ⟨f, ho, -⟩ := h
  rw [ho, runPass_of_damaged hd]

theorem runsPass.readFailed {c : Nat} {k : IoClass} (h : runsPass s l x needs (some (c, k)) o)
    (hd : (tget {} (s.leaf l).bisque (passIdx x.words)).damaged = false)
    (hn : needs = true → (tget {} (s.leaf l).bisque (passIdx x.words)).st ≠ .neverWritten) :
    o = .next (s.setLeaf l ((s.leaf l).passFault x c (readClass k))) := by
  obtain ⟨f, ho, hf⟩ := h
  rw [ho, runPass_of_intact rfl hd f hn, hf c k rfl]

end

/-! Each command that reads or clears runs its pass so; a store does too, and takes a free value. -/

theorem runsPass_bisqueClear (hx : (s.leaf l).pass 0 = some x) : runsPass s l x false none (exec (.bisqueClear l) s) :=
  ⟨_, (exec_bisqueClear l s).trans (onPass_runs hx), nofun⟩

theorem runsPass_bisqueLoad (hx : (s.leaf l).pass 1 = some x) (r : PassRead) :
    runsPass s l x false (failedChunk r) (exec (.bisqueLoad l r) s) :=
  ⟨_, (exec_bisqueLoad l r s).trans (onPass_runs hx), fun _ _ hr _ => by obtain rfl := eq_bad_of_failedChunk hr; rfl⟩

theorem runsPass_bisqueAddSum (hx : (s.leaf l).pass 2 = some x) (r : PassRead) :
    runsPass s l x (!passFirst x.words) (failedChunk r) (exec (.bisqueAddSum l r) s) :=
  ⟨_, (exec_bisqueAddSum l r s).trans (onPass_runs hx), fun _ _ hr _ => by obtain rfl := eq_bad_of_failedChunk hr; rfl⟩

theorem runsPass_bisqueAddSumsq (hx : (s.leaf l).pass 3 = some x) (r : PassRead) :
    runsPass s l x (!passFirst x.words) (failedChunk r) (exec (.bisqueAddSumsq l r) s) :=
  ⟨_, (exec_bisqueAddSumsq l r s).trans (onPass_runs hx), fun _ _ hr _ => by obtain rfl := eq_bad_of_failedChunk hr; rfl⟩

theorem runsPass_bisqueAddDot (hx : (s.leaf l).pass 4 = some x) (r u : PassRead) :
    runsPass s l x (!passFirst x.words) ((failedChunk r).or (failedChunk u)) (exec (.bisqueAddDot l r u) s) := by
  refine ⟨_, (exec_bisqueAddDot l r u s).trans (onPass_runs hx), ?_⟩
  cases r with
  | bad => rintro _ _ ⟨⟩ _; rfl
  | ok => cases u with
    | ok => exact nofun
    | bad => rintro _ _ ⟨⟩ _; rfl

theorem runsPass_bisqueAddSherd (hx : (s.leaf l).pass 5 = some x) (r : PassRead) :
    runsPass s l x (!passFirst x.words) (failedChunk r) (exec (.bisqueAddSherd l r) s) :=
  ⟨_, (exec_bisqueAddSherd l r s).trans (onPass_runs hx), fun _ _ hr _ => by obtain rfl := eq_bad_of_failedChunk hr; rfl⟩

theorem exec_bisqueStore_runs (hx : (s.leaf l).pass 6 = some x) (bad : Option Nat) :
    ∃ f, exec (.bisqueStore l bad) s = .next (s.setLeaf l ((s.leaf l).runPass x true f)).tock := by
  rw [exec_bisqueStore, execBisqueStore, hx]
  exact ⟨_, rfl⟩

end

/-- Settles O21: each command runs its pass, and a pass run on an accumulator never written, with a failed read or on a damaged
accumulator ends as `runPass` says. -/
theorem passRefusals : Obligations.PassRefusals := by
  unfold Obligations.PassRefusals
  refine ⟨fun l x s hd => ⟨fun hn hw => ?neverWritten, fun hn hx r => ?neverStored, fun c k q hq => ?readFailed⟩, fun l x s hd q hq => ?damaged⟩
  case neverWritten =>
    have hneeds : (!passFirst x.words) = true := by rw [hw]; rfl
    exact ⟨fun r hx => (runsPass_bisqueAddSum hx r).neverWritten hneeds hd hn,
      fun r hx => (runsPass_bisqueAddSumsq hx r).neverWritten hneeds hd hn,
      fun r u hx => (runsPass_bisqueAddDot hx r u).neverWritten hneeds hd hn,
      fun r hx => (runsPass_bisqueAddSherd hx r).neverWritten hneeds hd hn⟩
  case neverStored =>
    obtain ⟨f, hf⟩ := exec_bisqueStore_runs hx r
    rw [runPass_of_neverWritten hd hn] at hf
    exact ⟨_, hf, rfl⟩
  case readFailed =>
    obtain rfl : q = (s.leaf l).passFault x c (readClass k) := by rw [hq]; cases k <;> rfl
    refine ⟨passFault_bisque .., passFault_scratch .., passFault_chunkFaults .., passFault_intStatus .., passFault_flogCount ..,
      fun hx => (runsPass_bisqueLoad hx _).readFailed hd nofun, fun hw => ?_⟩
    have hadds : (!passFirst x.words) = true → (tget {} (s.leaf l).bisque (passIdx x.words)).st ≠ .neverWritten :=
      fun hneeds => hw.resolve_left (by simpa using hneeds)
    exact ⟨fun hx => (runsPass_bisqueAddSum hx _).readFailed hd hadds, fun hx => (runsPass_bisqueAddSumsq hx _).readFailed hd hadds,
      fun hx => ⟨fun u => (runsPass_bisqueAddDot hx _ u).readFailed hd hadds, fun bs => (runsPass_bisqueAddDot hx _ _).readFailed hd hadds⟩,
      fun hx => (runsPass_bisqueAddSherd hx _).readFailed hd hadds⟩
  case damaged =>
    subst hq
    refine ⟨fun hx => (runsPass_bisqueClear hx).damaged hd, fun r hx => (runsPass_bisqueLoad hx r).damaged hd,
      fun r hx => (runsPass_bisqueAddSum hx r).damaged hd, fun r hx => (runsPass_bisqueAddSumsq hx r).damaged hd,
      fun r u hx => (runsPass_bisqueAddDot hx r u).damaged hd, fun r hx => (runsPass_bisqueAddSherd hx r).damaged hd, fun r hx => ?_⟩
    obtain ⟨f, hf⟩ := exec_bisqueStore_runs hx r
    rw [hf, runPass_of_damaged hd]
    rfl

end Sys2Proof.Proofs

/-! ### O15: drained tiles -/

namespace Sys2Proof.Proofs
open Sys2Proof.Machine

/-- What R277 asks of a drain into a slot that `x` was taken from. -/
def acceptsDrain (p : LeafPort) (slot fmt : Nat) (x : Taken) : Prop :=
  p.resetBusy = false ∧ p.inSlot slot = some x ∧ x.phase ≠ .pass ∧ x.desc.stream = true ∧ fmt = x.desc.inF
    ∧ drainFmt fmt = true ∧ x.tilesIn < tilesOf x.desc ∧ x.ended = none

section
variable {p : LeafPort} {slot fmt : Nat} {x : Taken}

/-- An accepted tile goes where R245 says, and is counted. -/
theorem drain_of_accepts (h : acceptsDrain p slot fmt x) (bs : List Byte) : p.drain slot fmt bs
    = (p.storeOrPush (x.desc.src + 1024 * x.tilesIn * x.desc.b)
        (bytesAt bs 0 (min 1024 (streamElems x.desc - 1024 * x.tilesIn) * x.desc.b))).modTaken x.cnt
          (fun y => { y with tilesIn := y.tilesIn + 1 }) := by
  obtain ⟨hreset, hslot, hpass, hstream, rfl, hfmt, htiles, hend⟩ := h
  simp [LeafPort.drain, hreset, hslot, hpass, hstream, hfmt, Nat.not_le.mpr htiles, hend]

/-- Every check of R277 that fails refuses the drain, each with a cause of Table 8.15. -/
theorem drain_of_not_accepts (h : ¬ ∃ x, acceptsDrain p slot fmt x) (bs : List Byte) :
    ∃ cause, 1 ≤ cause ∧ cause ≤ 4 ∧ p.drain slot fmt bs = p.drainRefused cause slot := by
  cases hreset : p.resetBusy with
  | true => exact ⟨4, by decide, by decide, by simp [LeafPort.drain, hreset]⟩
  | false =>
    cases hslot : p.inSlot slot with
    | none => exact ⟨1, by decide, by decide, by simp [LeafPort.drain, hreset, hslot]⟩
    | some x =>
      by_cases hpass : x.phase = .pass
      · exact ⟨1, by decide, by decide, by simp [LeafPort.drain, hreset, hslot, hpass]⟩
      by_cases hstream : x.desc.stream = true
      case neg => exact ⟨1, by decide, by decide, by simp [LeafPort.drain, hreset, hslot, hstream]⟩
      by_cases hin : fmt = x.desc.inF
      case neg => exact ⟨2, by decide, by decide, by simp [LeafPort.drain, hreset, hslot, hpass, hstream, hin]⟩
      by_cases hfmt : drainFmt fmt = true
      case neg => exact ⟨2, by decide, by decide, by simp [LeafPort.drain, hreset, hslot, hpass, hstream, hfmt]⟩
      by_cases htiles : x.tilesIn < tilesOf x.desc
      case neg =>
        exact ⟨3, by decide, by decide, by
          simp [LeafPort.drain, hreset, hslot, hpass, hstream, hin ▸ hfmt, hin, Nat.not_lt.mp htiles]⟩
      cases hend : x.ended with
      | none => exact absurd ⟨x, hreset, hslot, hpass, hstream, hin, hfmt, htiles, hend⟩ h
      | some e =>
        exact ⟨4, by decide, by decide, by
          simp [LeafPort.drain, hreset, hslot, hpass, hstream, hin ▸ hfmt, hin, Nat.not_le.mpr htiles, hend]⟩

end

section
variable {l slot tile : Nat} {s : State}

theorem exec_tileDrain (h : s.leafLive l = true) (slot fmt : Nat) (bs : List Byte) :
    exec (.tileDrain l slot fmt bs) s = .next (s.setLeaf l ((s.leaf l).drain slot fmt bs)) := if_pos h

theorem exec_tileLanded (l slot tile : Nat) (s : State) : exec (.tileLanded l slot tile) s = execTileLanded l slot tile s := rfl

theorem execTileLanded_lands {x : Taken} (hx : (s.leaf l).inSlot slot = some x) (ht : tile < x.tilesIn) : execTileLanded l slot tile s
    = .next (s.setLeaf l ((s.leaf l).modTaken x.cnt (fun y => { y with landed := insertRise tile y.landed }))) := by
  simp [execTileLanded, hx, ht]

theorem execTileLanded_idle (h : ∀ x, (s.leaf l).inSlot slot = some x → x.tilesIn ≤ tile) : execTileLanded l slot tile s = .next s := by
  cases hx : (s.leaf l).inSlot slot with
  | none => simp [execTileLanded, hx]
  | some x => simp [execTileLanded, hx, Nat.not_lt.mpr (h x hx)]

end

/-- Settles O15: a drain by whether R277 accepts it, a landing by whether its tile was accepted. -/
theorem tileDrain : Obligations.TileDrain := by
  unfold Obligations.TileDrain
  refine ⟨fun l slot fmt bs s hl => ?drain, fun l slot tile s => ?landed⟩
  case drain =>
    rw [exec_tileDrain hl]
    refine ⟨fun x hreset hslot hpass hstream hin hfmt htiles hend => ?_, fun h => ?_⟩
    · rw [drain_of_accepts ⟨hreset, hslot, hpass, hstream, hin, hfmt, htiles, hend⟩]
    · obtain ⟨cause, hlo, hhi, hd⟩ := drain_of_not_accepts h bs
      exact ⟨cause, hlo, hhi, by rw [hd]; rfl⟩
  case landed =>
    rw [exec_tileLanded]
    exact ⟨fun x => execTileLanded_lands, execTileLanded_idle⟩

end Sys2Proof.Proofs

/-! ### O36: barriers -/

namespace Sys2Proof.Proofs
open Sys2Proof.Machine

section
variable {g : Nat} {f : Firing} {s : State}

/-- The group's barrier that every member has reached and that is next in the group's order. -/
def arrivedBarrier (s : State) (g : Nat) : Option Firing :=
  s.kiln.firings.find? (fun f => f.group == g && f.st == .armed && f.cause.isNone && f.desc.kind == 4 && f.ord == (s.groupRun g).nextOrd)

/-- Barrier `f` as the kiln numbers and stamps it (R308). -/
def barrierNumbered (s : State) (f : Firing) : Firing → Firing := fun x =>
  { x with st := .granted, fn := nextFn s.kiln.lastFn, ts := s.time, bound := (s.digestOf f).map (fun e => (e.1, e.2.1)) }

/-- The state in which a barrier has its number and its moment, and its group goes on (R220, R308). -/
def barrierGranted (s : State) (g : Nat) (f : Firing) : State :=
  ((s.modKiln (fun k => { k with lastFn := nextFn s.kiln.lastFn })).modFiring f.uid (barrierNumbered s f)).modGroup g
    (fun r => { r with nextOrd := f.ord + 1 })

theorem exec_barrierArrive (g : Nat) (s : State) : exec (.barrierArrive g) s = execBarrierArrive g s := rfl

theorem execBarrierArrive_idle (h : arrivedBarrier s g = none ∨ s.kiln.paceHold = true ∨ s.kiln.admitStopped = true) :
    execBarrierArrive g s = .next s := by
  cases hf : arrivedBarrier s g with
  | none =>
    rw [arrivedBarrier] at hf
    simp [execBarrierArrive, hf]
  | some f =>
    have hheld : s.kiln.paceHold = true ∨ s.kiln.admitStopped = true := h.resolve_left (by simp [hf])
    rw [arrivedBarrier] at hf
    simp [execBarrierArrive, hf, hheld]

theorem execBarrierArrive_releases (hf : arrivedBarrier s g = some f) (hp : s.kiln.paceHold = false) (ha : s.kiln.admitStopped = false) :
    execBarrierArrive g s = .next (((barrierGranted s g f).decideEnd f.uid stOk 0xFFFF 0).afterEnd g).noteOld := by
  rw [arrivedBarrier] at hf
  simp only [execBarrierArrive, hf, hp, ha, Bool.or_self, Bool.false_eq_true, if_false]
  rfl

theorem firing?_barrierGranted (hf : arrivedBarrier s g = some f) :
    ∃ x, (barrierGranted s g f).firing? f.uid = some x ∧ x.st = .granted ∧ x.fn = nextFn s.kiln.lastFn ∧ x.ts = s.time := by
  have hsome : (s.firing? f.uid).isSome = true :=
    List.find?_isSome.mpr ⟨f, List.mem_of_find?_eq_some hf, beq_self_eq_true f.uid⟩
  obtain ⟨y, hy⟩ := Option.isSome_iff_exists.mp hsome
  have hmod := firing?_modFiring (s.modKiln (fun k => { k with lastFn := nextFn s.kiln.lastFn })) (uid := f.uid)
    (f := barrierNumbered s f) (fun _ => rfl)
  exact ⟨_, hmod.trans (congrArg (Option.map _) hy), rfl, rfl, rfl⟩

end

section
variable {l : Nat} {ok : Bool} {s : State} {e : EndMsg}

/-- The taken barrier that a release ends. -/
def waitingBarrier (p : LeafPort) (e : EndMsg) : Option Taken :=
  p.taken.find? (fun t => t.phase == .waiting && t.ended.isNone && t.desc.group == e.group.toNat)

/-- A taken barrier as its release leaves it (R293). -/
def releasedTaken (x : Taken) (e : EndMsg) : Taken :=
  { x with phase := .running, fn := e.fn, seq := e.seq, ts := e.ts, ended := some e, stopped := true }

/-- A leaf port that has taken the release in front of `ms` for its barrier `x`, before the record. -/
def releasedPort (p : LeafPort) (ms : List CtlMsg) (x : Taken) (e : EndMsg) : LeafPort :=
  { p with inbox := ms, taken := modFirst (fun t => t.cnt == x.cnt) (fun _ => releasedTaken x e) p.taken }

theorem exec_barrierRelease (l : Nat) (ok : Bool) (s : State) : exec (.barrierRelease l ok) s = execBarrierRelease l ok s := rfl

theorem execBarrierRelease_idle (h : ∀ e d ep ms, (s.leaf l).inbox ≠ .release e d ep :: ms) : execBarrierRelease l ok s = .next s := by
  unfold execBarrierRelease
  dsimp only
  split
  · next hinbox => exact (h _ _ _ _ hinbox).elim
  · rfl

variable {d : List Nat} {ep : Bool} {ms : List CtlMsg} (hi : (s.leaf l).inbox = .release e d ep :: ms)
include hi

theorem execBarrierRelease_of_none (hx : waitingBarrier (s.leaf l) e = none) :
    execBarrierRelease l ok s = .next (s.setLeaf l { s.leaf l with inbox := ms }) := by
  rw [waitingBarrier] at hx
  simp [execBarrierRelease, hi, hx]

theorem execBarrierRelease_of_failed (hx : waitingBarrier (s.leaf l) e ≠ none) (hf : (s.leaf l).failed = true) :
    execBarrierRelease l ok s = .next s := by
  obtain ⟨x, hx⟩ := Option.ne_none_iff_exists'.mp hx
  rw [waitingBarrier] at hx
  simp [execBarrierRelease, hi, hx, hf]

theorem execBarrierRelease_releases {x : Taken} (hx : waitingBarrier (s.leaf l) e = some x) (hf : (s.leaf l).failed = false) :
    execBarrierRelease l ok s = .next (s.setLeaf l
      (if !ok && (releasedPort (s.leaf l) ms x e).recordDue (releasedTaken x e)
          && decide ((releasedPort (s.leaf l) ms x e).unconsumed < (releasedPort (s.leaf l) ms x e).e)
        then (releasedPort (s.leaf l) ms x e).recordFails (releasedTaken x e) s.time
        else (releasedPort (s.leaf l) ms x e).recordIfDue (releasedTaken x e))) := by
  rw [waitingBarrier] at hx
  simp only [execBarrierRelease, hi, hx]
  exact if_neg (ne_true_of_eq_false hf)

end

/-- Settles O36: an arrival by what the kiln finds, a release by what the leaf port finds and whether its record fails. -/
theorem barrier : Obligations.Barrier := by
  unfold Obligations.Barrier
  refine ⟨fun g r s hr => ?arrive, fun l ok s h => execBarrierRelease_idle h, fun l ok e d ep ms r s hi hr => ?release⟩
  case arrive =>
    subst hr
    rw [exec_barrierArrive]
    exact ⟨execBarrierArrive_idle, fun f hf hp ha =>
      ⟨barrierGranted s g f, execBarrierArrive_releases hf hp ha, rfl, rfl, firing?_barrierGranted hf⟩⟩
  case release =>
    subst hr
    rw [exec_barrierRelease]
    refine ⟨execBarrierRelease_of_none hi, execBarrierRelease_of_failed hi, fun x hx hf =>
      ⟨releasedPort (s.leaf l) ms x e, releasedTaken x e, rfl, rfl, fun h => ?written, fun hok hdue hroom => ?fails⟩⟩
    case written =>
      rw [execBarrierRelease_releases hi hx hf, if_neg]
      rcases h with h | h | h
      · simp [h]
      · simp [h]
      · simp [Nat.not_lt.mpr h]
    case fails => rw [execBarrierRelease_releases hi hx hf, if_pos (by simp [hok, hdue, hroom])]

end Sys2Proof.Proofs

/-! ### O18: the measured count of a ragged tail -/

namespace Sys2Proof.Proofs
open Sys2Proof.Machine

section
variable {l slot : Nat} {x : Taken} {s : State}

/-- Leaf port `p` once the probe of `x` has faulted at element 0: a chunk fault of chunk 0, and the count stands (R244, R284). -/
def probeFaulted (p : LeafPort) (x : Taken) (c : IoClass) : LeafPort :=
  ((p.modTaken x.cnt (fun y => { y with probe := some x.desc.count })).chunkFault x (readClass c) x.desc.src 0).modTaken x.cnt
    (fun y => { y with probeBad := true, chunks := [{ area := .src, ix := 0, data := none }] })

theorem exec_ragTailProbe (l slot : Nat) (r : Option (Nat × IoClass)) (s : State) :
    exec (.ragTailProbe l slot r) s = execRagTailProbe l slot r s := rfl

theorem execRagTailProbe_faults (hx : (s.leaf l).inSlot slot = some x) (hph : x.phase = .taken) (htail : x.desc.ragTail = true)
    (hinv : x.invalid = none) (hprobe : x.probe = none) (hend : x.ended = none) (hcount : 0 < x.desc.count) (c : IoClass) :
    execRagTailProbe l slot (some (0, c)) s = .next (s.setLeaf l (probeFaulted (s.leaf l) x c)) := by
  simp [execRagTailProbe, probeFaulted, hx, hph, htail, hinv, hprobe, hend, Nat.ne_of_gt hcount]

/-- The fault log keeps sixteen entries: the newest is entry (count - 1) mod 16, and every other one is as it was (R285). -/
theorem tget_flog_probeFaulted_ne (p : LeafPort) (x : Taken) (c : IoClass) {k : Nat} (h : k ≠ ((satInc p.flogCount).toNat - 1) % 16) :
    tget 0 (probeFaulted p x c).flog k = tget 0 p.flog k := tget_tset_ne _ _ _ h

theorem setLeaf_injective (h : tableWf {} s.leaves = true) : Function.Injective (s.setLeaf l) := fun p q hpq => by
  rw [← leaf_setLeaf h l p, hpq, leaf_setLeaf h]

end

/-- A SUM firing of four elements whose words have rag_tail, so that it waits for the probe. -/
def raggedTail : Taken :=
  { cnt := 0, ragged := 1
    words := 2 ^ 0 + 2 ^ 8 + 2 ^ 16 + 2 ^ 24 + 3 * 2 ^ 32 + 4 * 2 ^ 128 + 0x1000 * 2 ^ 192 + 0x2000 * 2 ^ 256 + 2 ^ 623 }

/-- A leaf port whose fault log is full, with `raggedTail` taken. -/
def fullLogPort : LeafPort :=
  { enable := true, taken := [raggedTail], flogCount := 16, flog := (List.range 16).map (fun i => (i, 0x100)) }

/-- A block that serves, with `fullLogPort` at leaf 0. -/
def fullLog : State :=
  { State.reset with
    pwrokLow := false, rstLow := false, straps := { ndieM1 := 3, mfrId := 5, smbAddr := 2, debug := true }
    ctl := { phase := .serving }, leaves := [(0, fullLogPort)] }

/-- Refutes O18: the statement reads the new entry of the fault log at the count less one, and the log's index is that modulo 16 (R285).
The seventeenth fault goes into entry 0; entry 16, where the statement looks for its class, is never written. -/
theorem not_ragTailProbe : ¬ Obligations.RagTailProbe := by
  unfold Obligations.RagTailProbe
  intro h
  obtain ⟨-, hprobe⟩ := h
  have hx : (fullLog.leaf 0).inSlot 0 = some raggedTail := by decide +kernel
  have htail : raggedTail.desc.ragTail = true := by decide +kernel
  have hcount : 0 < raggedTail.desc.count := by decide +kernel
  obtain ⟨-, -, -, hfault⟩ := hprobe 0 0 raggedTail .addr fullLog hx rfl htail rfl rfl rfl
  obtain ⟨q, hq, -, -, -, hclass, -⟩ := hfault hcount
  rw [exec_ragTailProbe, execRagTailProbe_faults hx rfl htail rfl rfl rfl hcount] at hq
  injection hq with hstate
  obtain rfl := setLeaf_injective (by decide +kernel) hstate
  rw [tget_flog_probeFaulted_ne _ _ _ (by decide +kernel)] at hclass
  exact absurd hclass (by decide +kernel)

end Sys2Proof.Proofs

/-! ### O9, O11, O12 and O14: writes of the leaf port's registers and of its push window -/

namespace Sys2Proof.Proofs
open Sys2Proof.Machine

/-! Writing back what an entry reads as changes nothing. -/

section
variable {α : Type} {d : α} {k : Nat}

theorem terase_of_tget_default : ∀ {t : Table α}, (∀ e ∈ t, e.2 ≠ d) → tget d t k = d → terase k t = t
  | [], _, _ => rfl
  | (j, w) :: t, hd, hk => by
    by_cases hj : j = k
    · simp only [tget, hj, if_true] at hk
      exact absurd hk (hd (j, w) List.mem_cons_self)
    · simp only [tget, hj, if_false] at hk
      simp only [terase, hj, if_false, terase_of_tget_default (fun e he => hd e (List.mem_cons_of_mem _ he)) hk]

theorem tinsert_tget : ∀ {t : Table α} {lo : Nat}, keysRise lo t = true → tget d t k ≠ d → tinsert k (tget d t k) t = t
  | [], _, _, hk => absurd rfl hk
  | (j, w) :: t, lo, hr, hk => by
    simp only [keysRise, Bool.and_eq_true] at hr
    obtain ⟨-, hr⟩ := hr
    by_cases hj : j = k
    · subst hj
      simp [tinsert, tget]
    · simp only [tget, hj, if_false] at hk ⊢
      have hjk : ¬ k < j := fun h => hk (tget_of_lt d hr (Nat.lt_succ_of_lt h))
      simp only [tinsert, hjk, Ne.symm hj, if_false, tinsert_tget hr hk]

theorem tset_tget [DecidableEq α] {t : Table α} (h : tableWf d t = true) (k : Nat) : tset d t k (tget d t k) = t := by
  unfold tset
  split
  · next hk =>
    simp only [tableWf, Bool.and_eq_true, List.all_eq_true, decide_eq_true_eq] at h
    exact terase_of_tget_default h.2 hk
  · next hk => exact tinsert_tget (keysRise_of_wf h) hk

end

theorem setLeaf_leaf {s : State} (h : canonical s) (l : Nat) : s.setLeaf l (s.leaf l) = s := by
  rw [State.setLeaf, State.leaf, tset_tget h.leaves]

/-! LP_CTRL (R252, R290). -/

theorem toNat_ofNat_slice (v lo n : Nat) : (BitVec.ofNat n (slice v lo n)).toNat = slice v lo n := by
  rw [BitVec.toNat_ofNat, slice, Nat.mod_mod]

section
variable {p : LeafPort} {v : Word}

/-- What R252, R254 and R402 ask of a leaf port that a write of LP_CTRL is to start. -/
def mayStart (p : LeafPort) (v : Word) : Prop :=
  8 ≤ slice v.toNat 8 4 ∧ slice v.toNat 8 4 ≤ 12 ∧ p.ringOk = true ∧ p.outstanding = 0 ∧ p.failed = false

theorem mayStart_iff : mayStart p v ↔ (decide (8 ≤ slice v.toNat 8 4) && decide (slice v.toNat 8 4 ≤ 12) && p.ringOk
    && p.outstanding == 0 && !p.failed) = true := by
  simp [mayStart, and_assoc]

theorem ctrlWrite_starts (he : p.enable = false) (hv : bitOf v.toNat 0 = true) (h : mayStart p v) : p.ctrlWrite v = { p with
    enable := true, chunkLog2 := BitVec.ofNat 4 (slice v.toNat 8 4), cqThresh := BitVec.ofNat 4 (slice v.toNat 12 4),
    configErr := false, ringHead := 0, ringTail := 0, cqTail := 0, cqHead := 0, flogCount := 0, cqFull := false, next := 0,
    held := [], retired := [] } := by
  simp only [LeafPort.ctrlWrite, he, hv, toNat_ofNat_slice, mayStart_iff.mp h, Bool.false_and, Bool.not_false, Bool.and_self,
    Bool.false_eq_true, if_true, if_false]

theorem ctrlWrite_refuses_start (he : p.enable = false) (hv : bitOf v.toNat 0 = true) (h : ¬ mayStart p v) :
    p.ctrlWrite v = { p with configErr := true } := by
  simp only [LeafPort.ctrlWrite, LeafPort.refuse, he, hv, toNat_ofNat_slice, mt mayStart_iff.mpr h, Bool.false_and, Bool.not_false,
    Bool.and_self, Bool.false_eq_true, if_true, if_false]

theorem ctrlWrite_refuses_chunk (he : p.enable = true) (hc : BitVec.ofNat 4 (slice v.toNat 8 4) ≠ p.chunkLog2) :
    p.ctrlWrite v = { p with configErr := true } := by
  simp [LeafPort.ctrlWrite, LeafPort.refuse, he, hc]

/-- A write that neither starts the leaf port nor changes the chunk size of one that is enabled takes effect whole. -/
theorem ctrlWrite_accepts (hs : p.enable = true ∨ bitOf v.toNat 0 = false)
    (hc : p.enable = false ∨ BitVec.ofNat 4 (slice v.toNat 8 4) = p.chunkLog2) : p.ctrlWrite v = { p with
      enable := bitOf v.toNat 0, chunkLog2 := BitVec.ofNat 4 (slice v.toNat 8 4), cqThresh := BitVec.ofNat 4 (slice v.toNat 12 4),
      configErr := false } := by
  have hkeeps : (p.enable && BitVec.ofNat 4 (slice v.toNat 8 4) != p.chunkLog2) = false := by
    rcases hc with hc | hc <;> simp [hc]
  have hno : (bitOf v.toNat 0 && !p.enable) = false := by
    rcases hs with hs | hs <;> simp [hs]
  simp only [LeafPort.ctrlWrite, hkeeps, hno, Bool.false_eq_true, if_false]

end

/-! The rows that write one register of a leaf port. -/

theorem leafLive_iff (s : State) (l : Nat) : s.leafLive l = true ↔ s.awake = true ∧ s.leafExists l = true := by
  rw [State.leafLive, Bool.and_eq_true]

theorem execLpEnable_idle {l : Nat} {s : State} (hl : s.leafLive l = false) (v : Word) : execLpEnable l v s = .next s := by
  simp [execLpEnable, hl]

theorem execLpDisable_idle {l : Nat} {s : State} (hl : s.leafLive l = false) (v : Word) : execLpDisable l v s = .next s := by
  simp [execLpDisable, hl]

section
variable {l : Nat} {v : Word} {s : State} (hl : s.leafLive l = true)
include hl

section
variable (hr : bitOf v.toNat 1 = false)
include hr

theorem exec_lpEnable_writes (hv : bitOf v.toNat 0 = true) :
    exec (.lpEnable l v) s = .next (s.setLeaf l ((s.leaf l).ctrlWrite v)) := by
  rw [show exec (.lpEnable l v) s = execLpEnable l v s from rfl]
  simp [execLpEnable, State.lpCtrlWrite, hl, hr, hv]

theorem exec_lpDisable_writes (hv : bitOf v.toNat 0 = false) :
    exec (.lpDisable l v) s = .next (s.setLeaf l ((s.leaf l).ctrlWrite v)) := by
  rw [show exec (.lpDisable l v) s = execLpDisable l v s from rfl]
  simp [execLpDisable, State.lpCtrlWrite, hl, hr, hv]

end

theorem exec_lpDoorbell (v : Word) : exec (.lpDoorbell l v) s = .next (s.setLeaf l ((s.leaf l).doorbell v)) := if_pos hl

theorem exec_lpCqHeadWrite (v : Word) : exec (.lpCqHeadWrite l v) s = .next (s.setLeaf l ((s.leaf l).cqHeadWrite v)) := if_pos hl

theorem exec_lpIntStatusClear (v : Word) : exec (.lpIntStatusClear l v) s
    = .next (s.setLeaf l { s.leaf l with intStatus := (s.leaf l).intStatus &&& ~~~v }) := if_pos hl

theorem exec_lpPush {off : Nat} (ho : off < 4096) (wide : Bool) (x : BitVec 128) :
    exec (.lpPush l off wide x) s = .next (s.setLeaf l ((s.leaf l).push off wide x)) := by
  rw [show exec (.lpPush l off wide x) s = execLpPush l off wide x s from rfl]
  simp [execLpPush, hl, ho]

end

/-- Settles O9: a write of LP_CTRL by whether it starts the leaf port, whether R252 refuses it, and what an accepted one leaves. -/
theorem leafControl : Obligations.LeafControl := by
  unfold Obligations.LeafControl
  refine fun l v s => ⟨fun hl => ⟨execLpEnable_idle hl v, execLpDisable_idle hl v⟩,
    fun hl hr => ⟨fun hv => ?enable, fun hv => ?disable⟩⟩
  case enable =>
    rw [exec_lpEnable_writes hl hr hv]
    refine ⟨fun he hlo hhi hring hout hfail => ?_, fun he hno => ?_, fun he hc => ?_, fun he hc => ?_⟩
    · rw [ctrlWrite_starts he hv ⟨hlo, hhi, hring, hout, hfail⟩]
    · rw [ctrlWrite_refuses_start he hv hno]
    · rw [ctrlWrite_refuses_chunk he hc]
    · rw [ctrlWrite_accepts (.inl he) (.inr hc), hv, hc, ← he]
  case disable =>
    rw [exec_lpDisable_writes hl hr hv]
    refine ⟨fun hc => ?_, fun he hc => ?_⟩
    · rw [ctrlWrite_accepts (.inr hv) hc, hv]
    · rw [ctrlWrite_refuses_chunk he hc]

/-! LP_DOORBELL (R256) and LP_CQ_HEAD (R257). -/

section
variable {p : LeafPort} {v : Word}

/-- What R256 asks of a write of LP_DOORBELL. -/
def acceptsTail (p : LeafPort) (v : Word) : Prop :=
  (v.setWidth 16 - p.ringHead : BitVec 16).toNat ≤ p.e ∧ (v.setWidth 16 - p.ringTail : BitVec 16).toNat ≤ p.e

theorem doorbell_of_accepts (h : acceptsTail p v) : p.doorbell v = { p with ringTail := v.setWidth 16 } := if_pos h

theorem doorbell_of_not_accepts (h : ¬ acceptsTail p v) : p.doorbell v = { p with intStatus := setBit p.intStatus ibDbErr } := if_neg h

/-- A write of the current tail, with no more than E descriptors waiting, is accepted and changes nothing. -/
theorem doorbell_of_current_tail (hw : (p.ringTail - p.ringHead).toNat ≤ p.e) (ht : v.setWidth 16 = p.ringTail) : p.doorbell v = p := by
  rw [doorbell_of_accepts (by rw [acceptsTail, ht, BitVec.sub_self]; exact ⟨hw, Nat.zero_le _⟩), ht]

end

/-- Settles O11: a write by R256's two conditions, one of the current tail as an accepted one that changes nothing. -/
theorem doorbell : Obligations.Doorbell := by
  unfold Obligations.Doorbell
  intro l v s hl
  rw [exec_lpDoorbell hl]
  refine ⟨fun h => ?_, fun h _ => ?_, fun hs hw ht => ?_⟩
  · rw [doorbell_of_accepts h]
  · rw [doorbell_of_not_accepts h]
  · rw [doorbell_of_current_tail hw ht, setLeaf_leaf hs]

/-- Settles O12: a write by R257's condition. -/
theorem cqHead : Obligations.CqHead := by
  unfold Obligations.CqHead
  intro l v s hl
  rw [exec_lpCqHeadWrite hl]
  refine ⟨fun h => ?accepted, fun h => ?refused⟩
  case accepted => rw [LeafPort.cqHeadWrite, if_pos h]
  case refused => rw [LeafPort.cqHeadWrite, if_neg (Nat.not_le.mpr h), LeafPort.raise]

/-! Pushes (R273 to R275, Table 8.11). -/

section
variable {p : LeafPort} {off : Nat} {wide : Bool} {x : BitVec 128}

theorem push_of_accepts (hw : wide = true) (ha : off % 16 = 0) (hr : p.running = true) (hk : p.lineLocked (off / 16) = false) :
    p.push off wide x = { p with pushBuf := tsetRun 0 p.pushBuf off (leBytes 16 x.toNat) } := by
  have hreset : p.resetBusy = false := by
    rw [LeafPort.running, Bool.and_eq_true, Bool.not_eq_true'] at hr
    exact hr.2
  simp [LeafPort.push, hreset, hw, ha, hr, hk]

/-- The cause with which a push is refused; none for an accepted one. -/
def refusedPush (p : LeafPort) (off : Nat) (wide : Bool) (cause : Nat) : Prop :=
  if p.resetBusy = true then cause = 3 else if wide = true ∧ off % 16 = 0 then (if p.running = true then
    (if p.lineLocked (off / 16) = true then cause = 1 else False) else cause = 3) else cause = 2

theorem push_of_refused {cause : Nat} (h : refusedPush p off wide cause) : p.push off wide x = p.pushRefused cause off := by
  unfold refusedPush at h
  split at h
  · next hreset => simp [LeafPort.push, hreset, h]
  next hreset =>
  split at h
  · next hfit =>
    split at h
    · next hrun =>
      split at h
      · next hlock => simp [LeafPort.push, hreset, hfit, hrun, hlock, h]
      · exact h.elim
    · next hrun => simp [LeafPort.push, hreset, hfit, hrun, h]
  · next hfit =>
    have hbad : (!wide || off % 16 != 0) = true := by
      rwa [Bool.or_eq_true, Bool.not_eq_true', bne_iff_ne, ← Bool.not_eq_true, ← not_and_or]
    simp [LeafPort.push, hreset, hbad, h]

theorem pushRefused_of_in_window (ho : off < 4096) (cause : Nat) : p.pushRefused cause off = { p with
    pushFault := BitVec.ofNat 32 (cause * 2 ^ 28 + off), pushFaults := satInc p.pushFaults,
    intStatus := setBit p.intStatus ibPushFault } := by
  rw [LeafPort.pushRefused, LeafPort.raise, at', Nat.mod_eq_of_lt ho]

end

/-- Settles O14: an accepted push by what R273 to R275 ask of it, any other by its cause. -/
theorem push : Obligations.Push := by
  unfold Obligations.Push
  intro l off wide x s hl ho
  rw [exec_lpPush hl ho]
  refine ⟨fun hw ha hr hk => ?accepted, fun cause h => ?refused⟩
  case accepted => rw [push_of_accepts hw ha hr hk]
  case refused => rw [push_of_refused h, pushRefused_of_in_window ho]

end Sys2Proof.Proofs

/-! ### O13: the registers written by REGISTER_WRITE -/

namespace Sys2Proof.Proofs
open Sys2Proof.Machine

section
variable {l off : Nat} {v : Word} {s : State} (hl : s.leafLive l = true)
include hl

theorem exec_registerWrite_leaf (off : Nat) (wide : Bool) (v : Word) :
    exec (.registerWrite (.leaf l) off wide v) s = .next (s.lpWrite l off (!wide) v) := by
  obtain ⟨ha, he⟩ := (leafLive_iff s l).mp hl
  rw [show exec (.registerWrite (.leaf l) off wide v) s = execRegisterWrite (.leaf l) off wide v s from rfl]
  simp [execRegisterWrite, ha, he]

/-- A store to the push window is a push of a width that no push has (Table 8.11). -/
theorem registerWrite_pushes (hlo : 0x1000 ≤ off) (hhi : off < 0x2000) (wide : Bool) (v : Word) :
    exec (.registerWrite (.leaf l) off wide v) s = exec (.lpPush l (off - 0x1000) false 0) s := by
  rw [exec_registerWrite_leaf hl, exec_lpPush hl (by omega)]
  simp [State.lpWrite, hlo, hhi]

/-- Outside the push window an access that is not an aligned 32-bit one is ignored (R249). -/
theorem registerWrite_ignores_access (ho : off < 0x1000 ∨ 0x2000 ≤ off) {wide : Bool} (h : wide = true ∨ off % 4 ≠ 0) (v : Word) :
    exec (.registerWrite (.leaf l) off wide v) s = .next s := by
  have hwin : (decide (0x1000 ≤ off) && decide (off < 0x2000)) = false := by
    rw [← Bool.decide_and, decide_eq_false_iff_not]
    omega
  rw [exec_registerWrite_leaf hl]
  rcases h with h | h <;> simp [State.lpWrite, hwin, h]

theorem registerWrite_ignores_readOnly (h : off ∈ [0x00, 0x08, 0x1C, 0x20, 0x24, 0x34, 0x38]) (v : Word) :
    exec (.registerWrite (.leaf l) off false v) s = .next s := by
  rw [exec_registerWrite_leaf hl]
  simp only [List.mem_cons, List.not_mem_nil, or_false] at h
  rcases h with rfl | rfl | rfl | rfl | rfl | rfl | rfl <;> rfl

theorem registerWrite_intEnable (v : Word) : exec (.registerWrite (.leaf l) 0x30 false v) s
    = .next (s.setLeaf l { s.leaf l with intEnable := v &&& 0x1FF }) := exec_registerWrite_leaf hl 0x30 false v

theorem registerWrite_ringLog2 (v : Word) : exec (.registerWrite (.leaf l) 0x0C false v) s
    = .next (s.setLeaf l ((s.leaf l).ringWrite (fun q => { q with ringLog2 := v.setWidth 4 }))) := exec_registerWrite_leaf hl 0x0C false v

theorem registerWrite_ringBase (v : Word) : exec (.registerWrite (.leaf l) 0x10 false v) s
    = .next (s.setLeaf l ((s.leaf l).ringWrite (fun q => { q with ringBase := v &&& 0xFFFFFFE0 }))) :=
  exec_registerWrite_leaf hl 0x10 false v

theorem registerWrite_cqBase (v : Word) : exec (.registerWrite (.leaf l) 0x14 false v) s
    = .next (s.setLeaf l ((s.leaf l).ringWrite (fun q => { q with cqBase := v &&& 0xFFFFFFE0 }))) :=
  exec_registerWrite_leaf hl 0x14 false v

end

theorem ringWrite_of_idle {p : LeafPort} (he : p.enable = false) (ho : p.outstanding = 0) (f : LeafPort → LeafPort) :
    p.ringWrite f = { f p with configErr := false } := by
  simp [LeafPort.ringWrite, he, ho]

theorem ringWrite_of_busy {p : LeafPort} (h : p.enable = true ∨ p.outstanding ≠ 0) (f : LeafPort → LeafPort) :
    p.ringWrite f = { p with configErr := true } := by
  rcases h with h | h <;> simp [LeafPort.ringWrite, LeafPort.refuse, h]

theorem registerWrite_refuses_ring {l off : Nat} {s : State} (hl : s.leafLive l = true)
    (h : (s.leaf l).enable = true ∨ (s.leaf l).outstanding ≠ 0) (ho : off ∈ [0x0C, 0x10, 0x14]) (v : Word) :
    exec (.registerWrite (.leaf l) off false v) s = .next (s.setLeaf l { s.leaf l with configErr := true }) := by
  simp only [List.mem_cons, List.not_mem_nil, or_false] at ho
  rcases ho with rfl | rfl | rfl
  · rw [registerWrite_ringLog2 hl, ringWrite_of_busy h]
  · rw [registerWrite_ringBase hl, ringWrite_of_busy h]
  · rw [registerWrite_cqBase hl, ringWrite_of_busy h]

theorem exec_registerWrite_port {p : Nat} {s : State} (ha : s.awake = true) (hp : p < 16) (off : Nat) (v : Word) :
    exec (.registerWrite (.port p) off false v) s = .next (s.windowWrite p off v) := by
  rw [show exec (.registerWrite (.port p) off false v) s = execRegisterWrite (.port p) off false v s from rfl]
  simp [execRegisterWrite, ha, hp]

theorem exec_registerWrite_port_wide {s : State} (p off : Nat) (v : Word) :
    exec (.registerWrite (.port p) off true v) s = .next s := by
  rw [show exec (.registerWrite (.port p) off true v) s = execRegisterWrite (.port p) off true v s from rfl]
  simp [execRegisterWrite]

/-- Settles O13: each register by its own equation, the refused accesses by what R249 asks of one. -/
theorem registerWrites : Obligations.RegisterWrites := by
  unfold Obligations.RegisterWrites
  intro l v s hl
  refine ⟨exec_lpIntStatusClear hl v, registerWrite_intEnable hl v, fun off ho => registerWrite_ignores_access hl ho (.inl rfl) v,
    fun off ho ha => registerWrite_ignores_access hl (.inl ho) (.inr ha) v, fun off ho => registerWrite_ignores_readOnly hl ho v,
    fun off wide hlo hhi => registerWrite_pushes hl hlo hhi wide v, fun he ho => ?ring,
    fun h off ho => registerWrite_refuses_ring hl h ho v,
    fun hw ht => ?crowded, fun p hp => ⟨exec_registerWrite_port ((leafLive_iff s l).mp hl).1 hp 0x200C v,
      exec_registerWrite_port_wide p 0x200C v⟩⟩
  case ring =>
    rw [registerWrite_ringLog2 hl, registerWrite_ringBase hl, registerWrite_cqBase hl]
    simp only [ringWrite_of_idle he ho, and_self]
  case crowded =>
    have hno : ¬ acceptsTail (s.leaf l) v := fun h => absurd (ht ▸ h.1) (Nat.not_le.mpr hw)
    rw [exec_lpDoorbell hl, doorbell_of_not_accepts hno]

end Sys2Proof.Proofs

/-! ### O10: the reset of a leaf port -/

namespace Sys2Proof.Proofs
open Sys2Proof.Machine

/-! ARMs on their way up (R298, R318): all that a leaf port's sending one leaves. -/

/-- `t` is `s` but for ARMs in the cluster node above leaf port `l`. -/
def armsSent (l : Nat) (s t : State) : Prop := t = { s with ctls := t.ctls } ∧ ∀ k, k ≠ leafCtl l → t.ctlNode k = s.ctlNode k

theorem armsSent.refl (l : Nat) (s : State) : armsSent l s s := ⟨rfl, fun _ _ => rfl⟩

theorem armsSent.trans {l : Nat} {s t u : State} (h : armsSent l s t) (k : armsSent l t u) : armsSent l s u := by
  obtain ⟨hst, hctl⟩ := h
  obtain ⟨htu, kctl⟩ := k
  exact ⟨by rw [htu, hst], fun j hj => (kctl j hj).trans (hctl j hj)⟩

theorem armsSent.leaf {l : Nat} {s t : State} (h : armsSent l s t) (k : Nat) : t.leaf k = s.leaf k := by
  rw [h.1]
  rfl

theorem sendUp_of_working {l : Nat} {s : State} (h : (s.leaf l).failed = false) (a : Arm) : s.sendUp l a
    = s.setCtl (leafCtl l) { s.ctlNode (leafCtl l) with inq := (s.ctlNode (leafCtl l)).inq ++ [(inputOf (leafQ l) l, a)] } :=
  if_neg (by rw [h]; nofun)

theorem armsSent_sendUp (l : Nat) (s : State) (a : Arm) : armsSent l s (s.sendUp l a) := by
  cases hf : (s.leaf l).failed with
  | true => rw [State.sendUp, if_pos hf]; exact .refl l s
  | false => rw [sendUp_of_working hf]; exact ⟨rfl, fun k hk => ctl_setCtl_ne s _ hk⟩

/-! The start of a reset (R252, R291). -/

/-- A leaf port that has just begun its reset: nothing of it runs but the pass that ran and what it has armed, and each firing not
armed waits for the end that its aborting ARM brings. -/
def resetting (p : LeafPort) : LeafPort :=
  { p with resetBusy := true, enable := false, held := []
           taken := (keepFirstPass false p.taken).map (fun t => if t.phase == .taken then { t with phase := .waiting } else t) }

section
variable {l : Nat} {v : Word} {s : State}

theorem execLpReset_idle (hl : s.leafLive l = false) : execLpReset l v s = .next s := by
  simp [execLpReset, hl]

theorem exec_lpReset_resets (hl : s.leafLive l = true) (hr : bitOf v.toNat 1 = true) : exec (.lpReset l v) s = .next (s.leafReset l) := by
  rw [show exec (.lpReset l v) s = execLpReset l v s from rfl]
  simp [execLpReset, State.lpCtrlWrite, hl, hr]

theorem leafReset_of_busy (h : (s.leaf l).resetBusy = true) : s.leafReset l = s := if_pos h

/-- A reset that begins changes its leaf port, and sends ARMs up from there. -/
theorem leafReset_begins (h : (s.leaf l).resetBusy = false) : armsSent l (s.setLeaf l (resetting (s.leaf l))) (s.leafReset l) := by
  rw [State.leafReset, if_neg (by rw [h]; nofun)]
  exact .trans (foldl_rel (armsSent.refl l) armsSent.trans (fun a x => armsSent_sendUp l a _) _ _) (armsSent_sendUp l _ _)

end

/-! What writing a record changes (R264 to R269), and what a reset's end keeps (R291). -/

theorem beforeRecord_frame (p : LeafPort) (t : Taken) : p.beforeRecord t = { p with scratch := (p.beforeRecord t).scratch } := by
  unfold LeafPort.beforeRecord
  cases t.ended with
  | none => cases t.probe <;> rfl
  | some e =>
    dsimp only
    generalize (t.phase != .pass && t.desc.segCount != 0 && t.statusPlaced) = placed
    cases placed <;> cases t.probe <;> rfl

/-- The interrupt causes that record `r` sets at leaf port `q` (R288). -/
def recordReported (q : LeafPort) (r : Record) : LeafPort :=
  let q := if q.cqThresh.toNat + 1 ≤ q.unconsumed then q.raise ibCq else q
  if r.status != stOk then q.raise ibErrRecord else q

theorem recordReported_eq (q : LeafPort) (r : Record) : ∃ w, recordReported q r = { q with intStatus := w }
    ∧ (r.status ≠ stOk → bitOf w.toNat ibErrRecord = true) := by
  unfold recordReported
  dsimp only
  split
  case isTrue => split <;> exact ⟨_, rfl, fun _ => bitOf_setBit _ (by decide)⟩
  case isFalse hok =>
    have hno : ¬ r.status ≠ stOk := fun h => hok (bne_iff_ne.mpr h)
    split <;> exact ⟨_, rfl, fun h => absurd h hno⟩

/-- Leaf port `q` once the queue's tail, the descriptors still taken and the ring's head and retired slots are as a record leaves them. -/
def queueMoved (q : LeafPort) (tail : BitVec 16) (ts : List Taken) (h : BitVec 16 × List (BitVec 16)) : LeafPort :=
  { q with cqTail := tail, cqFull := false, taken := ts, ringHead := h.1, retired := h.2 }

theorem queueMoved_reported {p q : LeafPort} {m : Table Byte} (hq : q = { p with scratch := m }) (tail : BitVec 16) (ts : List Taken)
    (h : BitVec 16 × List (BitVec 16)) (t : Taken) (r : Record) : ∃ b w,
      recordReported ((queueMoved q tail ts h).untag t r.status) r = { p with
        scratch := m, cqTail := tail, cqFull := false, taken := ts, ringHead := h.1, retired := h.2, bisque := b, intStatus := w }
      ∧ (r.status ≠ stOk → bitOf w.toNat ibErrRecord = true) := by
  subst hq
  obtain ⟨w, hw, herr⟩ := recordReported_eq ((queueMoved { p with scratch := m } tail ts h).untag t r.status) r
  exact ⟨_, w, hw, herr⟩

/-- What writing record `r` of `t` changes: the record goes where R265 says, after what precedes it; the queue and the ring move on, the
accumulators lose the tags of `t`, and the interrupt causes are set. The new values have names, so that no use of the equation compares
the counters behind them. -/
theorem writeRecord_eq (p : LeafPort) (t : Taken) (r : Record) : ∃ m tail ts head retired b w, p.writeRecord t r = { p with
      scratch := m, cqTail := tail, cqFull := false, taken := ts, ringHead := head, retired := retired, bisque := b, intStatus := w }
    ∧ m = tsetRun 0 (p.beforeRecord t).scratch (p.cqBase.toNat + 32 * (p.cqTail.toNat % p.e)) r.bytes
    ∧ tail = p.cqTail + 1 ∧ ts = p.taken.filter (fun y => y.cnt != t.cnt)
    ∧ (r.status ≠ stOk → bitOf w.toNat ibErrRecord = true) := by
  obtain ⟨q, hq⟩ : ∃ q, q = (p.beforeRecord t).store (p.cqBase.toNat + 32 * (p.cqTail.toNat % p.e)) r.bytes := ⟨_, rfl⟩
  have hframe : q = { p with
      scratch := tsetRun 0 (p.beforeRecord t).scratch (p.cqBase.toNat + 32 * (p.cqTail.toNat % p.e)) r.bytes } := by
    rw [hq, LeafPort.store, beforeRecord_frame p t]
  obtain ⟨b, w, hw, herr⟩ := queueMoved_reported hframe (q.cqTail + 1) (q.taken.filter (fun y => y.cnt != t.cnt))
    (retireFrom 256 p.ringHead (p.retired ++ [t.cnt])) t r
  have hrecord : p.writeRecord t r = recordReported ((queueMoved q (q.cqTail + 1) (q.taken.filter (fun y => y.cnt != t.cnt))
      (retireFrom 256 p.ringHead (p.retired ++ [t.cnt]))).untag t r.status) r := by
    rw [hq]
    rfl
  exact ⟨_, q.cqTail + 1, q.taken.filter (fun y => y.cnt != t.cnt), _, _, b, w, hrecord.trans hw, rfl, by rw [hframe],
    by rw [hframe], herr⟩

theorem flushOne_rank (p : LeafPort) (t : Taken) : (p.flushOne t).rank = p.rank := by
  unfold LeafPort.flushOne
  split
  · split
    · obtain ⟨m, tail, ts, head, retired, b, w, hw, -⟩ := writeRecord_eq p t _
      rw [hw]
    · rfl
  · rfl

theorem foldl_flushOne_rank (ts : List Taken) : ∀ p : LeafPort, (ts.foldl LeafPort.flushOne p).rank = p.rank := by
  induction ts with
  | nil => exact fun _ => rfl
  | cons t ts ih => exact fun p => (ih (p.flushOne t)).trans (flushOne_rank p t)

section
variable {l : Nat} {s : State}

theorem exec_lpResetDone (l : Nat) (s : State) : exec (.lpResetDone l) s = execLpResetDone l s := rfl

theorem execLpResetDone_ends (hr : (s.leaf l).resetBusy = true) (he : (s.leaf l).allEnded = true)
    (hw : ∀ x ∈ (s.leaf l).taken, x.writes = [] ∧ s.allTaken l x = true) :
    execLpResetDone l s = .next (s.setLeaf l ((s.leaf l).taken.foldl LeafPort.flushOne (s.leaf l)).afterReset) := by
  have hdone : (s.leaf l).taken.all (fun t => t.writes.isEmpty && s.allTaken l t) = true := by
    simpa using hw
  simp [execLpResetDone, hr, he, hdone]

theorem execLpResetDone_waits (h : (s.leaf l).resetBusy = false ∨ (s.leaf l).allEnded = false
    ∨ ∃ x ∈ (s.leaf l).taken, x.writes ≠ [] ∨ s.allTaken l x = false) : execLpResetDone l s = .next s := by
  rcases h with h | h | ⟨x, hx, h⟩
  · simp [execLpResetDone, h]
  · simp [execLpResetDone, h]
  · have hnot : (s.leaf l).taken.all (fun t => t.writes.isEmpty && s.allTaken l t) = false := by
      rw [List.all_eq_false]
      exact ⟨x, hx, by rcases h with h | h <;> simp [h]⟩
    simp [execLpResetDone, hnot]

end

/-- Settles O10: a reset by what beginning one leaves at the leaf port and above it, its end by what is taken and what is kept. -/
theorem leafReset : Obligations.LeafReset := by
  unfold Obligations.LeafReset
  refine ⟨fun l v s hl hr => ?reset, fun l v s => execLpReset_idle, fun l s => ?done⟩
  case reset =>
    rw [exec_lpReset_resets hl hr]
    refine ⟨fun hb => by rw [leafReset_of_busy hb], fun hs hb => ?_⟩
    have hsent := leafReset_begins hb
    have hleaf : (s.leafReset l).leaf l = resetting (s.leaf l) := (hsent.leaf l).trans (leaf_setLeaf hs.leaves l _)
    refine ⟨_, rfl, ?_, ?_, ?_, ?_, ?_, ?_, fun k hk => (hsent.leaf k).trans (leaf_setLeaf_ne s _ hk), hsent.2⟩
    iterate 5 rw [hleaf]; rfl
    rw [hsent.1]
    rfl
  case done =>
    rw [exec_lpResetDone]
    refine ⟨fun hr he hw => ⟨_, execLpResetDone_ends hr he hw, ?_⟩, execLpResetDone_waits⟩
    refine ⟨rfl, rfl, rfl, rfl, rfl, rfl, rfl, rfl, rfl, rfl, rfl, rfl, rfl, rfl, rfl, rfl, rfl, rfl, rfl, rfl, rfl, rfl,
      foldl_flushOne_rank .., fun hnil => ?_⟩
    rw [hnil]
    rfl

end Sys2Proof.Proofs

/-! ### O17: arming -/

namespace Sys2Proof.Proofs
open Sys2Proof.Machine

section
variable {l : Nat} {x : Taken} {s : State}

theorem exec_sendArm (l : Nat) (s : State) : exec (.sendArm l) s = execSendArm l s := rfl

/-- The oldest firing that a leaf port has taken and not armed. -/
def toArm (p : LeafPort) : Option Taken := p.taken.find? (fun t => t.phase == .taken && t.ended.isNone)

/-- What an ARM of firing `x` still waits for: the probe of a ragged tail (R244), in paced operation the first chunks (R343). -/
def armWaits (s : State) (l : Nat) (x : Taken) : Prop :=
  (x.desc.ragTail = true ∧ x.invalid = none ∧ x.probe = none) ∨ (s.paceActive = true ∧ x.stagedFor (s.leaf l).chunk = false)

theorem armWaits_iff : armWaits s l x ↔ ((x.desc.ragTail && x.invalid.isNone && x.probe.isNone)
    || (s.paceActive && !x.stagedFor (s.leaf l).chunk)) = true := by
  simp [armWaits, and_assoc]

theorem execSendArm_idle (h : (s.leaf l).failed = true ∨ toArm (s.leaf l) = none) : execSendArm l s = .next s := by
  rw [toArm] at h
  rcases h with h | h <;> simp [execSendArm, h]

variable (hf : (s.leaf l).failed = false) (hx : toArm (s.leaf l) = some x)
include hf hx

/-- A leaf port without a rank ends the firing before any grant (R263, R404). -/
theorem execSendArm_without_rank (hr : (s.leaf l).rank = 0xFFFF) : execSendArm l s
    = .next (s.setLeaf l ((s.leaf l).modTaken x.cnt (fun y => { y with ended := some {
        ts := s.time, group := BitVec.ofNat 20 x.desc.group, code := clLeafDisabled, status := stFault, noGrant := true } }))) := by
  rw [toArm] at hx
  simp [execSendArm, hf, hx, hr]

variable (hr : (s.leaf l).rank ≠ 0xFFFF)
include hr

theorem execSendArm_waits (hw : armWaits s l x) : execSendArm l s = .next s := by
  rw [toArm] at hx
  simp only [execSendArm, hf, hx, hr, armWaits_iff.mp hw, Bool.false_eq_true, if_true, if_false]

theorem execSendArm_arms (hw : ¬ armWaits s l x) : execSendArm l s
    = .next ((s.setLeaf l ((s.leaf l).modTaken x.cnt (fun y => { y with phase := .waiting }))).sendUp l (armOf l (s.leaf l) x)) := by
  rw [toArm] at hx
  simp only [execSendArm, hf, hx, hr, mt armWaits_iff.mpr hw, Bool.false_eq_true, if_false]

end

/-- Settles O17: by what the leaf port finds to arm, whether it has a rank and what the ARM still waits for. -/
theorem sendArm : Obligations.SendArm := by
  unfold Obligations.SendArm
  refine ⟨fun l s => execSendArm_idle, fun l x s hs hf hx => ?_⟩
  rw [exec_sendArm]
  refine ⟨fun hr hprobe hstaged => ?arms, fun hr hw => execSendArm_waits hf hx hr hw,
    fun hr => ⟨_, execSendArm_without_rank hf hx hr, rfl, rfl, rfl, rfl⟩⟩
  case arms =>
    have hready : ¬ armWaits s l x := by
      rintro (⟨htail, hvalid, hnone⟩ | ⟨hpace, hunstaged⟩)
      · exact hprobe htail hvalid hnone
      · exact absurd (hstaged hpace) (by rw [hunstaged]; nofun)
    have hport := leaf_setLeaf hs.leaves l ((s.leaf l).modTaken x.cnt (fun y => { y with phase := .waiting }))
    rw [execSendArm_arms hf hx hr hready, sendUp_of_working (by rw [hport]; exact hf)]
    exact ⟨_, rfl, rfl, hport, fun k hk => leaf_setLeaf_ne s _ hk, ctl_setCtl hs.ctls _ _, fun k hk => ctl_setCtl_ne _ _ hk⟩

end Sys2Proof.Proofs

/-! ### O26: a GRANT at a leaf port -/

namespace Sys2Proof.Proofs
open Sys2Proof.Machine

section
variable {l : Nat} {s : State}

theorem exec_grantReceive (l : Nat) (s : State) : exec (.grantReceive l) s = execGrantReceive l s := rfl

theorem exec_redealGrantReceive (l : Nat) (s : State) : exec (.redealGrantReceive l) s = execRedealGrantReceive l s := rfl

section
variable (h : (s.leaf l).failed = true ∨ ∀ g d ms, (s.leaf l).inbox ≠ .grant g d :: ms)
include h

theorem execGrantReceive_idle : execGrantReceive l s = .next s := by
  unfold execGrantReceive
  dsimp only
  split
  · next hi => rw [if_pos (h.resolve_right (fun hno => hno _ _ _ hi))]
  · rfl

theorem execRedealGrantReceive_idle : execRedealGrantReceive l s = .next s := by
  unfold execRedealGrantReceive
  dsimp only
  split
  · next hi => rw [h.resolve_right (fun hno => hno _ _ _ hi), Bool.true_or, if_pos rfl]
  · rfl

end

/-- The firing at a leaf port that waits longest for the GRANT `g` (R301). -/
def waitingFor (p : LeafPort) (g : GrantMsg) : Option Taken :=
  p.taken.find? (fun t => t.phase == .waiting && t.ended.isNone && t.desc.group == g.group.toNat)

section
variable {p : LeafPort} {g : GrantMsg} {w : Who} {x : Taken}

theorem takeGrant_starts (hr : p.runningOf g = none) (hx : waitingFor p g = some x) :
    p.takeGrant g w = p.modTaken x.cnt (fun t => t.granted g w) := by
  rw [waitingFor] at hx
  simp only [LeafPort.takeGrant, hr, hx]

theorem takeGrant_of_no_match (hr : p.runningOf g = none) (hx : waitingFor p g = none) : p.takeGrant g w = p := by
  rw [waitingFor] at hx
  simp only [LeafPort.takeGrant, hr, hx]

theorem takeGrant_replays (hr : p.runningOf g = some x) (ha : x.attempt.toNat < g.attempt.toNat) :
    p.takeGrant g w = p.modTaken x.cnt (fun t => t.replayed p.chunk g) := by
  simp only [LeafPort.takeGrant, hr, if_pos ha]

theorem takeGrant_redeals (hr : p.runningOf g = some x) (ha : ¬ x.attempt.toNat < g.attempt.toNat) :
    p.takeGrant g w = p.modTaken x.cnt (fun t => t.redealt p.chunk g) := by
  simp only [LeafPort.takeGrant, hr, if_neg ha]

end

variable {g : GrantMsg} {d : List Nat} {ms : List CtlMsg} (hi : (s.leaf l).inbox = .grant g d :: ms)
include hi

theorem execGrantReceive_takes (hf : (s.leaf l).failed = false) {q : LeafPort}
    (hq : ({ s.leaf l with inbox := ms } : LeafPort).takeGrant g (s.whoIn l g) = q) : execGrantReceive l s = .next (s.setLeaf l q) := by
  subst hq
  simp only [execGrantReceive, hi]
  exact if_neg (ne_true_of_eq_false hf)

/-- A GRANT that is no redeal of a running firing is not taken by this row (R392). -/
theorem execRedealGrantReceive_not_redeal (h : ∀ x, (s.leaf l).runningOf g = some x → x.attempt ≠ g.attempt) :
    execRedealGrantReceive l s = .next s := by
  have hno : (s.leaf l).isRedeal g = false := by
    unfold LeafPort.isRedeal
    split
    · next hx => simpa using h _ hx
    · rfl
  simp only [execRedealGrantReceive, hi, hno, Bool.not_false, Bool.or_true, if_true]

theorem execRedealGrantReceive_takes (hf : (s.leaf l).failed = false) {x : Taken} (hx : (s.leaf l).runningOf g = some x)
    (ha : x.attempt = g.attempt) {q : LeafPort} (hq : ({ s.leaf l with inbox := ms } : LeafPort).takeGrant g (s.whoIn l g) = q) :
    execRedealGrantReceive l s = .next (s.setLeaf l q) := by
  have hyes : (s.leaf l).isRedeal g = true := by simp [LeafPort.isRedeal, hx, ha]
  subst hq
  simp only [execRedealGrantReceive, hi, hyes]
  exact if_neg (by rw [hf]; nofun)

end

/-- A redeal stages no chunk: it lets go of those that its stripes need again (R280). -/
theorem mem_chunks_of_mem_redealt {y : Taken} {c : Nat} {g : GrantMsg} {k : Chunk} (h : k ∈ (y.redealt c g).chunks) : k ∈ y.chunks :=
  (List.mem_filter.mp h).1

/-- Settles O26: the rows by what they find at the head of the inbox, then by what the GRANT matches at the leaf port. -/
theorem grantReceive : Obligations.GrantReceive := by
  unfold Obligations.GrantReceive
  refine ⟨fun l s h => ⟨execGrantReceive_idle h, execRedealGrantReceive_idle h⟩, fun l g d ms s hi hf => ?_⟩
  rw [exec_grantReceive, exec_redealGrantReceive]
  refine ⟨fun x hr hx => execGrantReceive_takes hi hf (takeGrant_starts hr hx),
    fun hr hx => execGrantReceive_takes hi hf (takeGrant_of_no_match hr hx), execRedealGrantReceive_not_redeal hi,
    fun x hr => ⟨fun ha => ⟨execGrantReceive_takes hi hf (takeGrant_replays hr ha), fun y c => ⟨rfl, rfl, rfl, rfl, rfl, rfl⟩⟩,
      fun ha => execGrantReceive_takes hi hf (takeGrant_redeals hr ha), fun ha => ⟨?redeals, fun y c => ?kept⟩⟩⟩
  case redeals => exact execRedealGrantReceive_takes hi hf hr ha (takeGrant_redeals hr (by rw [ha]; exact Nat.lt_irrefl _))
  case kept => exact ⟨rfl, rfl, rfl, rfl, fun k => mem_chunks_of_mem_redealt⟩

end Sys2Proof.Proofs

/-! ### O34: writing a completion record -/

namespace Sys2Proof.Proofs
open Sys2Proof.Machine

/-! A record that cannot be written (R283, R402). -/

section
variable (p : LeafPort) (cls : BitVec 8) (slot addr fn : Nat) (ts : Quad)

theorem stop_scratch : (p.stop cls slot addr fn ts).scratch = p.scratch := by
  unfold LeafPort.stop LeafPort.fail
  split <;> rfl

theorem stop_cqTail : (p.stop cls slot addr fn ts).cqTail = p.cqTail := by
  unfold LeafPort.stop LeafPort.fail
  split <;> rfl

end

theorem recordFails_stops {p : LeafPort} (h : p.failed = false) (t : Taken) (ts : Quad) : (p.recordFails t ts).failed = true
    ∧ (p.recordFails t ts).enable = false ∧ bitOf (p.recordFails t ts).intStatus.toNat ibErrRecord = true := by
  unfold LeafPort.recordFails
  rw [stop_of_working h]
  exact ⟨rfl, rfl, bitOf_setBit _ (by decide)⟩

theorem recordFails_unwritten (p : LeafPort) (t : Taken) (ts : Quad) :
    (p.recordFails t ts).unwritten = p.unwritten + if t.recLost = true then 0 else 1 := by
  cases h : t.recLost <;> simp [LeafPort.recordFails, LeafPort.modTaken, b2n, h]

section
variable {l slot : Nat} {s : State}

theorem exec_completionRecordWrite (l slot : Nat) (w : RecordWrite) (s : State) :
    exec (.completionRecordWrite l slot w) s = execCompletionRecordWrite l slot w s := rfl

theorem execCompletionRecordWrite_idle (w : RecordWrite) (h : ∀ x, (s.leaf l).inSlot slot = some x →
    (s.leaf l).record x = none ∨ (s.leaf l).recordDue x = false ∨ s.allTaken l x = false) :
    execCompletionRecordWrite l slot w s = .next s := by
  cases hx : (s.leaf l).inSlot slot with
  | none => simp [execCompletionRecordWrite, hx]
  | some x =>
    cases hr : (s.leaf l).record x with
    | none => simp [execCompletionRecordWrite, hx, hr]
    | some r =>
      have hnot : (!(s.leaf l).recordDue x || !s.allTaken l x) = true := by
        simpa [hr] using h x hx
      simp only [execCompletionRecordWrite, hx, hr, hnot, if_true]

variable {x : Taken} {r : Record} (hx : (s.leaf l).inSlot slot = some x) (hr : (s.leaf l).record x = some r)
  (hd : (s.leaf l).recordDue x = true) (ha : s.allTaken l x = true)
include hx hr hd ha

theorem execCompletionRecordWrite_full (hfull : (s.leaf l).e ≤ (s.leaf l).unconsumed) (w : RecordWrite) :
    execCompletionRecordWrite l slot w s = .next (s.setLeaf l { s.leaf l with cqFull := true }) := by
  simp [execCompletionRecordWrite, hx, hr, hd, ha, hfull]

variable (hroom : (s.leaf l).unconsumed < (s.leaf l).e)
include hroom

theorem execCompletionRecordWrite_fails (bad : List Nat) :
    execCompletionRecordWrite l slot ⟨false, bad⟩ s = .next (s.setLeaf l ((s.leaf l).recordFails x s.time)) := by
  simp [execCompletionRecordWrite, hx, hr, hd, ha, Nat.not_le.mpr hroom]

theorem execCompletionRecordWrite_writes {bad : List Nat} (hbad : x.failedStatus (s.leaf l).chunk bad = []) :
    execCompletionRecordWrite l slot ⟨true, bad⟩ s = .next (s.setLeaf l ((s.leaf l).writeRecord x r)) := by
  simp [execCompletionRecordWrite, hx, hr, hd, ha, Nat.not_le.mpr hroom, hbad]

theorem execCompletionRecordWrite_faults {bad : List Nat} (hbad : x.failedStatus (s.leaf l).chunk bad ≠ []) :
    execCompletionRecordWrite l slot ⟨true, bad⟩ s = .next (s.writeFaulted l x (x.failedStatus (s.leaf l).chunk bad)) := by
  simp [execCompletionRecordWrite, hx, hr, hd, ha, Nat.not_le.mpr hroom, hbad]

end

/-- Settles O34: by what the row finds, then by room in the queue and by which of the writes failed. -/
theorem completionRecord : Obligations.CompletionRecord := by
  unfold Obligations.CompletionRecord
  refine ⟨fun l slot ok bad s => execCompletionRecordWrite_idle ⟨ok, bad⟩, fun l slot x r s hx hr hd ha =>
    ⟨fun hroom => ⟨fun bad hbad => ?written, fun bad => execCompletionRecordWrite_faults hx hr hd ha hroom, fun bad => ?failed⟩,
      fun hfull ok bad => execCompletionRecordWrite_full hx hr hd ha hfull ⟨ok, bad⟩⟩⟩
  case written =>
    obtain ⟨m, tail, ts, head, retired, b, w, hw, hm, htail, hts, herr⟩ := writeRecord_eq (s.leaf l) x r
    have hwrites := execCompletionRecordWrite_writes hx hr hd ha hroom hbad
    rw [hw] at hwrites
    exact ⟨_, hwrites, htail, rfl, hts, hm, herr, rfl, rfl⟩
  case failed =>
    exact ⟨_, execCompletionRecordWrite_fails hx hr hd ha hroom bad, fun hf => recordFails_stops hf x s.time,
      recordFails_unwritten .., stop_scratch (ts := s.time) .., stop_cqTail (ts := s.time) ..⟩

end Sys2Proof.Proofs

/-! ### O19: reading and writing chunks -/

namespace Sys2Proof.Proofs
open Sys2Proof.Machine

/-! A chunk fault (R282, R283, R285): what it counts, and what it leaves. -/

section
variable (p : LeafPort) (t : Taken) (cls : BitVec 8) (addr ix : Nat)

@[simp] theorem chunkFault_chunkFaults : (p.chunkFault t cls addr ix).chunkFaults = satInc p.chunkFaults := rfl
@[simp] theorem chunkFault_flogCount : (p.chunkFault t cls addr ix).flogCount = satInc p.flogCount := rfl
@[simp] theorem chunkFault_intStatus : (p.chunkFault t cls addr ix).intStatus = setBit p.intStatus ibChunkFault := rfl
@[simp] theorem chunkFault_scratch : (p.chunkFault t cls addr ix).scratch = p.scratch := rfl
@[simp] theorem chunkFault_bisque : (p.chunkFault t cls addr ix).bisque = p.bisque := rfl

end

section
variable (p : LeafPort) (cnt : BitVec 16) (f : Taken → Taken)

@[simp] theorem modTaken_chunkFaults : (p.modTaken cnt f).chunkFaults = p.chunkFaults := rfl
@[simp] theorem modTaken_flogCount : (p.modTaken cnt f).flogCount = p.flogCount := rfl
@[simp] theorem modTaken_intStatus : (p.modTaken cnt f).intStatus = p.intStatus := rfl
@[simp] theorem modTaken_scratch : (p.modTaken cnt f).scratch = p.scratch := rfl
@[simp] theorem modTaken_bisque : (p.modTaken cnt f).bisque = p.bisque := rfl

end

section
variable {l slot ix first : Nat} {area : Area} {rg : Range} {x : Taken} {s : State}

theorem exec_chunkReadDone (l slot : Nat) (area : Area) (ix : Nat) (r : ReadResult) (s : State) :
    exec (.chunkReadDone l slot area ix r) s = execChunkReadDone l slot area ix r s := rfl

/-- A firing that has a ragged tail has been probed (R244). -/
theorem tail_measured (h : x.desc.ragTail = true → x.probe ≠ none) : (x.desc.ragTail && x.probe.isNone) = false := by
  simpa [Option.isSome_iff_ne_none] using h

section
variable (hx : (s.leaf l).inSlot slot = some x) (ha : x.areaOf (s.leaf l).chunk ix = some (first, rg))
include hx ha

theorem execChunkReadDone_idle
    (h : x.mayRead (s.leaf l).chunk ix first rg = false ∨ x.phase = .pass ∨ x.ended ≠ none ∨ x.invalid ≠ none) (r : ReadResult) :
    execChunkReadDone l slot area ix r s = .next s := by
  rcases h with h | h | h | h
  · simp [execChunkReadDone, hx, ha, h]
  · simp [execChunkReadDone, hx, ha, h]
  · simp [execChunkReadDone, hx, ha, Option.isSome_iff_ne_none.mpr h]
  · simp [execChunkReadDone, hx, ha, Option.isSome_iff_ne_none.mpr h]

variable (hin : rg.input = true) (hrg : rg.area = area) (hp : x.phase ≠ .pass) (he : x.ended = none) (hv : x.invalid = none)
  (hprobe : x.desc.ragTail = true → x.probe ≠ none) (hmay : x.mayRead (s.leaf l).chunk ix first rg = true)
  (hland : x.tilesLanded rg (chunkSpan (s.leaf l).chunk ix first rg).1 (chunkSpan (s.leaf l).chunk ix first rg).2 = true)
include hin hrg hp he hv hprobe hmay hland

theorem execChunkReadDone_stages (bs : List Byte) : execChunkReadDone l slot area ix (.ok bs) s
    = .next (s.setLeaf l ((s.leaf l).modTaken x.cnt (fun y => { y with chunks := y.chunks ++ [{
        area := area, ix := ix
        data := some ((s.leaf l).chunkBytes x area (chunkSpan (s.leaf l).chunk ix first rg).1
          (chunkSpan (s.leaf l).chunk ix first rg).2 bs) }] }))) := by
  simp [execChunkReadDone, hx, ha, hin, hrg, hp, he, hv, tail_measured hprobe, hmay, hland]

theorem execChunkReadDone_faults (k : IoClass) : execChunkReadDone l slot area ix (.bad k) s
    = .next (s.setLeaf l (((s.leaf l).chunkFault x (readClass k) (chunkSpan (s.leaf l).chunk ix first rg).1 ix).modTaken x.cnt
        (fun y => { y with chunks := y.chunks ++ [{ area := area, ix := ix, data := none }] }))) := by
  simp [execChunkReadDone, hx, ha, hin, hrg, hp, he, hv, tail_measured hprobe, hmay, hland]

end

/-- Chunks of an area are read in ascending order, each once, and only those that something still to be sent is made of (R271). -/
theorem mayRead_in_order {c : Nat} (h : x.mayRead c ix first rg = true) :
    x.hasChunk ix = false ∧ ∀ j, first ≤ j → j < ix → x.hasChunk j = true ∨ x.wanted c j first rg = false := by
  simp only [Taken.mayRead, Bool.and_eq_true, Bool.not_eq_true', List.all_eq_true, Bool.or_eq_true] at h
  obtain ⟨⟨⟨hnew, -⟩, hearlier⟩, -⟩ := h
  refine ⟨hnew, fun j hlo hhi => hearlier j (List.mem_map.mpr ⟨j - first, List.mem_range.mpr ?_, ?_⟩)⟩ <;> omega

end

/-! Result bytes on their way to scratchpad (R269, R283). -/

/-- Whether a result byte goes into the `n` bytes of scratchpad from `a` on. -/
def goesInto (a n : Nat) (w : Nat × Byte) : Bool := decide (a ≤ w.1) && decide (w.1 < a + n)

theorem goesInto_iff {a n : Nat} {w : Nat × Byte} : goesInto a n w = true ↔ a ≤ w.1 ∧ w.1 < a + n := by
  simp [goesInto]

/-- Writing scattered bytes leaves every byte that is none of theirs. -/
theorem byteAt_storeAll_out {a : Nat} : ∀ {ws : List (Nat × Byte)} (p : LeafPort), (∀ w ∈ ws, a ≠ w.1) →
    (p.storeAll ws).byteAt a = p.byteAt a
  | [], _, _ => rfl
  | w :: ws, p, h => by
    have hrest := byteAt_storeAll_out (ws := ws) (p.storeAll [w]) (fun v hv => h v (List.mem_cons_of_mem _ hv))
    exact hrest.trans (tget_tset_ne _ _ _ (h w List.mem_cons_self))

/-- Writing bytes from `a` on leaves every byte outside them. -/
theorem byteAt_store_out {p : LeafPort} {a k : Nat} {bs : List Byte} (h : ¬ (a ≤ k ∧ k < a + bs.length)) :
    (p.store a bs).byteAt k = p.byteAt k :=
  tget_tsetRun_out (by omega)

theorem length_openBytes (tick n : Nat) : (openBytes tick n).length = n := by simp [openBytes]

/-- The fault event of a failed result chunk touches the kiln's list of such firings and the records (R419). -/
theorem writeFaultEvent_records (s : State) (l : Nat) (t : Taken) : ∃ k, faultsOnly { s with kiln := k } (s.writeFaultEvent l t) := by
  unfold State.writeFaultEvent
  split
  · exact ⟨s.kiln, .refl s⟩
  · exact ⟨_, faultsOnly_fault _ _ _⟩

theorem writeFaultEvent_frame (s : State) (l : Nat) (t : Taken) : s.writeFaultEvent l t = { s with
    kiln := (s.writeFaultEvent l t).kiln, faultLog := (s.writeFaultEvent l t).faultLog, ports := (s.writeFaultEvent l t).ports
    smb := (s.writeFaultEvent l t).smb, trace := (s.writeFaultEvent l t).trace, counters := (s.writeFaultEvent l t).counters } := by
  obtain ⟨k, hk⟩ := writeFaultEvent_records s l t
  have hkiln : (s.writeFaultEvent l t).kiln = k := congrArg State.kiln hk.eq
  rw [hkiln]
  exact hk.eq

@[simp] theorem writeFaultEvent_leaf (s : State) (l : Nat) (t : Taken) (k : Nat) : (s.writeFaultEvent l t).leaf k = s.leaf k := by
  rw [writeFaultEvent_frame]
  rfl

section
variable {l slot ix first : Nat} {rg : Range} {x : Taken} {s : State}

theorem exec_chunkWriteDone (l slot ix : Nat) (ok : Bool) (s : State) :
    exec (.chunkWriteDone l slot ix ok) s = execChunkWriteDone l slot ix ok s := rfl

/-- Leaf port `p` once no result byte of firing `x` for the `n` bytes from `a` on is on its way any more. -/
def writesDone (p : LeafPort) (x : Taken) (a n : Nat) : LeafPort :=
  p.modTaken x.cnt (fun y => { y with writes := y.writes.filter (fun w => !goesInto a n w) })

/-- The state in which the write of a chunk has failed: its bytes are undefined, the fault is recorded, before the kiln hears of it. -/
def chunkLost (s : State) (l ix : Nat) (x : Taken) (a n : Nat) : State :=
  (s.setLeaf l (((writesDone (s.leaf l) x a n).store a (openBytes s.tick n)).chunkFault x clWriteAddr a ix)).tock

variable (hx : (s.leaf l).inSlot slot = some x) (ha : x.areaOf (s.leaf l).chunk ix = some (first, rg)) {a n : Nat}
  (hs : chunkSpan (s.leaf l).chunk ix first rg = (a, n))
include hx ha hs

theorem execChunkWriteDone_idle (h : ∀ w ∈ x.writes, ¬ (a ≤ w.1 ∧ w.1 < a + n)) (ok : Bool) :
    execChunkWriteDone l slot ix ok s = .next s := by
  have hnone : x.writes.filter (goesInto a n) = [] :=
    List.filter_eq_nil_iff.mpr (fun w hw hin => h w hw (goesInto_iff.mp hin))
  unfold goesInto at hnone
  simp [execChunkWriteDone, hx, ha, hs, hnone]

variable (hp : x.phase ≠ .pass) (hin : rg.input = false) (hw : ∃ w ∈ x.writes, a ≤ w.1 ∧ w.1 < a + n) (hbad : ¬ ix ∈ x.badAt)
include hp hin hw hbad

theorem execChunkWriteDone_of_due (ok : Bool) : execChunkWriteDone l slot ix ok s
    = .next (if ok then s.setLeaf l (writesDone ((s.leaf l).storeAll (x.writes.filter (goesInto a n))) x a n)
        else (chunkLost s l ix x a n).writeFaultEvent l x) := by
  have hdue : (x.phase == .pass || rg.input || (x.writes.filter (goesInto a n)).isEmpty) = false := by
    obtain ⟨w, hmem, hspan⟩ := hw
    have hne : x.writes.filter (goesInto a n) ≠ [] := List.ne_nil_of_mem (List.mem_filter.mpr ⟨hmem, goesInto_iff.mpr hspan⟩)
    simp [hp, hin, hne]
  have hfine : x.badAt.contains ix = false := by simpa using hbad
  unfold goesInto at hdue
  simp only [execChunkWriteDone, hx, ha, hs, hdue, hfine, Bool.false_eq_true, if_false]
  cases ok <;> rfl

theorem execChunkWriteDone_lands : execChunkWriteDone l slot ix true s
    = .next (s.setLeaf l (writesDone ((s.leaf l).storeAll (x.writes.filter (goesInto a n))) x a n)) :=
  execChunkWriteDone_of_due hx ha hs hp hin hw hbad true

theorem execChunkWriteDone_fails : execChunkWriteDone l slot ix false s = .next ((chunkLost s l ix x a n).writeFaultEvent l x) :=
  execChunkWriteDone_of_due hx ha hs hp hin hw hbad false

end

/-- Result bytes that land change no byte of scratchpad outside their chunk. -/
theorem byteAt_landed_out (p : LeafPort) (x : Taken) {a n k : Nat} (h : ¬ (a ≤ k ∧ k < a + n)) :
    (writesDone (p.storeAll (x.writes.filter (goesInto a n))) x a n).byteAt k = p.byteAt k :=
  byteAt_storeAll_out p (fun w hw hk => h (by rw [hk]; exact goesInto_iff.mp (List.mem_filter.mp hw).2))

/-- A result byte that is alone on its way lands where it is for. -/
theorem byteAt_landed_single {p : LeafPort} (hp : tableWf 0 p.scratch = true) {x : Taken} {a n k : Nat} {b : Byte}
    (hx : x.writes = [(k, b)]) (hk : goesInto a n (k, b) = true) :
    (writesDone (p.storeAll (x.writes.filter (goesInto a n))) x a n).byteAt k = b := by
  rw [hx, List.filter_cons_of_pos hk]
  exact tget_tset_self hp k b

section
variable {l ix : Nat} {x : Taken} {a n : Nat} {s : State}

theorem leaf_chunkLost (hs : canonical s) : (chunkLost s l ix x a n).leaf l
    = ((writesDone (s.leaf l) x a n).store a (openBytes s.tick n)).chunkFault x clWriteAddr a ix := leaf_setLeaf hs.leaves l _

theorem leaf_chunkLost_ne {k : Nat} (hk : k ≠ l) : (chunkLost s l ix x a n).leaf k = s.leaf k := leaf_setLeaf_ne s _ hk

/-- A result chunk whose write failed leaves the bytes of scratchpad outside it. -/
theorem byteAt_chunkLost_out (hs : canonical s) {k : Nat} (h : ¬ (a ≤ k ∧ k < a + n)) :
    ((chunkLost s l ix x a n).leaf l).byteAt k = (s.leaf l).byteAt k := by
  rw [leaf_chunkLost hs, LeafPort.byteAt, chunkFault_scratch]
  exact byteAt_store_out (p := writesDone (s.leaf l) x a n) (by rwa [length_openBytes])

end

/-- Settles O19: a read by whether the chunk is due and what it returned, a write by whether bytes of the chunk are on their way and
whether it went through. -/
theorem chunks : Obligations.Chunks := by
  unfold Obligations.Chunks
  refine ⟨fun l slot ix first area rg x s hx ha hin hrg => ⟨fun hp he hv hprobe hmay hland => ⟨fun bs => ?staged, fun k => ?unread⟩,
      mayRead_in_order, execChunkReadDone_idle hx ha⟩,
    fun l slot ix first rg x s hx hp ha hin => ⟨fun hw hbad => ⟨?landed, fun hs => ?lost⟩, execChunkWriteDone_idle hx ha rfl⟩⟩
  case staged =>
    refine ⟨_, execChunkReadDone_stages hx ha hin hrg hp he hv hprobe hmay hland bs, rfl, rfl, ?_⟩
    simp [LeafPort.chunkBytes]
  case unread =>
    refine ⟨_, execChunkReadDone_faults hx ha hin hrg hp he hv hprobe hmay hland k, ?_⟩
    simp
  case landed =>
    refine ⟨_, execChunkWriteDone_lands hx ha rfl hp hin hw hbad, rfl, fun k => byteAt_landed_out (s.leaf l) x, fun k b hone hs => ?_⟩
    obtain ⟨w, hmem, hspan⟩ := hw
    obtain rfl : w = (k, b) := by simpa [hone] using hmem
    exact byteAt_landed_single (hs.leafBank l) hone (goesInto_iff.mpr hspan)
  case lost =>
    refine ⟨_, execChunkWriteDone_fails hx ha rfl hp hin hw hbad, ?_, ?_, ?_, fun k hk => ?_, fun k hk => ?_⟩
    · rw [writeFaultEvent_frame]
      rfl
    · rw [writeFaultEvent_leaf, leaf_chunkLost hs, chunkFault_chunkFaults]
      rfl
    · rw [writeFaultEvent_leaf, leaf_chunkLost hs, chunkFault_intStatus]
      exact bitOf_setBit _ (by decide)
    · rw [writeFaultEvent_leaf, leaf_chunkLost_ne hk]
    · rw [writeFaultEvent_leaf]
      exact byteAt_chunkLost_out hs hk

end Sys2Proof.Proofs

/-! ### O35: firing cones that run out -/

namespace Sys2Proof.Proofs
open Sys2Proof.Machine

section
variable {g seq : Nat} {s : State} {f : Firing}

theorem exec_firingConeExpiry (g seq : Nat) (s : State) : exec (.firingConeExpiry g seq) s = execFiringConeExpiry g seq s := rfl

/-- The firing that a cone's expiry names: the first of the group and sequence number whose end is not decided. -/
def coneFiring (s : State) (g seq : Nat) : Option Firing :=
  s.kiln.firings.find? (fun f => f.group == g && f.seq.toNat == seq && f.st != .ended && f.cause.isNone)

theorem execFiringConeExpiry_of_none (hf : coneFiring s g seq = none) : execFiringConeExpiry g seq s = .next s := by
  rw [coneFiring] at hf
  simp [execFiringConeExpiry, hf]

section
variable (hf : coneFiring s g seq = some f)
include hf

/-- Diagnostic mode, an absent reference (R337) and a cone that still runs keep the firing. -/
theorem execFiringConeExpiry_waits (h : f.service = false ∨ s.refLost = true ∨ hasCome f.coneEnd s.time = false) :
    execFiringConeExpiry g seq s = .next s := by
  rw [coneFiring] at hf
  rcases h with h | h | h <;> simp [execFiringConeExpiry, hf, h]

/-- At the cone's very end the arming that completes comes first (R315). -/
theorem execFiringConeExpiry_arms (hst : f.st = .arming) (ht : s.time = f.coneEnd) (hw : s.armsWaiting f = true) :
    execFiringConeExpiry g seq s = .next s := by
  rw [coneFiring] at hf
  simp [execFiringConeExpiry, hf, hst, ht, hw]

variable (hs : f.service = true) (hr : s.refLost = false) (hc : hasCome f.coneEnd s.time = true)
include hs hr hc

theorem execFiringConeExpiry_timeout (hst : f.st = .arming) (hw : s.time ≠ f.coneEnd ∨ s.armsWaiting f = false) :
    execFiringConeExpiry g seq s = .next
      (((s.modLeaf (f.leafOf (s.missingRank f)) (fun p => if s.missingRank f = 0xFFFF then p else { p with missing := satInc p.missing })).decideEnd
        f.uid stTimeout (s.missingRank f) 0).afterEnd g) := by
  have hwait : (s.time == f.coneEnd && s.armsWaiting f) = false := by
    rw [Bool.and_eq_false_iff, beq_eq_false_iff_ne]
    exact hw
  rw [coneFiring] at hf
  simp only [execFiringConeExpiry, hf, hs, hr, hc, hst, hwait, Bool.not_true, Bool.or_self, Bool.false_eq_true, if_false]

theorem execFiringConeExpiry_armed (hst : f.st = .armed) :
    execFiringConeExpiry g seq s = .next ((s.decideEnd f.uid stStall 0xFFFF 0).afterEnd g) := by
  rw [coneFiring] at hf
  simp [execFiringConeExpiry, hf, hs, hr, hc, hst]

theorem execFiringConeExpiry_granted (hst : f.st = .granted) :
    execFiringConeExpiry g seq s = .next ((s.decideEnd f.uid stStall (s.stalledRank f) 0).afterEnd g) := by
  rw [coneFiring] at hf
  simp [execFiringConeExpiry, hf, hs, hr, hc, hst]

end

end

/-- Settles O35: what keeps the firing, then by the state in which its cone has run out. -/
theorem firingCone : Obligations.FiringCone := by
  unfold Obligations.FiringCone
  rintro g seq r s rfl
  refine ⟨fun h => ?keeps, fun f hf hs hr hc => ⟨?timeout, ?armed, ?granted⟩⟩ <;> rw [exec_firingConeExpiry]
  case keeps =>
    cases hf : coneFiring s g seq with
    | none => exact execFiringConeExpiry_of_none hf
    | some f =>
      rcases h f hf with h | h | h | ⟨hst, ht, hw⟩
      · exact execFiringConeExpiry_waits hf (.inl h)
      · exact execFiringConeExpiry_waits hf (.inr (.inl h))
      · exact execFiringConeExpiry_waits hf (.inr (.inr h))
      · exact execFiringConeExpiry_arms hf hst ht hw
  case timeout => exact execFiringConeExpiry_timeout hf hs hr hc
  case armed => exact execFiringConeExpiry_armed hf hs hr hc
  case granted => exact execFiringConeExpiry_granted hf hs hr hc

end Sys2Proof.Proofs

/-! ### O32: the end of a firing -/

namespace Sys2Proof.Proofs
open Sys2Proof.Machine

/-- The element that a change finds is in the list with the change made to it. -/
theorem mem_modFirst_of_find? {α : Type} {p : α → Bool} {f : α → α} {x : α} {xs : List α} (h : xs.find? p = some x) :
    f x ∈ modFirst p f xs := by
  induction xs with
  | nil => exact nomatch h
  | cons y ys ih =>
    cases hp : p y with
    | true =>
      obtain rfl : y = x := by simpa [hp] using h
      simp [modFirst, hp]
    | false => simp [modFirst, hp, ih (by simpa [hp] using h)]

/-! What each part of an end leaves of the kiln (R309, R311). -/

section
variable (s : State) (f : Firing)

theorem dropSlots_kiln (planes : List Nat) (early : Bool) : (s.dropSlots f planes early).kiln = s.kiln := by
  unfold State.dropSlots
  split
  · rfl
  · exact foldl_kiln (fun a _ => foldl_kiln (fun _ _ => by rfl) _ a) planes s

theorem dropDeposits_kiln : (s.dropDeposits f).kiln = s.kiln := rfl

theorem digestUpdate_firings (st : BitVec 8) (r : Quad) : (s.digestUpdate f st r).kiln.firings = s.kiln.firings := by
  unfold State.digestUpdate
  split <;> rfl

theorem kaccEnd_firings (st : BitVec 8) : (s.kaccEnd f st).kiln.firings = s.kiln.firings := by
  unfold State.kaccEnd
  split <;> rfl

theorem fenceIfFull_firings : (s.fenceIfFull f).kiln.firings = s.kiln.firings := by
  unfold State.fenceIfFull
  split
  · rw [(recordsOnly_firingEvent ..).eq]
    rfl
  · rfl

theorem traceEnd_kiln (e : EndMsg) : (s.traceEnd f e).kiln = s.kiln := by
  rw [State.traceEnd, traceOffer_frame]

theorem poisonEvent_kiln (e : EndMsg) : (s.poisonEvent f e).kiln = s.kiln := by
  unfold State.poisonEvent
  split
  · rw [(faultsOnly_fault ..).eq]
  · rfl

/-- A wait that an end counts changes nothing of the firing but its total (R553). -/
theorem firing?_countWait (h : s.firing? f.uid = some f) : ∃ n, (s.countWait f).firing? f.uid = some { f with depWait := n } := by
  unfold State.countWait
  dsimp only
  split
  · exact ⟨f.depWait, h⟩
  · exact ⟨f.depWait + s.waitNow f, by rw [firing?_modFiring _ (by exact fun _ => rfl)]; exact congrArg (Option.map _) h⟩

end

/-- The state after a granted firing's end message is sent and what it held is released, the firing itself not yet ended. -/
def holdsReleased (s : State) (f : Firing) (st : BitVec 8) (e : EndMsg) : State :=
  let t := (if f.desc.kind == 4 && st == stOk then s.sendDown (.release e f.leaves false) else s.sendDown (.done e f.leaves)).countWait f
  let x := { f with depWait := f.depWait + s.waitNow f }
  ((((t.dropSlots x (List.range 4) (st != stOk && st != stRange && st != stOverflow)).dropDeposits x).digestUpdate x st
    e.digest).kaccEnd x st).fenceIfFull x

/-- A granted firing on a plane as its end leaves it: its setter rests for 10 µs (R311). -/
def endedAs (e : EndMsg) (now : Quad) (x : Firing) : Firing :=
  { x with
    st := .ended, endMsg := some e, cause := none, wants := [], asked := [], waitPlane := none, heldSlots := [], heldGlaze := [],
    restEnd := some (now + 10000), held := [], values := [], scanIn := [], result := [], aux := [], scan := [] }

theorem firing?_holdsReleased {s : State} {f : Firing} (h : s.firing? f.uid = some f) (st : BitVec 8) (e : EndMsg) :
    ∃ n, (holdsReleased s f st e).firing? f.uid = some { f with depWait := n } := by
  have hsent : (if f.desc.kind == 4 && st == stOk then s.sendDown (.release e f.leaves false) else s.sendDown (.done e f.leaves)).firing? f.uid
      = some f := by
    rw [State.firing?, apply_ite State.kiln, sendDown_kiln, sendDown_kiln, ite_self]
    exact h
  obtain ⟨n, hn⟩ := firing?_countWait _ f hsent
  refine ⟨n, ?_⟩
  rw [State.firing?, holdsReleased, fenceIfFull_firings, kaccEnd_firings, digestUpdate_firings, dropDeposits_kiln, dropSlots_kiln]
  exact hn

section
variable {s : State} {f : Firing} {st : BitVec 8} {r : BitVec 16} {c : BitVec 8} {ts : Quad}

/-- The end of a granted firing on a plane: what it held is released, it is ended and its setter rests, and then the positions that are
done with close. -/
theorem finishEnd_of_granted (h : s.firing? f.uid = some f) (hc : f.cause = some (st, r, c, ts)) (hg : f.st = .granted)
    (hp : f.usesPlane = true) : ∃ u : State, s.finishEnd f.uid = u.closePositions
      ∧ u.kiln = { (holdsReleased s f st (f.endWord st r c ts s.tick)).kiln with
          firings := modFirst (fun x => x.uid == f.uid) (endedAs (f.endWord st r c ts s.tick) s.time)
            (holdsReleased s f st (f.endWord st r c ts s.tick)).kiln.firings
          resting := insertRise (f.setter.getD 0) (holdsReleased s f st (f.endWord st r c ts s.tick)).kiln.resting } := by
  have hplane : ∀ n x y, ({ f with depWait := n, cause := x, st := y } : Firing).usesPlane = true := fun _ _ _ => hp
  simp only [State.finishEnd, h, hc, hg, hplane, beq_self_eq_true, Bool.and_true, if_true]
  refine ⟨_, rfl, ?_⟩
  rw [tock_kiln, poisonEvent_kiln, traceEnd_kiln]
  rfl

end

/-- A position that has ended stays open while its setter rests (R296, R311). -/
theorem mem_closePositions_of_rests {s : State} {g : Firing} {t : Quad} (h : g ∈ s.kiln.firings) (hr : g.restEnd = some t) :
    g ∈ s.closePositions.kiln.firings :=
  List.mem_filter.mpr ⟨h, by simp [hr]⟩

/-- What the end message of a granted firing says (Table 9.5). -/
theorem endWord_of_granted {f : Firing} (hg : f.st = .granted) (st : BitVec 8) (r : BitVec 16) (c : BitVec 8) (ts : Quad) (tick : Nat) :
    (f.endWord st r c ts tick).status = st ∧ (f.endWord st r c ts tick).fn = f.fn ∧ (f.endWord st r c ts tick).seq = f.seq
      ∧ (f.endWord st r c ts tick).noGrant = false := by
  simp [Firing.endWord, hg]

theorem mem_insertRise {x y : Nat} {xs : List Nat} : y ∈ insertRise x xs ↔ y = x ∨ y ∈ xs := by
  induction xs with
  | nil => exact List.mem_singleton.trans (or_iff_left List.not_mem_nil).symm
  | cons z zs ih =>
    rw [insertRise]
    split
    · exact List.mem_cons
    · split
      · next he => simp [he]
      · simp only [List.mem_cons, ih]
        tauto

/-- The end of a granted firing on a plane: the firing is ended, its message carries the status, its setter rests. -/
theorem finishEnd_rests {s : State} {f : Firing} {st : BitVec 8} {r : BitVec 16} {c : BitVec 8} {ts : Quad} (h : s.firing? f.uid = some f)
    (hc : f.cause = some (st, r, c, ts)) (hg : f.st = .granted) (hp : f.usesPlane = true) :
    (∃ g ∈ (s.finishEnd f.uid).kiln.firings, g.uid = f.uid ∧ g.st = .ended ∧ g.setter = f.setter
        ∧ g.restEnd = some (s.time + 10000)
        ∧ ∃ e, g.endMsg = some e ∧ e.status = st ∧ e.fn = f.fn ∧ e.seq = f.seq ∧ e.noGrant = false)
      ∧ f.setter.getD 0 ∈ (s.finishEnd f.uid).kiln.resting := by
  obtain ⟨u, hu, hk⟩ := finishEnd_of_granted h hc hg hp
  obtain ⟨n, hn⟩ := firing?_holdsReleased h st (f.endWord st r c ts s.tick)
  have hmem : endedAs (f.endWord st r c ts s.tick) s.time { f with depWait := n } ∈ u.kiln.firings := by
    rw [hk]
    exact mem_modFirst_of_find? hn
  have hrest : f.setter.getD 0 ∈ u.closePositions.kiln.resting := by
    rw [show u.closePositions.kiln.resting = u.kiln.resting from rfl, hk]
    exact mem_insertRise.mpr (.inl rfl)
  rw [hu]
  exact ⟨⟨_, mem_closePositions_of_rests hmem rfl, rfl, rfl, rfl, rfl, _, rfl, endWord_of_granted hg ..⟩, hrest⟩

/-- A firing whose end is not decided, once a cause is registered (R319). -/
def causedBy (now : Quad) (st : BitVec 8) (r c : Nat) (f : Firing) : Firing :=
  { f with cause := some (st, BitVec.ofNat 16 r, BitVec.ofNat 8 c, now) }

/-- A granted firing ends at once. -/
theorem decideEnd_of_granted {s : State} {f : Firing} (h : s.firing? f.uid = some f) (hc : f.cause = none) (hg : f.st = .granted)
    (st : BitVec 8) (r c : Nat) :
    s.decideEnd f.uid st r c = (s.modFiring f.uid (causedBy s.time st r c)).finishEnd f.uid := by
  simp only [State.decideEnd, h, hc, hg, Option.isSome_none, Bool.or_false, beq_self_eq_true, if_true]
  rfl

theorem firing?_causedBy {s : State} {f : Firing} (h : s.firing? f.uid = some f) (st : BitVec 8) (r c : Nat) :
    (s.modFiring f.uid (causedBy s.time st r c)).firing? f.uid = some (causedBy s.time st r c f) := by
  rw [firing?_modFiring s (by exact fun _ => rfl), h]
  rfl

/-! The rows. -/

section
variable {g seq x : Nat} {s : State} {f : Firing}

theorem exec_firingEnd (g seq : Nat) (s : State) : exec (.firingEnd g seq) s = execFiringEnd g seq s := rfl
theorem exec_setterRestEnd (x : Nat) (s : State) : exec (.setterRestEnd x) s = execSetterRestEnd x s := rfl

/-- The firing that FIRING_END names: the first granted one of the group and sequence number. -/
def grantedFiring (s : State) (g seq : Nat) : Option Firing :=
  s.kiln.firings.find? (fun f => f.group == g && f.seq.toNat == seq && f.st == .granted)

theorem execFiringEnd_waits (h : ∀ f, grantedFiring s g seq = some f → s.ranThrough f = false ∨ f.desc.kind = 4) :
    execFiringEnd g seq s = .next s := by
  cases hf : grantedFiring s g seq with
  | none =>
    rw [grantedFiring] at hf
    simp [execFiringEnd, hf]
  | some f =>
    specialize h f hf
    rw [grantedFiring] at hf
    rcases h with h | h <;> simp [execFiringEnd, hf, h]

theorem execFiringEnd_ends (hf : grantedFiring s g seq = some f) (hr : s.ranThrough f = true) (hk : f.desc.kind ≠ 4) :
    execFiringEnd g seq s = .next (((s.setInitBits f).decideEnd f.uid f.doneWith.1 f.doneWith.2.1 f.doneWith.2.2).afterEnd g) := by
  rw [grantedFiring] at hf
  simp [execFiringEnd, hf, hr, hk]

/-- An ended firing whose setter has rested. -/
def restedFiring (s : State) (x : Nat) : Option Firing :=
  s.kiln.firings.find? (fun f => f.st == .ended && f.setter == some x && f.restEnd.any (fun t => hasCome t s.time))

/-- The state after a setter has returned to the pool, before what is free is offered. -/
def setterFreed (s : State) (x : Nat) (f : Firing) : State :=
  ((s.modFiring f.uid (fun y => { y with restEnd := none, setter := none })).modKiln
    (fun k => { k with resting := k.resting.filter (· != x) })).closePositions

theorem execSetterRestEnd_waits (hf : restedFiring s x = none) : execSetterRestEnd x s = .next s := by
  rw [restedFiring] at hf
  simp [execSetterRestEnd, hf]

theorem execSetterRestEnd_frees (hf : restedFiring s x = some f) : execSetterRestEnd x s = .next (setterFreed s x f).offer := by
  rw [restedFiring] at hf
  simp [execSetterRestEnd, hf, setterFreed]

theorem mem_resting_setterFreed {y : Nat} : y ∈ (setterFreed s x f).kiln.resting ↔ y ∈ s.kiln.resting ∧ y ≠ x :=
  List.mem_filter.trans (and_congr_right fun _ => bne_iff_ne)

end

/-- Settles O32: the rows by what they find, the end of a granted firing by the kiln's state after `finishEnd`. -/
theorem firingEnd : Obligations.FiringEnd := by
  unfold Obligations.FiringEnd
  refine ⟨?row, fun f st r c s _ h hg hc hp _ => ?ended, ?rest⟩
  case row =>
    rintro g seq r s rfl
    rw [exec_firingEnd]
    refine ⟨execFiringEnd_waits, fun f hf hr hk => ⟨execFiringEnd_ends hf hr hk, fun h => ?_, fun h h' => ?_, fun h h' => ?_⟩⟩
    · simp [Firing.doneWith, h]
    · simp [Firing.doneWith, h, h']
    · simp [Firing.doneWith, h, h']
  case ended =>
    obtain ⟨⟨g, hg', huid, hst, hset, hrest, hmsg⟩, hresting⟩ :=
      finishEnd_rests (f := causedBy s.time st r c f) (firing?_causedBy h st r c) rfl hg hp
    rw [decideEnd_of_granted h hc hg]
    exact ⟨g, hg', huid, hst, hset, hrest, hmsg, hresting⟩
  case rest =>
    rintro x r s rfl
    rw [exec_setterRestEnd]
    refine ⟨execSetterRestEnd_waits, fun f hf => ⟨setterFreed s x f, execSetterRestEnd_frees hf, rfl, ?_, fun y hy hne => ?_⟩⟩
    · exact fun hx => (mem_resting_setterFreed.mp hx).2 rfl
    · exact mem_resting_setterFreed.mpr ⟨hy, hne⟩

end Sys2Proof.Proofs

/-! ### O33: result flits and end messages at a leaf port -/

namespace Sys2Proof.Proofs
open Sys2Proof.Machine

section
variable {l p : Nat} {err : BitVec 568} {s : State}

theorem exec_resultFlitReceive (l p : Nat) (err : BitVec 568) (s : State) :
    exec (.resultFlitReceive l p err) s = execResultFlitReceive l p err s := rfl

theorem execResultFlitReceive_idle (h : 4 ≤ p ∨ s.leafExists l = false ∨ s.takeFlit (leafLinkKey l .down p) err = none) :
    execResultFlitReceive l p err s = .next s := by
  rcases h with h | h | h <;> simp [execResultFlitReceive, h]

/-- A leaf port whose poisoned result flits are counted (Table 12.6). -/
def flitCounted (q : LeafPort) (c : Carry) : LeafPort :=
  { q with poisonFlits := if c.flit.poison = true then satInc q.poisonFlits else q.poisonFlits }

/-- The descriptor that takes a result flit: a firing of its setter that still listens (R310). -/
def listener (q : LeafPort) (c : Carry) : Option Taken := q.taken.find? (fun x => x.listens && x.setter == c.flit.setter)

section
variable (hp : p < 4) (hl : s.leafExists l = true)
include hp hl

theorem execResultFlitReceive_bad {t : State} (ht : s.takeFlit (leafLinkKey l .down p) err = some (none, t)) :
    execResultFlitReceive l p err s = .next t := by
  simp [execResultFlitReceive, Nat.not_le.mpr hp, hl, ht]

variable {c : Carry} {t : State} (ht : s.takeFlit (leafLinkKey l .down p) err = some (some c, t))
include ht

theorem execResultFlitReceive_drops (h : (t.leaf l).failed = true ∨ listener (t.leaf l) c = none) :
    execResultFlitReceive l p err s = .next ((t.setLeaf l (flitCounted (t.leaf l) c)).drive (leafLinkKey l .down p)) := by
  simp only [execResultFlitReceive, Nat.not_le.mpr hp, hl, ht, decide_false, Bool.not_true, Bool.or_self, Bool.false_eq_true, if_false]
  rw [listener] at h
  split
  · rfl
  · next x hx =>
    obtain hf | hn := h
    · rw [if_pos hf]
      rfl
    · exact absurd (hx.symm.trans hn) (Option.some_ne_none x)

theorem execResultFlitReceive_takes {x : Taken} (hf : (t.leaf l).failed = false) (hx : listener (t.leaf l) c = some x) :
    execResultFlitReceive l p err s = .next ((t.setLeaf l ((flitCounted (t.leaf l) c).modTaken x.cnt
      (fun y => y.takeResult (t.leaf l).chunk c))).drive (leafLinkKey l .down p)) := by
  rw [listener] at hx
  simp [execResultFlitReceive, Nat.not_le.mpr hp, hl, ht, hf, hx, flitCounted]

end

/-! The end of a firing at its leaf port (R301, R310, Table 9.7). -/

theorem exec_endReceive (l : Nat) (s : State) : exec (.endReceive l) s = execEndReceive l s := rfl

theorem execEndReceive_idle (h : (s.leaf l).failed = true ∨ ∀ e d ms, (s.leaf l).inbox ≠ .done e d :: ms) :
    execEndReceive l s = .next s := by
  unfold execEndReceive
  dsimp only
  split
  · next e d ms hm =>
    obtain hf | hn := h
    · exact if_pos hf
    · exact absurd hm (hn e d ms)
  · rfl

/-- Which firing an end names does not depend on the messages that wait. -/
theorem endsFor_inbox (q : LeafPort) (ms : List CtlMsg) (e : EndMsg) : LeafPort.endsFor { q with inbox := ms } e = q.endsFor e := rfl

section
variable {e : EndMsg} {d : List Nat} {ms : List CtlMsg} (hf : (s.leaf l).failed = false) (hm : (s.leaf l).inbox = .done e d :: ms)
include hf hm

theorem execEndReceive_unknown (hx : (s.leaf l).endsFor e = none) :
    execEndReceive l s = .next (s.setLeaf l { s.leaf l with inbox := ms }) := by
  simp only [execEndReceive, hm, endsFor_inbox, hx]
  exact if_neg (by rw [hf]; nofun)

theorem execEndReceive_ends {x : Taken} (hx : (s.leaf l).endsFor e = some x) :
    execEndReceive l s = .next (s.setLeaf l (LeafPort.takeEnd { s.leaf l with inbox := ms } x e s.tick)).tock := by
  simp only [execEndReceive, hm, endsFor_inbox, hx]
  exact if_neg (by rw [hf]; nofun)

end

/-- Free bytes written to areas change scratchpad only, and only in the areas. -/
theorem foldl_store_openBytes (tick : Nat) (rs : List Range) : ∀ q : LeafPort,
    ∃ m, rs.foldl (fun a r => a.store r.addr (openBytes tick r.len)) q = { q with scratch := m }
      ∧ ∀ a, (∀ r ∈ rs, ¬ (r.addr ≤ a ∧ a < r.addr + r.len)) → tget 0 m a = q.byteAt a := by
  induction rs with
  | nil => exact fun q => ⟨q.scratch, rfl, fun _ _ => rfl⟩
  | cons r rs ih =>
    intro q
    obtain ⟨m, hm, hout⟩ := ih (q.store r.addr (openBytes tick r.len))
    refine ⟨m, hm, fun a ha => (hout a fun x hx => ha x (List.mem_cons_of_mem r hx)).trans ?_⟩
    exact byteAt_store_out (by rw [length_openBytes]; exact ha r List.mem_cons_self)

/-- What an end leaves of its leaf port. -/
theorem takeEnd_frame (q : LeafPort) (x : Taken) (e : EndMsg) (tick : Nat) : ∃ ws m, q.takeEnd x e tick = { q with
      taken := modFirst (fun y => y.cnt == x.cnt) (fun y => { y with
        ended := some e, stopped := true, writes := y.writes.filter ws }) q.taken
      scratch := m }
    ∧ ∀ a, (∀ r ∈ x.lostAreas q.chunk e, ¬ (r.addr ≤ a ∧ a < r.addr + r.len)) → tget 0 m a = q.byteAt a := by
  obtain ⟨m, hm, hout⟩ := foldl_store_openBytes tick (x.lostAreas q.chunk e) (q.modTaken x.cnt (fun y => { y with
    ended := some e, stopped := true
    writes := y.writes.filter (fun w => !(x.lostAreas q.chunk e).any (fun r => decide (r.addr ≤ w.1) && decide (w.1 < r.addr + r.len))) }))
  exact ⟨_, m, hm, hout⟩

end

/-- Settles O33: a flit by what is taken off the link and who listens, an end by the firing that it names and what `takeEnd` leaves. -/
theorem resultsAndEnds : Obligations.ResultsAndEnds := by
  unfold Obligations.ResultsAndEnds
  refine ⟨fun l p err s => ⟨fun h => ?idle, fun hp hl => ⟨fun t ht => ?bad, ?taken⟩⟩, fun l s h => ?none,
    fun l e d ms s hf hm => ⟨fun hx => ?unknown, fun x hs hx => ?ends⟩⟩
  case idle => rw [exec_resultFlitReceive, execResultFlitReceive_idle h]
  case bad => rw [exec_resultFlitReceive, execResultFlitReceive_bad hp hl ht]
  case none => rw [exec_endReceive, execEndReceive_idle h]
  case unknown => rw [exec_endReceive, execEndReceive_unknown hf hm hx]
  case ends =>
    obtain ⟨ws, m, hq, hout⟩ := takeEnd_frame { s.leaf l with inbox := ms } x e s.tick
    refine ⟨_, (exec_endReceive l s).trans (execEndReceive_ends hf hm hx), rfl, fun k hk => leaf_setLeaf_ne s _ hk, ?_⟩
    have hleaf : (s.setLeaf l (LeafPort.takeEnd { s.leaf l with inbox := ms } x e s.tick)).tock.leaf l
        = LeafPort.takeEnd { s.leaf l with inbox := ms } x e s.tick := leaf_setLeaf hs.leaves l _
    rw [hleaf, hq]
    exact ⟨rfl, ⟨ws, rfl⟩, hout⟩
  case taken =>
    rintro c t n ht rfl
    rw [exec_resultFlitReceive]
    exact ⟨execResultFlitReceive_drops hp hl ht, fun x => execResultFlitReceive_takes hp hl ht⟩

end Sys2Proof.Proofs

/-! ### Folds over banks, and indices of control-path nodes -/

namespace Sys2Proof.Proofs
open Sys2Proof.Machine

section
variable {α ι : Type} [DecidableEq α] {d : α} {key : ι → Nat} {g : ι → α → α}

/-- An entry changed reads as the change made to it. -/
theorem tget_tmod_self {t : Table α} (h : tableWf d t = true) (k : Nat) (f : α → α) : tget d (tmod d t k f) k = f (tget d t k) :=
  tget_tset_self h k _

/-- Changing entries leaves the others. -/
theorem tget_foldl_tmod_out {k : Nat} (is : List ι) : ∀ {t : Table α}, (∀ i ∈ is, key i ≠ k) →
    tget d (is.foldl (fun t i => tmod d t (key i) (g i)) t) k = tget d t k := by
  induction is with
  | nil => exact fun _ => rfl
  | cons i is ih =>
    intro t h
    rw [List.foldl_cons, ih fun j hj => h j (List.mem_cons_of_mem i hj)]
    exact tget_tset_ne d t _ (h i List.mem_cons_self).symm

/-- Changing entries at distinct keys changes each once. -/
theorem tget_foldl_tmod {i : ι} (is : List ι) : ∀ {t : Table α}, tableWf d t = true → (is.map key).Nodup → i ∈ is →
    tget d (is.foldl (fun t i => tmod d t (key i) (g i)) t) (key i) = g i (tget d t (key i)) := by
  induction is with
  | nil => exact fun _ _ h => nomatch h
  | cons j is ih =>
    intro t ht hn hi
    rw [List.map_cons, List.nodup_cons] at hn
    obtain ⟨hj, hn⟩ := hn
    rw [List.foldl_cons]
    rcases List.mem_cons.mp hi with rfl | hi
    · rw [tget_foldl_tmod_out is fun k hk he => hj (List.mem_map.mpr ⟨k, hk, he⟩)]
      exact tget_tmod_self ht _ _
    · rw [ih (tableWf_tmod ht _ _) hn hi]
      exact congrArg (g i) (tget_tset_ne d t _ fun he => hj (List.mem_map.mpr ⟨i, hi, he⟩))

end

/-! Rising lists (Ops). -/

theorem mem_sortRise {x : Nat} {xs : List Nat} : x ∈ sortRise xs ↔ x ∈ xs := by
  induction xs with
  | nil => exact Iff.rfl
  | cons y ys ih => exact mem_insertRise.trans ((or_congr_right ih).trans List.mem_cons.symm)

theorem pairwise_insertRise {x : Nat} {xs : List Nat} (h : xs.Pairwise (· < ·)) : (insertRise x xs).Pairwise (· < ·) := by
  induction xs with
  | nil => exact List.pairwise_singleton ..
  | cons y ys ih =>
    have hy := List.pairwise_cons.mp h
    rw [insertRise]
    split
    · next hlt => exact List.pairwise_cons.mpr ⟨fun z hz => (List.mem_cons.mp hz).elim (· ▸ hlt) (fun hz => hlt.trans (hy.1 z hz)), h⟩
    · split
      · exact h
      · refine List.pairwise_cons.mpr ⟨fun z hz => ?_, ih hy.2⟩
        rcases mem_insertRise.mp hz with rfl | hz
        · omega
        · exact hy.1 z hz

theorem nodup_sortRise (xs : List Nat) : (sortRise xs).Nodup := by
  have h : (sortRise xs).Pairwise (· < ·) := by
    induction xs with
    | nil => exact .nil
    | cons x xs ih => exact pairwise_insertRise ih
  exact h.imp Nat.ne_of_lt

/-! Node indices (R446). -/

theorem nodeIx_ctl (q : Nat) : nodeIx q true 0 = 8 * q + 4 := by
  simp [nodeIx, b2n]
  omega

theorem nodeIx_data (q p : Nat) : nodeIx q false p = 8 * q + p := by
  simp [nodeIx, b2n]
  omega

theorem nodeIx_ctl_injective : Function.Injective (fun q => nodeIx q true 0) := fun a b h => by
  simp only [nodeIx_ctl] at h
  omega

theorem nodeIx_data_injective (q : Nat) : Function.Injective (nodeIx q false) := fun a b h => by
  simp only [nodeIx_data] at h
  omega

theorem qOf_nodeIx_data (q : Nat) {p : Nat} (hp : p < 4) : qOf (nodeIx q false p) = q := by
  rw [nodeIx_data, qOf]
  omega

/-- A control-path node's index is that of its q. -/
theorem nodeIx_qOf {node : Nat} (h : isCtlIx node = true) : nodeIx (qOf node) true 0 = node := by
  simp only [isCtlIx, Bool.and_eq_true, beq_iff_eq] at h
  obtain ⟨h8, -⟩ := h
  rw [nodeIx_ctl, qOf]
  omega

end Sys2Proof.Proofs

/-! ### O24: messages on their way down -/

namespace Sys2Proof.Proofs
open Sys2Proof.Machine

/-! What a GRANT releases at a node position (R395). -/

/-- A node without the slot of a setter and the flits that wait there for it. -/
def slotsDropped (x : BitVec 10) (n : Node) : Node :=
  { n with slots := n.slots.filter (fun y => y.setter != x.toNat), outUp := n.outUp.filter (fun c => c.flit.setter != x),
           outDown := n.outDown.filter (fun e => e.2.flit.setter != x) }

/-- The planes that a GRANT does not name. -/
def planesLeft (g : GrantMsg) : List Nat := (List.range 4).filter (fun p => !bitOf g.planes.toNat p)

theorem mem_planesLeft {g : GrantMsg} {p : Nat} : p ∈ planesLeft g ↔ p < 4 ∧ bitOf g.planes.toNat p = false := by
  simp [planesLeft]

section
variable (s : State) (q : Nat) (g : GrantMsg)

theorem releaseSlots_frame : s.releaseSlots q g = { s with nodes := (s.releaseSlots q g).nodes } :=
  foldl_rel (R := fun a b => b = { a with nodes := b.nodes }) (fun _ => rfl) (fun h k => by rw [k, h]) (fun _ _ => rfl) (planesLeft g) s

theorem releaseSlots_nodes : (s.releaseSlots q g).nodes
    = (planesLeft g).foldl (fun t p => tmod {} t (nodeIx q false p) (slotsDropped g.setter)) s.nodes :=
  (List.foldl_hom State.nodes (fun _ _ => rfl)).symm

theorem node_releaseSlots_ne {k : Nat} (h : ∀ p ∈ planesLeft g, nodeIx q false p ≠ k) : (s.releaseSlots q g).node k = s.node k := by
  rw [State.node, releaseSlots_nodes]
  exact tget_foldl_tmod_out (planesLeft g) h

theorem node_releaseSlots (hs : canonical s) {p : Nat} (hp : p ∈ planesLeft g) :
    (s.releaseSlots q g).node (nodeIx q false p) = slotsDropped g.setter (s.node (nodeIx q false p)) := by
  rw [State.node, releaseSlots_nodes]
  exact tget_foldl_tmod (planesLeft g) hs.nodes ((List.nodup_range.filter _).map (nodeIx_data_injective q)) hp

end

/-! Copies of a message: to leaf ports below a cluster node, to cluster nodes below a die node (R38). -/

section
variable {s : State} {q : Nat} {m : CtlMsg}

theorem copyDown_of_cluster (hq : 33 ≤ q) : s.copyDown q m
    = m.dst.foldl (fun a l => a.modLeaf l (fun p => { p with inbox := p.inbox ++ [m] })) s := if_neg (Nat.not_lt.mpr hq)

theorem copyDown_of_die (hq : q < 33) : s.copyDown q m = (sortRise (m.dst.map leafQ)).foldl (fun a c => a.modCtl (nodeIx c true 0) (fun n =>
    { n with downq := n.downq ++ [m.withDst (m.dst.filter (fun l => leafQ l == c))] })) s := if_pos hq

theorem copyDown_leaves (hq : 33 ≤ q) : (s.copyDown q m).leaves
    = m.dst.foldl (fun t l => tmod {} t l (fun p => { p with inbox := p.inbox ++ [m] })) s.leaves := by
  rw [copyDown_of_cluster hq]
  exact (List.foldl_hom State.leaves (fun _ _ => rfl)).symm

theorem copyDown_ctls (hq : q < 33) : (s.copyDown q m).ctls
    = (sortRise (m.dst.map leafQ)).foldl (fun t c => tmod {} t (nodeIx c true 0) (fun n =>
        { n with downq := n.downq ++ [m.withDst (m.dst.filter (fun l => leafQ l == c))] })) s.ctls := by
  rw [copyDown_of_die hq]
  exact (List.foldl_hom State.ctls (fun _ _ => rfl)).symm

theorem copyDown_frame_of_cluster (hq : 33 ≤ q) : s.copyDown q m = { s with leaves := (s.copyDown q m).leaves } := by
  rw [copyDown_of_cluster hq]
  exact foldl_rel (R := fun a b => b = { a with leaves := b.leaves }) (fun _ => rfl) (fun h k => by rw [k, h]) (fun _ _ => rfl) m.dst s

theorem copyDown_frame_of_die (hq : q < 33) : s.copyDown q m = { s with ctls := (s.copyDown q m).ctls } := by
  rw [copyDown_of_die hq]
  exact foldl_rel (R := fun a b => b = { a with ctls := b.ctls }) (fun _ => rfl) (fun h k => by rw [k, h]) (fun _ _ => rfl) _ s

theorem leaf_copyDown (hs : canonical s) (hq : 33 ≤ q) (hn : m.dst.Nodup) {l : Nat} (hl : l ∈ m.dst) :
    (s.copyDown q m).leaf l = { s.leaf l with inbox := (s.leaf l).inbox ++ [m] } := by
  rw [State.leaf, copyDown_leaves hq]
  exact tget_foldl_tmod (key := id) m.dst hs.leaves (by rwa [List.map_id]) hl

theorem leaf_copyDown_ne (hq : 33 ≤ q) {l : Nat} (hl : ¬ l ∈ m.dst) : (s.copyDown q m).leaf l = s.leaf l := by
  rw [State.leaf, copyDown_leaves hq]
  exact tget_foldl_tmod_out (key := id) m.dst fun k hk he => hl (he ▸ hk)

theorem ctlNode_copyDown (hs : canonical s) (hq : q < 33) {l : Nat} (hl : l ∈ m.dst) :
    (s.copyDown q m).ctlNode (nodeIx (leafQ l) true 0) = { s.ctlNode (nodeIx (leafQ l) true 0) with
      downq := (s.ctlNode (nodeIx (leafQ l) true 0)).downq ++ [m.withDst (m.dst.filter (fun k => leafQ k == leafQ l))] } := by
  rw [State.ctlNode, copyDown_ctls hq]
  exact tget_foldl_tmod (key := fun c => nodeIx c true 0) _ hs.ctls ((nodup_sortRise _).map nodeIx_ctl_injective)
    (mem_sortRise.mpr (List.mem_map_of_mem hl))

end

/-! The row, by the message it takes. -/

section
variable {node : Nat} {s : State}

theorem exec_controlPathDownwardMessage (node : Nat) (s : State) :
    exec (.controlPathDownwardMessage node) s = execControlPathDownwardMessage node s := rfl

theorem execControlPathDownwardMessage_idle
    (h : isCtlIx node = false ∨ (s.ctlNode node).stat.pairOut = true ∨ (s.ctlNode node).downq = []) :
    execControlPathDownwardMessage node s = .next s := by
  rcases h with h | h | h <;> simp [execControlPathDownwardMessage, h]

/-- The state with the oldest message of a node taken. -/
def messageTaken (s : State) (node : Nat) (ms : List CtlMsg) : State := s.setCtl node { s.ctlNode node with downq := ms }

variable {ms : List CtlMsg} (hn : isCtlIx node = true) (ho : (s.ctlNode node).stat.pairOut = false)
include hn ho

theorem execControlPathDownwardMessage_grant {g : GrantMsg} {d : List Nat} (hm : (s.ctlNode node).downq = .grant g d :: ms) :
    execControlPathDownwardMessage node s
      = .next (((messageTaken s node ms).releaseSlots (qOf node) g).copyDown (qOf node) (.grant g d)) := by
  simp only [execControlPathDownwardMessage, hn, ho, hm, Bool.not_true, Bool.or_self, Bool.false_eq_true, if_false]
  rfl

variable {e : EndMsg} {d : List Nat}

theorem execControlPathDownwardMessage_release {ep : Bool} (hm : (s.ctlNode node).downq = .release e d ep :: ms) :
    execControlPathDownwardMessage node s = .next (((messageTaken s node ms).forgetPos node e).copyDown (qOf node)
      (.release e d (if qOf node < 33 then (s.die (qOf node - 1)).epoch else ep))) := by
  simp only [execControlPathDownwardMessage, hn, ho, hm, Bool.not_true, Bool.or_self, Bool.false_eq_true, if_false]
  rfl

variable (hm : (s.ctlNode node).downq = .done e d :: ms)
include hm

theorem execControlPathDownwardMessage_granted_end (hg : e.noGrant = false) : execControlPathDownwardMessage node s
    = .next (((messageTaken s node ms).forgetPos node e).copyDown (qOf node) (.done e d)) := by
  simp [execControlPathDownwardMessage, hn, ho, hm, hg, messageTaken]

theorem execControlPathDownwardMessage_answer (hg : e.noGrant = true) (ht : e.target ≠ 0xFFFF) : execControlPathDownwardMessage node s
    = .next ((messageTaken s node ms).copyDown (qOf node) (.done e d)) := by
  have hx : (e.target == 0xFFFF) = false := beq_eq_false_iff_ne.mpr ht
  simp only [execControlPathDownwardMessage, hn, ho, hm, hg, hx, Bool.not_true, Bool.or_self, Bool.and_false, Bool.false_eq_true,
    if_false, if_true]
  rfl

theorem execControlPathDownwardMessage_end (hg : e.noGrant = true) (ht : e.target = 0xFFFF) : execControlPathDownwardMessage node s
    = .next (((messageTaken s node ms).endPasses (qOf node) e).2.copyDown (qOf node) (.done e (if 33 ≤ qOf node then
        d.filter (fun l => ((messageTaken s node ms).endPasses (qOf node) e).1.contains (inputOf (qOf node) l)) else d))) := by
  simp [execControlPathDownwardMessage, hn, ho, hm, hg, ht, messageTaken]

end

/-- Settles O24: by the message that the row takes, what a GRANT releases, and what copying a message leaves. -/
theorem downwardMessage : Obligations.DownwardMessage := by
  unfold Obligations.DownwardMessage
  refine ⟨fun node s h => ?idle, fun node g d ms s hs hn ho hm => ?grant, fun q m s hs => ⟨fun hq hd => ?cluster, fun hq => ?die⟩, ?ends⟩
  case idle => rw [exec_controlPathDownwardMessage, execControlPathDownwardMessage_idle h]
  case grant =>
    have htaken : canonical (messageTaken s node ms) := hs.setCtl node _ (hs.counts node)
    refine ⟨_, (messageTaken s node ms).releaseSlots (qOf node) g, execControlPathDownwardMessage_grant hn ho hm, rfl, ?_, fun k hk => ?_, ?_,
      fun p hp hb y hy => ?_, fun p hp hb => ?_, fun k hk => ?_⟩
    · rw [releaseSlots_frame]
      rfl
    · rw [releaseSlots_frame]
      exact ctl_setCtl_ne s _ hk
    · rw [releaseSlots_frame]
      exact ctl_setCtl hs.ctls node _
    · rw [node_releaseSlots _ _ g htaken (mem_planesLeft.mpr ⟨hp, hb⟩)] at hy
      exact bne_iff_ne.mp (List.mem_filter.mp hy).2
    · refine node_releaseSlots_ne _ _ g fun p' hp' he => ?_
      rw [nodeIx_data_injective _ he, mem_planesLeft, hb] at hp'
      exact Bool.noConfusion hp'.2
    · refine node_releaseSlots_ne _ _ g fun p' hp' he => hk ?_
      rw [← he, qOf_nodeIx_data _ (mem_planesLeft.mp hp').1]
  case cluster =>
    exact ⟨copyDown_frame_of_cluster hq, fun l => leaf_copyDown hs hq hd, fun l => leaf_copyDown_ne hq⟩
  case die => exact ⟨copyDown_frame_of_die hq, fun l => ctlNode_copyDown hs hq⟩
  case ends =>
    rintro node e d ep ms u s hn ho rfl
    rw [exec_controlPathDownwardMessage]
    exact ⟨execControlPathDownwardMessage_release hn ho, fun hm => ⟨execControlPathDownwardMessage_granted_end hn ho hm,
      execControlPathDownwardMessage_answer hn ho hm, execControlPathDownwardMessage_end hn ho hm⟩⟩

end Sys2Proof.Proofs

/-! ### O22: ARMs merged on their way up -/

namespace Sys2Proof.Proofs
open Sys2Proof.Machine

/-- `t` is `s` with `n` as the control-path node at an index. -/
structure nodeIs (ix : Nat) (s : State) (n : CtlNode) (t : State) : Prop where
  eq     : t = { s with ctls := t.ctls }
  wf     : tableWf {} t.ctls = true
  node   : t.ctlNode ix = n
  others : ∀ k, k ≠ ix → t.ctlNode k = s.ctlNode k

section
variable {ix : Nat} {s t : State} {n : CtlNode}

theorem nodeIs.refl (h : tableWf {} s.ctls = true) (ix : Nat) : nodeIs ix s (s.ctlNode ix) s := ⟨rfl, h, rfl, fun _ _ => rfl⟩

theorem nodeIs.modCtl (h : nodeIs ix s n t) (f : CtlNode → CtlNode) : nodeIs ix s (f n) (t.modCtl ix f) where
  eq := by
    rw [h.eq]
    rfl
  wf := tableWf_tset h.wf ..
  node := (ctl_setCtl h.wf ix _).trans (congrArg f h.node)
  others k hk := (ctl_setCtl_ne t _ hk).trans (h.others k hk)

end

/-- `t` is `s` with `n` as the node of q, but for the wires that it drives, after the node has sent ARMs on towards the kiln and told it of
a first one. -/
structure sentOn (q : Nat) (s : State) (n : CtlNode) (t : State) : Prop where
  eq      : t = { s with ctls := t.ctls, kiln := { s.kiln with inq := t.kiln.inq, firings := t.kiln.firings } }
  wf      : tableWf {} t.ctls = true
  node    : t.ctlNode (nodeIx q true 0) = { n with wires := (t.ctlNode (nodeIx q true 0)).wires }
  others  : ∀ k, k ≠ nodeIx q true 0 → k ≠ nodeIx (parentQ q).1 true 0 → t.ctlNode k = s.ctlNode k
  inq     : 33 ≤ q → t.kiln.inq = s.kiln.inq
  firings : q < 33 → t.kiln.firings = s.kiln.firings

/-- The node above a cluster node is another one. -/
theorem nodeIx_ne_parent {q : Nat} (hq : 33 ≤ q) : nodeIx q true 0 ≠ nodeIx (parentQ q).1 true 0 := by
  simp only [nodeIx_ctl, parentQ, dieQ, Nat.not_lt.mpr hq, if_false]
  omega

theorem armUp_of_die {q : Nat} (hq : q < 33) (s : State) (a : Arm) : s.armUp q a
    = (s.modCtl (nodeIx q true 0) (fun n => n.signal .up n.stat (leBytes 88 a.word.toNat))).modKiln
        (fun k => { k with inq := k.inq ++ [(q - 1, a)] }) := if_pos hq

theorem armUp_of_cluster {q : Nat} (hq : 33 ≤ q) (s : State) (a : Arm) : s.armUp q a
    = s.modCtl (nodeIx (parentQ q).1 true 0) (fun n => { n with inq := n.inq ++ [((parentQ q).2, a)] }) := if_neg (Nat.not_lt.mpr hq)

section
variable {q : Nat} {s t : State} {n : CtlNode}

theorem nodeIs.sentOn (h : nodeIs (nodeIx q true 0) s n t) : sentOn q s n t where
  eq := by rw [h.eq]
  wf := h.wf
  node := by rw [h.node]
  others k hk _ := h.others k hk
  inq _ := by rw [h.eq]
  firings _ := by rw [h.eq]

/-- A change of the node that has nothing to do with its wires. -/
theorem sentOn.modCtl (h : sentOn q s n t) {f : CtlNode → CtlNode} (hf : ∀ m w, f { m with wires := w } = { f m with wires := w }) :
    sentOn q s (f n) (t.modCtl (nodeIx q true 0) f) where
  eq := by
    rw [h.eq]
    rfl
  wf := tableWf_tset h.wf ..
  node := by
    have hnode : (t.modCtl (nodeIx q true 0) f).ctlNode (nodeIx q true 0) = f (t.ctlNode (nodeIx q true 0)) := ctl_setCtl h.wf _ _
    rw [hnode, h.node, hf]
  others k hk hp := (ctl_setCtl_ne t _ hk).trans (h.others k hk hp)
  inq := h.inq
  firings := h.firings

theorem sentOn.armUp (h : sentOn q s n t) (a : Arm) : sentOn q s n (t.armUp q a) := by
  by_cases hq : q < 33
  · have hnode : (t.armUp q a).ctlNode (nodeIx q true 0) = (t.ctlNode (nodeIx q true 0)).signal .up
        (t.ctlNode (nodeIx q true 0)).stat (leBytes 88 a.word.toNat) := by
      rw [armUp_of_die hq]
      exact ctl_setCtl h.wf ..
    refine ⟨?_, ?_, by rw [hnode, h.node]; rfl, fun k hk hp => ?_, fun h33 => absurd hq (Nat.not_lt.mpr h33), fun _ => ?_⟩ <;>
      rw [armUp_of_die hq]
    · rw [h.eq]
      rfl
    · exact tableWf_tset h.wf ..
    · exact (ctl_setCtl_ne t _ hk).trans (h.others k hk hp)
    · exact h.firings hq
  · have h33 := Nat.not_lt.mp hq
    have hnode : (t.armUp q a).ctlNode (nodeIx q true 0) = t.ctlNode (nodeIx q true 0) := by
      rw [armUp_of_cluster h33]
      exact ctl_setCtl_ne t _ (nodeIx_ne_parent h33)
    refine ⟨?_, ?_, by rw [hnode, ← h.node], fun k hk hp => ?_, fun _ => ?_, fun hlt => absurd hlt hq⟩ <;> rw [armUp_of_cluster h33]
    · rw [h.eq]
      rfl
    · exact tableWf_tset h.wf ..
    · exact (ctl_setCtl_ne t _ hp).trans (h.others k hk hp)
    · exact h.inq h33

theorem sentOn.forward (h : sentOn q s n t) (g ord : Nat) (r : GroupRec) : sentOn q s n (t.forward q g ord r) := by
  unfold State.forward
  split
  · exact h
  · split
    · exact h.armUp _
    · exact h

theorem sentOn.noteFirst (h : sentOn q s n t) (hq : 33 ≤ q) (a : Arm) (opens : Bool) : sentOn q s n (t.noteFirst q a opens) := by
  unfold State.noteFirst
  split
  · exact h
  · split
    · refine ⟨?_, h.wf, h.node, h.others, h.inq, fun hlt => absurd hlt (Nat.not_lt.mpr hq)⟩
      rw [h.eq]
      rfl
    · split
      · exact h.armUp _
      · exact h

end

/-! A position at a node takes an input (R298). -/

theorem arm_frame (n : CtlNode) (g ord input : Nat) (a : Arm) (b : Bool) :
    n.arm g ord input a b = { n with pos := (n.arm g ord input a b).pos } := by
  unfold CtlNode.arm
  split <;> rfl

/-- The position is there afterwards, and the input has armed it. -/
theorem mem_pos_arm (n : CtlNode) (g ord input : Nat) (a : Arm) (b : Bool) :
    ∃ p ∈ (n.arm g ord input a b).pos, p.group = g ∧ p.ord = ord ∧ input ∈ p.armed := by
  unfold CtlNode.arm
  split
  · next h =>
    obtain ⟨y, hy⟩ := Option.isSome_iff_exists.mp (List.find?_isSome.mpr (List.any_eq_true.mp h))
    have hkey := List.find?_some hy
    simp only [Bool.and_eq_true, beq_iff_eq] at hkey
    obtain ⟨hg, ho⟩ := hkey
    exact ⟨_, mem_modFirst_of_find? hy, hg, ho, mem_addOnce y.armed input⟩
  · exact ⟨_, List.mem_append_right n.pos (List.mem_singleton_self _), rfl, rfl, List.mem_singleton_self input⟩

section
variable {q : Nat} {s v : State} {n : CtlNode}

/-- What counting an ARM leaves: the node's positions, filled unless the ARM meets its position's end, and what goes on from there. -/
theorem armCounted_fills (hv : nodeIs (nodeIx q true 0) s n v) (r : GroupRec) (input : Nat) (a : Arm) :
    ∃ ps, sentOn q s { n with pos := ps } (v.armCounted q input r a)
      ∧ (n.ended.contains (a.group, a.ord) = false → (q < 33 → v.posOver a.group a.ord = false) →
          ∃ p ∈ ps, p.group = a.group ∧ p.ord = a.ord ∧ input ∈ p.armed) := by
  have harm : ∀ b, sentOn q s { n with pos := (n.arm a.group a.ord input a b).pos }
      (v.modCtl (nodeIx q true 0) (fun n => n.arm a.group a.ord input a b)) := fun b => by
    rw [← arm_frame]
    exact (hv.modCtl fun n => n.arm a.group a.ord input a b).sentOn
  unfold State.armCounted
  dsimp only
  rw [hv.node]
  split
  · next he => exact ⟨n.pos, hv.sentOn.armUp _, fun h => absurd (h.symm.trans he) Bool.false_ne_true⟩
  split
  · next ho =>
    obtain ⟨hq, hover⟩ := (Bool.and_eq_true _ _).mp ho
    exact ⟨n.pos, hv.sentOn.armUp _, fun _ h => absurd ((h (of_decide_eq_true hq)).symm.trans hover) Bool.false_ne_true⟩
  split
  · exact ⟨_, (harm false).armUp _, fun _ _ => mem_pos_arm ..⟩
  · refine ⟨_, ?_, fun _ _ => mem_pos_arm n a.group a.ord input a true⟩
    split
    · next hq => exact ((harm true).noteFirst hq _ _).forward ..
    · exact (harm true).forward ..

end

/-! What the row does with the ARM it takes. -/

/-- The group record that a node uses for an ARM, and its cache afterwards (R483). -/
def recordUsed (s : State) (q : Nat) (a : Arm) : Option GroupRec × List GroupRec :=
  useRec (s.ctlNode (nodeIx q true 0)).cache (s.groupRec q a.group) a.group

section
variable {q input : Nat} {a : Arm} {u : State}

theorem armAt_passes (h : a.reset = true ∨ a.foreign = true ∨ a.late = true ∨ a.first = true) : u.armAt q input a = u.armUp q a := by
  have hup : (a.reset || a.foreign || a.late || a.first) = true := by simpa [or_assoc] using h
  rw [State.armAt, if_pos hup]

section
variable (h : (a.reset || a.foreign || a.late || a.first) = false)
include h

theorem armAt_foreign {r : Option GroupRec} {c : List GroupRec} (hrec : recordUsed u q a = (r, c))
    (hr : r = none ∨ (33 ≤ q ∧ u.foreignArm r q a.group input = true)) : u.armAt q input a
      = (u.modCtl (nodeIx q true 0) (fun n => { n with cache := c })).armUp q { a with foreign := true } := by
  rw [recordUsed] at hrec
  simp only [State.armAt, h, hrec, Bool.false_eq_true, if_false]
  cases r with
  | none => rfl
  | some y =>
    obtain hn | ⟨hq, hf⟩ := hr
    · exact nomatch hn
    · exact (if_pos hq).trans (if_pos hf)

variable {x : GroupRec} {c : List GroupRec} (hrec : recordUsed u q a = (some x, c))
include hrec

theorem armAt_cluster (hq : 33 ≤ q) (hf : u.foreignArm (some x) q a.group input = false) {v : State} {ord : Nat}
    (hv : v = u.modCtl (nodeIx q true 0) (fun n => { n with cache := c }))
    (ho : ord = (u.groupRun a.group).base + tget 0 (v.ctlNode (nodeIx q true 0)).counts (64 * a.group + input)) : u.armAt q input a
      = ((v.modCtl (nodeIx q true 0) (fun n => { n with counts := tmod 0 n.counts (64 * a.group + input) (· + 1) })).armCounted q input x
          { a with ord := ord }).modCtl (nodeIx q true 0) (fun n => n.forget a.group (u.groupRun a.group).base x.inputs) := by
  rw [recordUsed] at hrec
  simp only [State.armAt, h, hrec, Bool.false_eq_true, if_false, hq, if_true, hv, ho]
  exact if_neg (by rw [show (u.modCtl (nodeIx q true 0) (fun n => { n with cache := c })).foreignArm (some x) q a.group input
    = u.foreignArm (some x) q a.group input from rfl, hf]; nofun)

theorem armAt_die (hq : q < 33) : u.armAt q input a
    = (u.modCtl (nodeIx q true 0) (fun n => { n with cache := c })).armCounted q input x a := by
  rw [recordUsed] at hrec
  simp only [State.armAt, h, hrec, Bool.false_eq_true, if_false, Nat.not_le.mpr hq]

end
end

/-! The row. -/

section
variable {node input : Nat} {s : State}

theorem exec_armMerge (node input : Nat) (s : State) : exec (.armMerge node input) s = execArmMerge node input s := rfl

theorem execArmMerge_idle
    (h : isCtlIx node = false ∨ (s.ctlNode node).stat.pairOut = true ∨ takeInput input (s.ctlNode node).inq = none) :
    execArmMerge node input s = .next s := by
  cases hn : isCtlIx node with
  | false => simp [execArmMerge, hn]
  | true =>
    obtain h | h | h := h
    · exact absurd (hn.symm.trans h) Bool.false_ne_true.symm
    · simp [execArmMerge, h]
    · simp [execArmMerge, State.mergeOne, nodeIx_qOf hn, h]

theorem execArmMerge_takes {a : Arm} {rest : List (Nat × Arm)} (hn : isCtlIx node = true) (ho : (s.ctlNode node).stat.pairOut = false)
    (ht : takeInput input (s.ctlNode node).inq = some (a, rest)) : execArmMerge node input s
      = .next ((s.setCtl node { s.ctlNode node with inq := rest }).armAt (qOf node) input a) := by
  simp [execArmMerge, State.mergeOne, nodeIx_qOf hn, hn, ho, ht]

end

section
variable {q input : Nat} {a : Arm} {rest : List (Nat × Arm)} {s u : State} {x : GroupRec}
  (hu : nodeIs (nodeIx q true 0) s { s.ctlNode (nodeIx q true 0) with inq := rest } u)
include hu

theorem recordUsed_taken : recordUsed u q a = recordUsed s q a := by
  rw [recordUsed, recordUsed, hu.node, show u.groupRec q a.group = s.groupRec q a.group by rw [hu.eq]; rfl]

variable (h : (a.reset || a.foreign || a.late || a.first) = false) (hx : (recordUsed s q a).1 = some x)
include h hx

/-- An ARM counted at a cluster node (R294, R298). -/
theorem armAt_cluster_counts (hq : 33 ≤ q) (hf : s.foreignArm (some x) q a.group input = false) {n : CtlNode}
    (hn : n = s.ctlNode (nodeIx q true 0)) : ∃ ps es,
      sentOn q s { n with inq := rest, cache := (recordUsed s q a).2, counts := tmod 0 n.counts (64 * a.group + input) (· + 1),
                          pos := ps, ended := es } (u.armAt q input a)
      ∧ (n.ended.contains (a.group, (s.groupRun a.group).base + tget 0 n.counts (64 * a.group + input)) = false →
          ∃ p ∈ ps, p.group = a.group ∧ input ∈ p.armed
            ∧ p.ord = (s.groupRun a.group).base + tget 0 n.counts (64 * a.group + input)) := by
  subst hn
  have hcache := hu.modCtl (fun n => { n with cache := (recordUsed s q a).2 })
  have hcounts := hcache.modCtl (fun n => { n with counts := tmod 0 n.counts (64 * a.group + input) (· + 1) })
  have hbase : (u.groupRun a.group).base = (s.groupRun a.group).base := by
    rw [hu.eq]
    rfl
  obtain ⟨ps, hsent, hfill⟩ := armCounted_fills hcounts x input { a with
    ord := (s.groupRun a.group).base + tget 0 (s.ctlNode (nodeIx q true 0)).counts (64 * a.group + input) }
  rw [armAt_cluster h ((recordUsed_taken hu).trans (Prod.ext hx rfl)) hq (by rw [hu.eq]; exact hf) rfl (by rw [hbase, hcache.node])]
  refine ⟨ps, _, hsent.modCtl (f := fun n => n.forget a.group (u.groupRun a.group).base x.inputs) (fun _ _ => rfl), fun he => ?_⟩
  obtain ⟨p, hp, hg, ho, hi⟩ := hfill he fun hlt => absurd hq (Nat.not_le.mpr hlt)
  exact ⟨p, hp, hg, hi, ho⟩

/-- An ARM counted at a die node, which knows its position. -/
theorem armAt_die_counts (hq : q < 33) {n : CtlNode} (hn : n = s.ctlNode (nodeIx q true 0)) : ∃ ps,
      sentOn q s { n with inq := rest, cache := (recordUsed s q a).2, pos := ps } (u.armAt q input a)
      ∧ (n.ended.contains (a.group, a.ord) = false → s.posOver a.group a.ord = false →
          ∃ p ∈ ps, p.group = a.group ∧ p.ord = a.ord ∧ input ∈ p.armed) := by
  subst hn
  have hcache := hu.modCtl (fun n => { n with cache := (recordUsed s q a).2 })
  obtain ⟨ps, hsent, hfill⟩ := armCounted_fills hcache x input a
  rw [armAt_die h ((recordUsed_taken hu).trans (Prod.ext hx rfl)) hq]
  exact ⟨ps, hsent, fun he ho => hfill he fun _ => by rw [hcache.eq]; exact ho⟩

end

/-- Settles O22: by what the row finds at the input, the record that the node uses, and the kind of the node. -/
theorem armMerge : Obligations.ArmMerge := by
  unfold Obligations.ArmMerge
  refine ⟨fun node input s h => ?idle, ?_⟩
  case idle => rw [exec_armMerge, execArmMerge_idle h]
  intro node input a rest u s hn ho ht hu0
  rw [exec_armMerge, execArmMerge_takes hn ho ht, ← hu0]
  refine ⟨fun h => ?passes, fun hs h1 h2 h3 h4 => ?_⟩
  case passes => rw [armAt_passes h]
  have h : (a.reset || a.foreign || a.late || a.first) = false := by simp [h1, h2, h3, h4]
  have hix := nodeIx_qOf hn
  have hu : nodeIs (nodeIx (qOf node) true 0) s { s.ctlNode (nodeIx (qOf node) true 0) with inq := rest } u := by
    rw [hix, hu0]
    exact (nodeIs.refl hs.ctls node).modCtl (fun n => { n with inq := rest })
  have hrec : useRec (s.ctlNode node).cache (s.groupRec (qOf node) a.group) a.group = recordUsed s (qOf node) a := by
    rw [recordUsed, hix]
  rw [hrec]
  refine ⟨fun hr => ?foreign, fun x hx hf => ?counted⟩
  case foreign =>
    have hrec : recordUsed u (qOf node) a = ((recordUsed s (qOf node) a).1, (recordUsed s (qOf node) a).2) := recordUsed_taken hu
    refine ⟨(recordUsed s (qOf node) a).2, ?_⟩
    rw [armAt_foreign h hrec (by rw [hu.eq]; exact hr), hix, modCtl_eq]
  case counted =>
    refine ⟨_, rfl, ?_⟩
    by_cases hq : 33 ≤ qOf node
    · obtain ⟨ps, es, hsent, hfill⟩ := armAt_cluster_counts hu h hx hq (hf hq) rfl
      have hnode := hsent.node
      have hothers := hsent.others
      rw [hix] at hnode hothers hfill
      refine ⟨hsent.eq, by rw [hnode], hothers, fun _ => ⟨?_, hsent.inq hq, fun he => ?_⟩, fun hlt => absurd hlt (Nat.not_lt.mpr hq)⟩
      · rw [hnode]
        exact tget_tmod_self (hs.counts node) (64 * a.group + input) (· + 1)
      · rw [hnode]
        exact hfill he
    · have hlt := Nat.not_le.mp hq
      obtain ⟨ps, hsent, hfill⟩ := armAt_die_counts hu h hx hlt rfl
      have hnode := hsent.node
      have hothers := hsent.others
      rw [hix] at hnode hothers hfill
      refine ⟨hsent.eq, by rw [hnode], hothers, fun h33 => absurd h33 hq, fun _ => ⟨hsent.firings hlt, fun he hov => ?_⟩⟩
      rw [hnode]
      exact hfill he hov

end Sys2Proof.Proofs

/-! ### O23: ARMs at the kiln -/

namespace Sys2Proof.Proofs
open Sys2Proof.Machine

/-! Changing the first member of a list that passes. -/

section
variable {α : Type} {p : α → Bool} {f g : α → α}

theorem modFirst_append_last {xs : List α} {y : α} (hx : ∀ x ∈ xs, p x = false) (hy : p y = true) : modFirst p f (xs ++ [y]) = xs ++ [f y] := by
  induction xs with
  | nil => simp [modFirst, hy]
  | cons x xs ih =>
    obtain ⟨hx, hxs⟩ := List.forall_mem_cons.mp hx
    simp [modFirst, hx, ih hxs]

theorem modFirst_modFirst (h : ∀ x, p x = true → p (f x) = true) (xs : List α) :
    modFirst p g (modFirst p f xs) = modFirst p (fun x => g (f x)) xs := by
  induction xs with
  | nil => rfl
  | cons x xs ih =>
    cases hp : p x with
    | true => simp [modFirst, hp, h x hp]
    | false => simp [modFirst, hp, ih]

/-- The change is that of the member found. -/
theorem modFirst_eq_of_find? {xs : List α} {x : α} (h : xs.find? p = some x) : modFirst p f xs = modFirst p (fun _ => f x) xs := by
  induction xs with
  | nil => rfl
  | cons y ys ih =>
    cases hp : p y with
    | true =>
      obtain rfl : y = x := by simpa [hp] using h
      simp [modFirst, hp]
    | false => simp [modFirst, hp, ih (by simpa [hp] using h)]

end

theorem mem_addOnce_iff {x y : Nat} {xs : List Nat} : y ∈ addOnce xs x ↔ y ∈ xs ∨ y = x := by
  unfold addOnce
  split
  · next h => exact ⟨.inl, fun hy => hy.elim id fun he => he ▸ List.contains_iff_mem.mp h⟩
  · simp

theorem mem_foldl_addOnce {y : Nat} (ls : List Nat) : ∀ xs : List Nat, y ∈ ls.foldl addOnce xs ↔ y ∈ xs ∨ y ∈ ls := by
  induction ls with
  | nil => simp
  | cons l ls ih =>
    intro xs
    rw [List.foldl_cons, ih, mem_addOnce_iff, List.mem_cons, or_assoc]

/-! The answer to a foreign ARM (R295). -/

section
variable (s : State)

theorem sendDown_frame (m : CtlMsg) : s.sendDown m = { s with ctls := (s.sendDown m).ctls } :=
  foldl_rel (R := fun a b => b = { a with ctls := b.ctls }) (fun _ => rfl) (fun h k => by rw [k, h]) (fun _ _ => rfl) _ s

theorem armForeign_frame (a : Arm) : s.armForeign a = { s with ctls := (s.armForeign a).ctls } :=
  foldl_rel (R := fun a b => b = { a with ctls := b.ctls }) (fun _ => rfl) (fun h k => by rw [k, h])
    (fun a _ => sendDown_frame a _) _ s

theorem sendDown_to_one {m : CtlMsg} {l : Nat} (h : m.dst = [l]) : s.sendDown m = s.modCtl (dieCtl (l / 256)) (fun n =>
    { n.signal .down (s.ctlNode (nodeIx 0 true 0)).stat m.bytes with downq := n.downq ++ [m.withDst [l]] }) := by
  simp [State.sendDown, h, sortRise, insertRise]

/-- A message for one leaf waits at the die node that leads to it. -/
theorem downq_sendDown_to_one (hw : tableWf {} s.ctls = true) {m : CtlMsg} {l : Nat} (h : m.dst = [l]) :
    ((s.sendDown m).ctlNode (dieCtl (l / 256))).downq = (s.ctlNode (dieCtl (l / 256))).downq ++ [m.withDst [l]] := by
  rw [sendDown_to_one s h]
  exact congrArg CtlNode.downq (ctl_setCtl hw _ _)

theorem downq_answerLeaf (hw : tableWf {} s.ctls = true) (l : Nat) (e : EndMsg) :
    ((s.answerLeaf l e).ctlNode (dieCtl (l / 256))).downq = (s.ctlNode (dieCtl (l / 256))).downq
      ++ [.done { e with target := BitVec.ofNat 16 l, noGrant := true, fn := 0, setter := 0 } [l]] :=
  downq_sendDown_to_one s hw (m := .done { e with target := BitVec.ofNat 16 l, noGrant := true, fn := 0, setter := 0 } [l]) rfl

end

/-! The row. -/

/-- Whether the kiln has closed the position of an ARM (R296, R301). -/
def positionClosed (s : State) (a : Arm) : Bool :=
  decide (a.ord < (s.groupRun a.group).base) || ((s.posAt a.group a.ord).isNone && s.posOver a.group a.ord)

section
variable {input : Nat} {a : Arm} {rest : List (Nat × Arm)} {s : State}

theorem exec_armAtKiln (input : Nat) (s : State) : exec (.armAtKiln input) s = execArmAtKiln input s := rfl

theorem execArmAtKiln_idle (h : (s.ctlNode (nodeIx 0 true 0)).stat.pairOut = true ∨ takeInput input s.kiln.inq = none) :
    execArmAtKiln input s = .next s := by
  rcases h with h | h <;> simp [execArmAtKiln, h]

theorem execArmAtKiln_takes (ho : (s.ctlNode (nodeIx 0 true 0)).stat.pairOut = false) (ht : takeInput input s.kiln.inq = some (a, rest))
    {u : State} (hu : u = { s with kiln := { s.kiln with inq := rest } }) : execArmAtKiln input s
      = if a.reset then .next (u.armResets a.refIx.toNat).offer
        else if a.foreign then .next (u.armForeign a)
        else if positionClosed s a then .next u
        else if a.late then .next (u.armLate a)
        else if a.first then .next (u.armFirst a).offer
        else if a.abort then .next (u.armAborts a).offer
        else .next (u.armMerged input a).offer := by
  simp only [execArmAtKiln, ho, ht, Bool.false_eq_true, if_false, hu]
  rfl

theorem positionClosed_eq_true (h : a.ord < (s.groupRun a.group).base ∨ (s.posAt a.group a.ord = none ∧ s.posOver a.group a.ord = true)) :
    positionClosed s a = true := by
  rcases h with h | ⟨h, h'⟩ <;> simp [positionClosed, h]
  exact .inr h'

theorem positionClosed_eq_false (hb : (s.groupRun a.group).base ≤ a.ord) (h : s.posAt a.group a.ord = none → s.posOver a.group a.ord = false) :
    positionClosed s a = false := by
  cases hp : s.posAt a.group a.ord with
  | none => simp [positionClosed, Nat.not_lt.mpr hb, hp, h hp]
  | some f => simp [positionClosed, Nat.not_lt.mpr hb, hp]

end

/-! A position that an ARM opens (R292, R314). -/

/-- The state with a firing more. -/
def withFiring (s : State) (f : Firing) : State :=
  { s with kiln := { s.kiln with nextUid := s.kiln.nextUid + 1, firings := s.kiln.firings ++ [f] } }

/-- A firing with leaves counted as having armed it. -/
def armedToo (ls : List Nat) (f : Firing) : Firing := { f with armedBy := ls.foldl addOnce f.armedBy }

/-- The leaves that an ARM at the kiln shows to have armed its position, by what it merges and by the records below (R298). -/
def armersOf (s : State) (a : Arm) : List Nat := a.who.map (·.1) ++ s.armedBelow a.group a.ord

/-- The firing of a position that an ARM opens. -/
def openedBy (s : State) (a : Arm) (k : Nat) : Firing := armedToo (armersOf s a) (s.newFiring a.group a.ord k)

section
variable {s : State} {f : Firing}

theorem uid_ne_nextUid (hs : canonical s) : ∀ x ∈ s.kiln.firings, (x.uid == s.kiln.nextUid) = false := fun x hx =>
  beq_eq_false_iff_ne.mpr (Nat.ne_of_lt (hs.fresh x hx))

theorem modFiring_withFiring (hs : canonical s) (hf : f.uid = s.kiln.nextUid) (h : Firing → Firing) :
    (withFiring s f).modFiring s.kiln.nextUid h = withFiring s (h f) := by
  have hlast := modFirst_append_last (f := h) (uid_ne_nextUid hs) (beq_iff_eq.mpr hf)
  simp only [State.modFiring, State.modKiln, withFiring, hlast]

theorem firing?_withFiring (hs : canonical s) (hf : f.uid = s.kiln.nextUid) : (withFiring s f).firing? s.kiln.nextUid = some f := by
  have hnone : s.kiln.firings.find? (fun x => x.uid == s.kiln.nextUid) = none :=
    List.find?_eq_none.mpr fun x hx => by rw [uid_ne_nextUid hs x hx]; nofun
  simp [State.firing?, withFiring, List.find?_append, hnone, hf]

theorem position_opens {g ord k : Nat} (h : s.posAt g ord = none) (hk : s.cfg.groupSaggar g = some k) :
    s.position g ord = some (withFiring s (s.newFiring g ord k), s.kiln.nextUid) := by
  simp only [State.position, h, hk]
  rfl

theorem position_open {g ord : Nat} (h : s.posAt g ord = some f) : s.position g ord = some (s, f.uid) := by
  simp [State.position, h]

variable {a : Arm} {k : Nat}

theorem noteArmed_opened (hs : canonical s) : (withFiring s (s.newFiring a.group a.ord k)).noteArmed s.kiln.nextUid (armersOf s a)
    = withFiring s (openedBy s a k) := modFiring_withFiring hs rfl (armedToo (armersOf s a))

/-- The notice of a first ARM opens its position. -/
theorem armFirst_opens (hs : canonical s) (hp : s.posAt a.group a.ord = none) (ho : s.posOver a.group a.ord = false)
    (hk : s.cfg.groupSaggar a.group = some k) (he : s.firstArmEnd a.group = none) : s.armFirst a = withFiring s (openedBy s a k) := by
  have hend : (withFiring s (openedBy s a k)).firstArmEnd a.group = none := he
  have hnoted := noteArmed_opened (a := a) (k := k) hs
  rw [armersOf] at hnoted
  simp [State.armFirst, ho, position_opens hp hk, hnoted, hp, hend]

end

/-! A merged ARM (R298, R305). -/

/-- The group record that the kiln uses for an ARM, and its cache afterwards (R483). -/
def kilnRecord (s : State) (a : Arm) : Option GroupRec × List GroupRec := useRec s.kiln.cache (s.groupRec 0 a.group) a.group

/-- A firing with an ARM of an input merged. -/
def mergedWith (a : Arm) (input : Nat) (f : Firing) : Firing :=
  { f with arm := if f.arm.who.isEmpty then a else mergeArm f.arm a, armedIn := addOnce f.armedIn input }

/-- The kiln after it has used a group record for an ARM and merged the ARM into its firing. -/
def armJoined (t : State) (uid : Nat) (c : List GroupRec) (a : Arm) (input : Nat) : State :=
  (t.modKiln (fun k => { k with cache := c })).modFiring uid (mergedWith a input)

section
variable {s t : State} {f : Firing} {a : Arm} {input uid : Nat} {r : GroupRec} {c : List GroupRec}

/-- A merged ARM of a position that goes on: it joins the firing, and completes its arming once nothing is left to arm. -/
theorem armMerged_joins (hp : s.position a.group a.ord = some (t, uid)) {v : State}
    (hv : v = t.noteArmed uid (armersOf s a)) (hf : v.firing? uid = some f) (hst : f.st ≠ .ended)
    (hc : f.cause = none) (he : s.posAt a.group a.ord = none → v.firstArmEnd a.group = none)
    (hr : kilnRecord v a = (some r, c)) : s.armMerged input a
      = if r.inputs.all (fun i => v.inputDone 0 a.group i (addOnce f.armedIn input)) then (armJoined v uid c a input).armComplete uid
        else armJoined v uid c a input := by
  have hst' : (f.st == .ended) = false := beq_eq_false_iff_ne.mpr hst
  have hend : (if (s.posAt a.group a.ord).isNone = true then v.firstArmEnd a.group else none) = none := by
    split
    · next h => exact he (Option.isNone_iff_eq_none.mp h)
    · rfl
  rw [armersOf] at hv
  rw [kilnRecord] at hr
  simp only [State.armMerged, hp, ← hv, hf, hst', hc, hend, hr, Bool.false_eq_true, if_false, Option.isSome_none]
  rfl

/-- The first that the kiln learns of a position is a merged ARM that leaves others to wait for. -/
theorem armMerged_opens (hs : canonical s) (hp : s.posAt a.group a.ord = none) {k : Nat} (hk : s.cfg.groupSaggar a.group = some k)
    (he : s.firstArmEnd a.group = none) (hr : (kilnRecord s a).1 = some r)
    (hw : ∃ i ∈ r.inputs, s.inputDone 0 a.group i [input] = false) : s.armMerged input a
      = withFiring { s with kiln := { s.kiln with cache := (kilnRecord s a).2 } } (mergedWith a input (openedBy s a k)) := by
  have hf := firing?_withFiring (f := openedBy s a k) hs rfl
  rw [armMerged_joins (position_opens hp hk) (noteArmed_opened hs).symm hf nofun rfl (fun _ => he) (Prod.ext hr rfl), if_neg]
  · exact modFiring_withFiring (hs.modKiln_same (fun k => { k with cache := (kilnRecord s a).2 }) rfl rfl) rfl _
  · obtain ⟨i, hi, hd⟩ := hw
    exact fun hall => absurd ((List.all_eq_true.mp hall i hi).symm.trans hd) nofun

/-- A merged ARM of a position that the kiln knows. -/
theorem armMerged_known (hs : canonical s) (hp : s.posAt a.group a.ord = some f) (hst : f.st ≠ .ended) (hc : f.cause = none)
    (hr : (kilnRecord s a).1 = some r) {g : Firing} (hg : g = mergedWith a input (armedToo (armersOf s a) f))
    {v : State} (hv : v = { s with kiln := { s.kiln with
      firings := modFirst (fun x => x.uid == f.uid) (fun _ => g) s.kiln.firings, cache := (kilnRecord s a).2 } }) :
    ((∀ i ∈ r.inputs, s.inputDone 0 a.group i (addOnce f.armedIn input) = true) → s.armMerged input a = v.armComplete f.uid)
    ∧ ((∃ i ∈ r.inputs, s.inputDone 0 a.group i (addOnce f.armedIn input) = false) → s.armMerged input a = v) := by
  have hfind : s.firing? f.uid = some f := find?_eq_some_of_nodup_map hs.single (List.mem_of_find?_eq_some hp)
  have hnoted : (s.noteArmed f.uid (armersOf s a)).firing? f.uid = some (armedToo (armersOf s a) f) :=
    (firing?_modFiring s (f := armedToo (armersOf s a)) (fun _ => rfl)).trans (congrArg (Option.map _) hfind)
  have hjoined : armJoined (s.noteArmed f.uid (armersOf s a)) f.uid (kilnRecord (s.noteArmed f.uid (armersOf s a)) a).2 a input = v := by
    rw [hv, hg, ← modFirst_eq_of_find? (f := fun x => mergedWith a input (armedToo (armersOf s a) x)) hfind,
      ← modFirst_modFirst (p := fun x : Firing => x.uid == f.uid) (f := armedToo (armersOf s a)) (fun _ hx => hx)]
    rfl
  rw [armMerged_joins (position_open hp) rfl hnoted hst hc (fun h => nomatch h.symm.trans hp) (Prod.ext hr rfl), hjoined]
  exact ⟨fun hall => if_pos (List.all_eq_true.mpr hall),
    fun ⟨i, hi, hd⟩ => if_neg fun hall => Bool.false_ne_true (hd.symm.trans (List.all_eq_true.mp hall i hi))⟩

end

/-- Settles O23: by the order of the row's branches, what an ARM opens, and what a merged ARM joins. -/
theorem armAtKiln : Obligations.ArmAtKiln := by
  unfold Obligations.ArmAtKiln
  refine ⟨fun input s h => ?idle, fun input a rest u s ho ht hu => ?_⟩
  case idle => rw [exec_armAtKiln, execArmAtKiln_idle h]
  have hcan : canonical s → canonical u := fun hs => hu ▸ hs.modKiln_same (fun k => { k with inq := rest }) rfl rfl
  rw [exec_armAtKiln, execArmAtKiln_takes ho ht hu]
  refine ⟨fun h => by rw [if_pos h], fun h1 h2 => ?foreign, fun h1 h2 h => ?closed, fun h1 h2 hb hover => ?_⟩
  case foreign =>
    refine ⟨u.armForeign a, by rw [if_neg (by rw [h1]; nofun), if_pos h2], armForeign_frame u a, fun l n hs hw => ?_⟩
    rw [State.armForeign, hw, hu]
    exact downq_answerLeaf _ hs.ctls l _
  case closed => simp only [h1, h2, positionClosed_eq_true h, Bool.false_eq_true, if_false, if_true]
  have hopen := positionClosed_eq_false hb hover
  simp only [h1, h2, hopen, Bool.false_eq_true, if_false]
  refine ⟨fun h3 => by rw [if_pos h3], fun h3 h4 h5 => ?abort, fun k hs h3 h4 hp hk he => ?first, fun k r hs h3 h4 h5 hp hk he hr hw => ?opens,
    fun f r hs h3 h4 h5 hp hst hc hr => ?known⟩
  case abort => simp only [h3, h4, h5, Bool.false_eq_true, if_false, if_true]
  case first =>
    simp only [h3, h4, Bool.false_eq_true, if_false, if_true]
    subst hu
    refine ⟨openedBy _ a k, congrArg (fun t => Host.Outcome.next (State.offer t)) (armFirst_opens (hcan hs) hp (hover hp) hk he),
      rfl, rfl, rfl, rfl, rfl, rfl, rfl, rfl, rfl, rfl, fun e hw => ?_⟩
    exact (mem_foldl_addOnce _ _).mpr (.inr (List.mem_append_left _ (List.mem_map_of_mem hw)))
  case opens =>
    simp only [h3, h4, h5, Bool.false_eq_true, if_false]
    subst hu
    obtain ⟨i, hi, -, hd⟩ := hw
    exact ⟨_, _, congrArg (fun t => Host.Outcome.next (State.offer t)) (armMerged_opens (hcan hs) hp hk he hr ⟨i, hi, hd⟩),
      rfl, rfl, rfl, rfl, rfl, rfl, rfl, rfl, rfl⟩
  case known =>
    simp only [h3, h4, h5, Bool.false_eq_true, if_false]
    subst hu
    have ⟨hall, hsome⟩ := armMerged_known (hcan hs) (input := input) hp hst hc hr rfl rfl
    exact ⟨mergedWith a input (armedToo (armersOf { s with kiln := { s.kiln with inq := rest } } a) f), (kilnRecord s a).2, _, rfl, rfl,
      fun h => congrArg (fun t => Host.Outcome.next (State.offer t)) (hall h), fun h => congrArg (fun t => Host.Outcome.next (State.offer t)) (hsome h)⟩

end Sys2Proof.Proofs

/-! ### A mailbox command that passes the shared checks -/

namespace Sys2Proof.Proofs
open Sys2Proof.Machine

section
variable {s : State} {p code : Nat} {q : Req} {run : State → Req → Reply} {r : Reply}

theorem put_nextRequest (h : q.code ≠ 1) (hl : r.later = false) (v : Byte × Byte) :
    (r.put q v).nextRequest = answer r.st q v r.err r.detail r.more r.data (r.effect && r.err == 0) := by
  have hcode : (q.code == 1) = false := beq_eq_false_iff_ne.mpr h
  simp only [Reply.put, hcode, hl, Bool.false_eq_true, if_false, modPort_eq]
  cases r.effect && r.err == 0 <;> rfl

/-- A command's row takes the request that is ready, carries it out and answers (R426). -/
theorem command_of_ready (hr : ready s p code q) (hc : code ≠ 1) (hrun : run (served s p) q = r) (hl : r.later = false) :
    s.command p code run = answer r.st q (s.port p).version r.err r.detail r.more r.data (r.effect && r.err == 0) := by
  obtain ⟨hserves, hnext, hswaps, hreq, hcode, hpass⟩ := hr
  have hport : q.port = p := hreq ▸ rfl
  have htakes : s.takesNow = some q := by simp [State.takesNow, hnext, hreq, hswaps, hcode, hserves]
  have htaken : s.taken? p code = some q := by simp [State.taken?, htakes, hport, hcode]
  have hverdict : (s.modCtlr (fun c => { c with lastPort := q.port })).verdict q = .pass := hpass
  simp only [State.command, htaken, State.carryOut, hverdict]
  rw [hport]
  change (Reply.put (run (served s p) q) q (s.port p).version).nextRequest = _
  rw [hrun, put_nextRequest (hcode ▸ hc) hl]

variable {i : Instr}

theorem exec_answers (hi : exec i s = .next (s.command p code run)) (hr : ready s p code q) (hc : code ≠ 1)
    (hrun : run (served s p) q = r) (hl : r.later = false) :
    exec i s = .next (answer r.st q (s.port p).version r.err r.detail r.more r.data (r.effect && r.err == 0)) := by
  rw [hi, command_of_ready hr hc hrun hl]

theorem exec_answers_ok (hi : exec i s = .next (s.command p code run)) (hr : ready s p code q) (hc : code ≠ 1) {t : State}
    {data : List Byte} {effect : Bool} (hrun : run (served s p) q = .ok t data effect) :
    exec i s = .next (answer t q (s.port p).version 0 0 false data effect) := by
  rw [exec_answers hi hr hc hrun rfl]
  simp only [Reply.ok, beq_self_eq_true, Bool.and_true]

theorem refuses_of_run {err d : Nat} (hi : exec i s = .next (s.command p code run)) (hr : ready s p code q) (hc : code ≠ 1)
    (hrun : run (served s p) q = .refuse (served s p) err d) : refuses s p q i err d := by
  rw [refuses, exec_answers hi hr hc hrun rfl]
  simp only [Reply.refuse, Bool.false_and]

end

end Sys2Proof.Proofs

/-! ### O52: FIRING_QUERY, FIRING_ABORT, COUNTER_READ and DEBUG_ACC_READ -/

namespace Sys2Proof.Proofs
open Sys2Proof.Machine

theorem exec_firingQuery (p : Nat) (s : State) : exec (.firingQuery p) s = .next (s.command p 0x0301 runFiringQuery) := rfl
theorem exec_firingAbort (p : Nat) (s : State) : exec (.firingAbort p) s = .next (s.command p 0x0302 runFiringAbort) := rfl
theorem exec_counterRead (p : Nat) (s : State) : exec (.counterRead p) s = .next (s.command p 0x0401 runCounterRead) := rfl
theorem exec_debugAccRead (p : Nat) (s : State) : exec (.debugAccRead p) s = .next (s.command p 0x0805 runDebugAccRead) := rfl

/-! What an end can change (R309, R311): each part of it changes the kiln, the nodes, the deposit port and records only. -/

section
variable (s : State) (f : Firing)

theorem kilnOnly_ite {c : Prop} [Decidable c] {s t u : State} (ht : kilnOnly s t) (hu : kilnOnly s u) : kilnOnly s (if c then t else u) := by
  split <;> assumption

theorem kilnOnly_sendDown (m : CtlMsg) : kilnOnly s (s.sendDown m) := ⟨by rw [sendDown_frame]⟩

theorem kilnOnly_countWait : kilnOnly s (s.countWait f) := by
  unfold State.countWait
  dsimp only
  exact kilnOnly_ite (.refl s) ⟨rfl⟩

theorem kilnOnly_dropSlots (planes : List Nat) (early : Bool) : kilnOnly s (s.dropSlots f planes early) := by
  unfold State.dropSlots
  split
  · exact .refl s
  · exact foldl_rel .refl .trans (fun a _ => foldl_rel .refl .trans (fun _ _ => ⟨rfl⟩) _ a) planes s

theorem kilnOnly_digestUpdate (st : BitVec 8) (r : Quad) : kilnOnly s (s.digestUpdate f st r) := by
  unfold State.digestUpdate
  split
  · exact .refl s
  · exact ⟨rfl⟩

theorem kilnOnly_kaccEnd (st : BitVec 8) : kilnOnly s (s.kaccEnd f st) := kilnOnly_ite ⟨rfl⟩ (.refl s)

theorem kilnOnly_fenceIfFull : kilnOnly s (s.fenceIfFull f) :=
  kilnOnly_ite (.trans ⟨rfl⟩ (recordsOnly_firingEvent ..).kilnOnly) (.refl s)

theorem kilnOnly_poisonEvent (e : EndMsg) : kilnOnly s (s.poisonEvent f e) := kilnOnly_ite (faultsOnly_fault ..).kilnOnly (.refl s)

theorem kilnOnly_finishEnd (uid : Nat) : kilnOnly s (s.finishEnd uid) := by
  unfold State.finishEnd
  split
  · exact .refl s
  split
  · exact .refl s
  extract_lets ran early e sent waited x dropped summed fenced ended resting recorded
  have hwaited : kilnOnly s waited := (kilnOnly_ite (kilnOnly_sendDown s _) (kilnOnly_sendDown s _)).trans (kilnOnly_countWait sent _)
  have hdropped : kilnOnly s dropped :=
    kilnOnly_ite (((hwaited.trans (kilnOnly_dropSlots _ _ _ _)).trans ⟨rfl⟩).trans (kilnOnly_digestUpdate _ _ _ _)) hwaited
  have hsummed : kilnOnly s summed := kilnOnly_ite (hdropped.trans (kilnOnly_kaccEnd _ _ _)) hdropped
  have hended : kilnOnly s ended := (hsummed.trans (kilnOnly_fenceIfFull _ _)).trans ⟨rfl⟩
  have hresting : kilnOnly s resting := kilnOnly_ite (hended.trans ⟨rfl⟩) hended
  have hrecorded : kilnOnly s recorded :=
    ((hresting.trans (recordsOnly_traceOffer _ _ _ _).kilnOnly).trans (kilnOnly_poisonEvent _ _ _)).trans ⟨rfl⟩
  exact hrecorded.trans ⟨rfl⟩

theorem kilnOnly_sendEnds (fuel g : Nat) : ∀ s : State, kilnOnly s (s.sendEnds fuel g) := by
  induction fuel with
  | zero => exact .refl
  | succ fuel ih =>
    intro s
    rw [State.sendEnds]
    split
    · exact .refl s
    · exact ((kilnOnly_finishEnd s _).trans ⟨rfl⟩).trans (ih _)

theorem kilnOnly_decideEnd (uid : Nat) (st : BitVec 8) (rank code : Nat) : kilnOnly s (s.decideEnd uid st rank code) := by
  unfold State.decideEnd
  split
  · exact .refl s
  · exact kilnOnly_ite (.refl s) (kilnOnly_ite (.trans ⟨rfl⟩ (kilnOnly_finishEnd _ _)) (.trans ⟨rfl⟩ (kilnOnly_sendEnds _ _ _)))

end

/-! The firing that a request selects (R444, R450, R451). -/

section
variable {s : State} {q : Req} {f : Firing} {err d : Nat}

theorem mayFiring_error (h : (1 < q.num 0 1 ∧ err = erInvalid ∧ d = 32)
      ∨ (q.num 0 1 ≤ 1 ∧ s.selected q = none ∧ err = erNotFound ∧ d = 0)
      ∨ (q.num 0 1 ≤ 1 ∧ s.asPriv q = false ∧ (∃ f, s.selected q = some f ∧ f.saggar ≠ q.saggar) ∧ err = erDenied ∧ d = 2)) :
    s.mayFiring q = .error (err, d) := by
  rcases h with ⟨hn, rfl, rfl⟩ | ⟨hn, hf, rfl, rfl⟩ | ⟨hn, hpriv, ⟨f, hf, hsag⟩, rfl, rfl⟩
  · simp [State.mayFiring, hn]
  · simp [State.mayFiring, Nat.not_lt.mpr hn, hf]
  · simp [State.mayFiring, Nat.not_lt.mpr hn, hf, hpriv, hsag]

theorem mayFiring_ok (hn : q.num 0 1 ≤ 1) (hf : s.selected q = some f) (hmay : s.asPriv q = true ∨ f.saggar = q.saggar) :
    s.mayFiring q = .ok f := by
  rcases hmay with h | h <;> simp [State.mayFiring, Nat.not_lt.mpr hn, hf, h]

theorem runFiringQuery_error (h : s.mayFiring q = .error (err, d)) : runFiringQuery s q = .refuse s err d := by
  simp [runFiringQuery, h]

theorem runFiringQuery_ok (h : s.mayFiring q = .ok f) : runFiringQuery s q = .ok s (leBytes 48 (s.firingRecord f).toNat) false := by
  simp [runFiringQuery, h]

theorem runFiringAbort_error (h : s.mayFiring q = .error (err, d)) : runFiringAbort s q = .refuse s err d := by
  simp [runFiringAbort, h]

theorem runFiringAbort_ended (h : s.mayFiring q = .ok f) {st : BitVec 8} (hd : f.decided = some st) :
    runFiringAbort s q = .refuse s erAlreadyEnded st.toNat := by
  simp [runFiringAbort, h, hd]

theorem runFiringAbort_ok (h : s.mayFiring q = .ok f) (hd : f.decided = none) : runFiringAbort s q
    = .ok ((s.decideEnd f.uid stAborted 0xFFFF 0).afterEnd f.group) (leBytes 8 0 ++ leBytes 6 f.fn.toNat) true := by
  simp [runFiringAbort, h, hd]

end

/-! Counters (R449). -/

section
variable {s : State} {q : Req} {k : CounterKind} {hi n : Nat}

theorem runCounterRead_reserved (h : counterKind (q.num 0 2) = none) : runCounterRead s q = .refuse s erInvalid 32 := by
  simp only [runCounterRead, h]

theorem runCounterRead_outside (hk : counterKind (q.num 0 2) = some k) (h : k.hi (q.num 4 4) = none) :
    runCounterRead s q = .refuse s erInvalid 36 := by
  simp only [runCounterRead, hk, h]

/-- The answer of COUNTER_READ with `n` counters. -/
def countersReply (s : State) (q : Req) (hi n : Nat) : Reply :=
  { st := if q.num 12 1 = 1 then (upFrom (q.num 4 4) n).foldl (fun a i => a.zeroCounter (q.num 0 2) i) s else s
    more := decide (q.num 4 4 + n < hi)
    data := leBytes 4 (q.num 0 2) ++ leBytes 4 n ++ leBytes 8 (q.num 4 4 + n)
      ++ ((upFrom (q.num 4 4) n).map (fun i => leBytes 8 (s.counter (q.num 0 2) i))).flatten
    effect := q.num 12 1 == 1 }

theorem listReply_counters (hn : n = min (min (q.num 8 4) (hi - q.num 4 4)) 506) (entry : Nat → List Byte) :
    listReply s (q.num 0 2) (q.num 4 4) (q.num 8 4) hi 8 entry
      = { st := s, more := decide (q.num 4 4 + n < hi)
          data := leBytes 4 (q.num 0 2) ++ leBytes 4 n ++ leBytes 8 (q.num 4 4 + n) ++ ((upFrom (q.num 4 4) n).map entry).flatten } := by
  rw [hn]
  rfl

section
variable (hk : counterKind (q.num 0 2) = some k) (hhi : k.hi (q.num 4 4) = some hi)
include hk hhi

theorem runCounterRead_restart (hr : 1 < q.num 12 1) : runCounterRead s q = .refuse s erInvalid 44 := by
  simp only [runCounterRead, hk, hhi, if_pos hr]

variable (hr : q.num 12 1 ≤ 1)
include hr

theorem runCounterRead_denied {d : Nat} (ho : k.owned (q.num 4 4) = true) (hd : s.denied q .ownerOrPriv = some d) :
    runCounterRead s q = .refuse s erDenied d := by
  simp only [runCounterRead, hk, hhi, if_neg (Nat.not_lt.mpr hr), if_pos ho, hd]

variable (hn : n = min (min (q.num 8 4) (hi - q.num 4 4)) 506)
include hn

/-- COUNTER_READ of a range that exists, by a requester that its permission admits (R449). -/
theorem runCounterRead_admitted (hd : (if k.owned (q.num 4 4) then s.denied q .ownerOrPriv else none) = none) : runCounterRead s q
      = if k.owned (q.num 4 4) && !s.asPriv q && !(upFrom (q.num 4 4) n).all (s.mineCounter k q.saggar) then .refuse s erDenied 2
        else countersReply s q hi n := by
  have hrun : runOf (q.num 4 4) (q.num 8 4) hi 8 4048 = (n, q.num 4 4 + n) := by rw [hn]; rfl
  simp only [runCounterRead, hk, hhi, if_neg (Nat.not_lt.mpr hr), hd, hrun, listReply_counters hn]
  congr 1
  rw [countersReply]
  split
  · next h => simp [h]
  · next h => simp [h]

theorem runCounterRead_foreign (ho : k.owned (q.num 4 4) = true) (hd : s.denied q .ownerOrPriv = none) (hp : s.asPriv q = false)
    (hm : (upFrom (q.num 4 4) n).all (s.mineCounter k q.saggar) = false) : runCounterRead s q = .refuse s erDenied 2 := by
  rw [runCounterRead_admitted hk hhi hr hn (by rw [if_pos ho, hd])]
  simp [ho, hp, hm]

theorem runCounterRead_ok (hmay : k.owned (q.num 4 4) = true → s.denied q .ownerOrPriv = none
      ∧ (s.asPriv q = true ∨ (upFrom (q.num 4 4) n).all (s.mineCounter k q.saggar) = true)) :
    runCounterRead s q = countersReply s q hi n := by
  cases ho : k.owned (q.num 4 4) with
  | false => simp [runCounterRead_admitted hk hhi hr hn, ho]
  | true =>
    obtain ⟨hd, hp | hm⟩ := hmay ho
    · simp [runCounterRead_admitted hk hhi hr hn, hd, hp]
    · simp [runCounterRead_admitted hk hhi hr hn, hd, hm]

end

end

theorem counter_zeroCounter {s : State} (h : canonical s) (i : Nat) :
    (s.zeroCounter 0x0901 i).counter 0x0901 i = 0 ∧ (s.zeroCounter 0x0A01 i).counter 0x0A01 i = 0
      ∧ (s.zeroCounter 0x0C01 i).counter 0x0C01 i = 0 ∧ (s.zeroCounter 0x0C0A i).counter 0x0C0A i = 0 := by
  refine ⟨?leaf, ?die, ?link, rfl⟩
  case leaf => exact congrArg (fun x => x.armLast.toNat) (leaf_setLeaf h.leaves i _)
  case die => exact congrArg (fun x => x.passes.toNat) (die_setDie h.dies i _)
  case link => exact congrArg (fun x => x.crcErr.toNat) (link_setLink h.links i _)

/-! Accumulators under debug (R183, R454). -/

section
variable {s : State} {q : Req}

theorem runDebugAccRead_reserved (h : 1 < q.num 0 1) : runDebugAccRead s q = .refuse s erInvalid 32 := by simp [runDebugAccRead, h]

section
variable (h0 : q.num 0 1 = 0)
include h0

theorem runDebugAccRead_noLeaf (hl : s.leafExists (q.num 2 2) = false) : runDebugAccRead s q = .refuse s erInvalid 34 := by
  simp [runDebugAccRead, h0, hl]

theorem runDebugAccRead_noBisque (hl : s.leafExists (q.num 2 2) = true) (hi : 4 ≤ q.num 4 1) :
    runDebugAccRead s q = .refuse s erInvalid 36 := by
  simp [runDebugAccRead, h0, hl, hi]

theorem runDebugAccRead_bisque (hl : s.leafExists (q.num 2 2) = true) (hi : q.num 4 1 < 4) : runDebugAccRead s q
    = if (tget {} (s.leaf (q.num 2 2)).bisque (q.num 4 1)).tags = [] then .ok s (tget {} (s.leaf (q.num 2 2)).bisque (q.num 4 1)).debug false
      else .refuse s erBusy 5 := by
  simp [runDebugAccRead, h0, hl, Nat.not_le.mpr hi]

end

variable (h1 : q.num 0 1 = 1)
include h1

theorem runDebugAccRead_noElement (hi : 64 ≤ q.num 5 1) : runDebugAccRead s q = .refuse s erInvalid 37 := by
  simp [runDebugAccRead, h1, hi]

theorem runDebugAccRead_kacc (hi : q.num 5 1 < 64) : runDebugAccRead s q
    = if (s.kacc (q.num 4 1)).holder = none then .ok s ((s.kacc (q.num 4 1)).debug (q.num 5 1)) false else .refuse s erBusy 5 := by
  cases hk : (s.kacc (q.num 4 1)).holder <;> simp [runDebugAccRead, h1, Nat.not_le.mpr hi, hk]

end

/-- Settles O52: each command by the reply of its own part, which the row puts into the port. -/
theorem firingsAndCounters : Obligations.FiringsAndCounters := by
  unfold Obligations.FiringsAndCounters
  refine ⟨fun p q s => ⟨fun err d h => ?refused, fun f hn hf hmay => ?selected⟩, fun p q s => ⟨fun hr => ?counters, fun i h => counter_zeroCounter h i,
    fun hr => ?accumulators⟩⟩
  case refused =>
    have hmay : (served s p).mayFiring q = .error (err, d) := mayFiring_error h
    exact ⟨fun hr => refuses_of_run (exec_firingQuery p s) hr (by decide) (runFiringQuery_error hmay),
      fun hr => refuses_of_run (exec_firingAbort p s) hr (by decide) (runFiringAbort_error hmay)⟩
  case selected =>
    have hmay : (served s p).mayFiring q = .ok f := mayFiring_ok hn hf hmay
    refine ⟨fun hr => exec_answers_ok (exec_firingQuery p s) hr (by decide) (runFiringQuery_ok hmay),
      fun hr hd => ⟨_, exec_answers_ok (exec_firingAbort p s) hr (by decide) (runFiringAbort_ok hmay hd), rfl, kilnOnly_decideEnd _ _ _ _ _⟩,
      fun hr st hd => refuses_of_run (exec_firingAbort p s) hr (by decide) (runFiringAbort_ended hmay hd)⟩
  case counters =>
    refine ⟨fun h => refuses_of_run (exec_counterRead p s) hr (by decide) (runCounterRead_reserved h), fun k hk =>
      ⟨fun h => refuses_of_run (exec_counterRead p s) hr (by decide) (runCounterRead_outside hk h), fun hi n hhi hn => ⟨fun h => ?_,
        fun h ho d hd => ?_, fun h ho hd hp hm => ?_, fun h hmay => ?_⟩⟩⟩
    · exact refuses_of_run (exec_counterRead p s) hr (by decide) (runCounterRead_restart hk hhi h)
    · exact refuses_of_run (exec_counterRead p s) hr (by decide) (runCounterRead_denied hk hhi h ho hd)
    · exact refuses_of_run (exec_counterRead p s) hr (by decide) (runCounterRead_foreign hk hhi h hn ho hd hp hm)
    · rw [exec_answers (exec_counterRead p s) hr (by decide) (runCounterRead_ok hk hhi h hn hmay) rfl]
      simp only [countersReply, beq_self_eq_true, Bool.and_true]
      rfl
  case accumulators =>
    have hexec := exec_debugAccRead p s
    refine ⟨fun h => refuses_of_run hexec hr (by decide) (runDebugAccRead_reserved h), fun h0 b hb => ?_, fun h1 => ?_⟩
    · refine ⟨fun hl => refuses_of_run hexec hr (by decide) (runDebugAccRead_noLeaf h0 hl),
        fun hl hi => refuses_of_run hexec hr (by decide) (runDebugAccRead_noBisque h0 hl hi), fun hl hi => ?_⟩
      subst hb
      have hrun := runDebugAccRead_bisque (s := served s p) h0 hl hi
      exact ⟨fun ht => exec_answers_ok hexec hr (by decide) (hrun.trans (if_pos ht)),
        fun ht => refuses_of_run hexec hr (by decide) (hrun.trans (if_neg ht))⟩
    · have hrun := runDebugAccRead_kacc (s := served s p) h1
      exact ⟨fun hi => refuses_of_run hexec hr (by decide) (runDebugAccRead_noElement h1 hi),
        fun hi hk => refuses_of_run hexec hr (by decide) ((hrun hi).trans (if_neg hk)),
        fun hi hk => exec_answers_ok hexec hr (by decide) ((hrun hi).trans (if_pos hk))⟩

end Sys2Proof.Proofs

/-! ### O8: the reference, the pace generator and the pacing mode -/

namespace Sys2Proof.Proofs
open Sys2Proof.Machine

theorem exec_refLost (s : State) : exec .refLost s = execRefLost s := rfl
theorem exec_refReturn (s : State) : exec .refReturn s = execRefReturn s := rfl
theorem exec_paceLock (s : State) : exec .paceLock s = execPaceLock s := rfl
theorem exec_paceSwitch (s : State) : exec .paceSwitch s = execPaceSwitch s := rfl

/-! A change of pacing at the die slices (R357). -/

/-- The die slices after a row that stops or resumes pacing, where `changes` says that it does. -/
def pacedDies (changes : Bool) (s : State) : Table Die := if changes then s.pacingChanged.dies else s.dies

section
variable (s : State)

theorem pacingChanged_frame : s.pacingChanged = { s with dies := s.pacingChanged.dies } :=
  foldl_rel (R := fun a b => b = { a with dies := b.dies }) (fun _ => rfl) (fun h k => by rw [k, h]) (fun _ _ => rfl) (List.range s.n) s

theorem pacingChanged_dies : s.pacingChanged.dies
    = (List.range s.n).foldl (fun t d => tmod {} t d (fun x => { x with passedPace := false })) s.dies :=
  (List.foldl_hom State.dies (fun _ _ => rfl)).symm

theorem tget_pacedDies (hs : tableWf {} s.dies = true) (d : Nat) :
    tget {} (pacedDies true s) d = if d < s.n then { s.die d with passedPace := false } else s.die d := by
  rw [pacedDies, if_pos rfl, pacingChanged_dies]
  split
  · next hd => exact tget_foldl_tmod (key := id) (List.range s.n) hs (by simpa using List.nodup_range) (List.mem_range.mpr hd)
  · next hd =>
    refine tget_foldl_tmod_out (key := id) (List.range s.n) fun e he hed => hd ?_
    exact hed ▸ List.mem_range.mp he

/-- The state once the reference is lost, before its event. -/
def referenceLost : State := { s with refLost := true, paceLocked := false, dies := pacedDies s.paceActive s }

/-- The state once the pace generator is locked. -/
def generatorLocked : State := { s with paceLocked := true, dies := pacedDies (s.paceMode && !s.paceLocked) s }

theorem pacingChanged_locked : State.pacingChanged { s with paceLocked := true } = { s with paceLocked := true, dies := s.pacingChanged.dies } := by
  rw [pacingChanged_frame, pacingChanged_dies, pacingChanged_dies]
  rfl

end

/-! The rows of the reference and of the pace generator (R336, R337). -/

section
variable {s : State}

theorem execRefLost_idle (h : s.awake = false ∨ s.refLost = true) : execRefLost s = .next s := by
  rcases h with h | h <;> simp [execRefLost, h]

theorem execRefLost_loses (ha : s.awake = true) (hr : s.refLost = false) : execRefLost s = .next ((referenceLost s).timingEvent 1 0) := by
  cases hp : s.paceActive with
  | false => simp [execRefLost, ha, hr, hp, referenceLost, pacedDies]
  | true =>
    simp only [execRefLost, ha, hr, hp, referenceLost, pacedDies, Bool.not_true, Bool.or_self, Bool.false_eq_true, if_false, if_true]
    rw [pacingChanged_frame]

theorem execRefReturn_idle (h : s.refLost = false) : execRefReturn s = .next s := by
  simp [execRefReturn, h]

theorem execRefReturn_returns (h : s.refLost = true) : execRefReturn s = .next (State.timingEvent { s with refLost := false } 2 0) := by
  simp [execRefReturn, h]

theorem execPaceLock_idle (h : s.awake = false ∨ s.refLost = true) : execPaceLock s = .next s := by
  rcases h with h | h <;> simp [execPaceLock, h]

theorem execPaceLock_locks (ha : s.awake = true) (hr : s.refLost = false) : execPaceLock s = .next (generatorLocked s) := by
  have hgo : ¬ (!s.awake || s.refLost) = true := by simp [ha, hr]
  rw [execPaceLock, if_neg hgo, generatorLocked, pacedDies]
  simp only [State.paceActive, Bool.and_true, pacingChanged_locked]
  split <;> rfl

end

/-! The switch of the pacing mode (R335, R506). -/

theorem timingEvent_dies (s : State) (kind d : Nat) : (s.timingEvent kind d).dies = s.dies := by
  rw [(recordsOnly_timingEvent s kind d).eq]

theorem canonical_timingEvent {s : State} (hs : canonical s) (kind d : Nat) : canonical (s.timingEvent kind d) := hs.event ..

/-- Stale trims are marked, and the subscribers told. -/
theorem recordsOnly_setStale {s : State} {d : Nat} (h : (s.die d).trimStale = false) :
    recordsOnly (s.setDie d { s.die d with trimStale := true }) (s.setStale d) := by
  simp only [State.setStale, h, Bool.false_eq_true, if_false, modDie_eq]
  exact recordsOnly_timingEvent ..

theorem canonical_setStale {s : State} (hs : canonical s) (d : Nat) : canonical (s.setStale d) := by
  unfold State.setStale
  split
  · exact hs
  · exact canonical_timingEvent (hs.modDie d _) 3 d

theorem die_setStale {s : State} (hs : canonical s) (d : Nat) : (s.setStale d).die d = { s.die d with trimStale := true } := by
  cases h : (s.die d).trimStale with
  | true => rw [State.setStale, if_pos h, ← h]
  | false =>
    rw [State.die, (recordsOnly_setStale h).eq]
    exact die_setDie hs.dies d _

theorem die_setStale_ne (s : State) {d e : Nat} (h : e ≠ d) : (s.setStale d).die e = s.die e := by
  cases hst : (s.die d).trimStale with
  | true => simp [State.setStale, hst]
  | false =>
    rw [State.die, (recordsOnly_setStale hst).eq]
    exact die_setDie_ne s _ h

/-- One die slice at a switch of the pacing mode: its trims are stale, and a pass is due. -/
def slicePaced (s : State) (d : Nat) : State := (s.setStale d).modDie d (fun x => { x with passedPace := false, sched := true })

/-- What a die slice holds after a switch of the pacing mode. -/
def awaitsPass (x : Die) : Prop := x.trimStale = true ∧ x.passedPace = false ∧ x.sched = true

section
variable {s : State}

theorem canonical_slicePaced (hs : canonical s) (d : Nat) : canonical (slicePaced s d) := (canonical_setStale hs d).modDie d _

theorem slicePaced_awaitsPass (hs : canonical s) (d : Nat) : awaitsPass ((slicePaced s d).die d) := by
  rw [slicePaced, modDie_eq, die_setDie (canonical_setStale hs d).dies, die_setStale hs]
  exact ⟨rfl, rfl, rfl⟩

theorem slicePaced_keeps_awaitsPass (hs : canonical s) (e : Nat) {d : Nat} (h : awaitsPass (s.die d)) : awaitsPass ((slicePaced s e).die d) := by
  by_cases hde : d = e
  · exact hde ▸ slicePaced_awaitsPass hs d
  · rwa [slicePaced, modDie_eq, die_setDie_ne _ _ hde, die_setStale_ne s hde]

theorem foldl_slicePaced_awaitsPass (hs : canonical s) {ds : List Nat} {d : Nat} (hd : d ∈ ds) :
    awaitsPass ((ds.foldl slicePaced s).die d) := by
  obtain ⟨before, after, rfl⟩ := List.append_of_mem hd
  have hbefore : canonical (before.foldl slicePaced s) :=
    List.foldlRecOn before slicePaced hs fun _ ha e _ => canonical_slicePaced ha e
  rw [List.foldl_append, List.foldl_cons]
  exact (List.foldlRecOn after slicePaced (motive := fun a => canonical a ∧ awaitsPass (a.die d))
    ⟨canonical_slicePaced hbefore d, slicePaced_awaitsPass hbefore d⟩
    fun _ ⟨hc, ha⟩ e _ => ⟨canonical_slicePaced hc e, slicePaced_keeps_awaitsPass hc e ha⟩).2

theorem setStale_frame (s : State) (d : Nat) : s.setStale d = { s with
    dies := (s.setStale d).dies, ports := (s.setStale d).ports, smb := (s.setStale d).smb, trace := (s.setStale d).trace,
    counters := (s.setStale d).counters } := by
  cases h : (s.die d).trimStale with
  | true => simp [State.setStale, h]
  | false =>
    rw [(recordsOnly_setStale h).eq]
    rfl

theorem foldl_slicePaced_frame (ds : List Nat) (s : State) : ds.foldl slicePaced s = { s with
    dies := (ds.foldl slicePaced s).dies, ports := (ds.foldl slicePaced s).ports, smb := (ds.foldl slicePaced s).smb,
    trace := (ds.foldl slicePaced s).trace, counters := (ds.foldl slicePaced s).counters } :=
  foldl_rel (R := fun a b => b = { a with dies := b.dies, ports := b.ports, smb := b.smb, trace := b.trace, counters := b.counters })
    (fun _ => rfl) (fun h k => by rw [k, h]) (fun a d => by rw [slicePaced, setStale_frame]; rfl) ds s

/-- The state in which the wanted pacing mode is in force, before any die slice is told. -/
def paceModeTaken (s : State) : State := { s with paceMode := s.paceWanted, kiln := { s.kiln with paceHold := false } }

theorem canonical_paceModeTaken (hs : canonical s) : canonical (paceModeTaken s) :=
  hs.congr rfl rfl rfl rfl rfl rfl rfl rfl rfl rfl rfl rfl

theorem execPaceSwitch_switches (ha : s.awake = true) (hp : s.kiln.paceHold = true) (hg : ∀ f ∈ s.kiln.firings, f.st ≠ .granted)
    (hm : ∀ d, d < s.n → s.dieLive d = true → (s.die d).moved s.paceWanted = true) :
    execPaceSwitch s = .next (((List.range s.n).filter s.dieLive).foldl slicePaced (paceModeTaken s)).offer := by
  have hgranted : s.kiln.firings.any (fun f => f.st == .granted) = false := by simpa using hg
  have hmoved : ((List.range s.n).filter s.dieLive).all (fun d => (s.die d).moved s.paceWanted) = true :=
    List.all_eq_true.mpr fun d hd => by
      obtain ⟨hn, hl⟩ := List.mem_filter.mp hd
      exact hm d (List.mem_range.mp hn) hl
  simp only [execPaceSwitch, ha, hp, hgranted, hmoved, Bool.not_true, Bool.or_self, Bool.false_eq_true, if_false]
  rfl

theorem execPaceSwitch_idle (h : s.awake = false ∨ s.kiln.paceHold = false ∨ (∃ f ∈ s.kiln.firings, f.st = .granted)
    ∨ ∃ d, d < s.n ∧ s.dieLive d = true ∧ (s.die d).moved s.paceWanted = false) : execPaceSwitch s = .next s := by
  refine if_pos ?_
  rcases h with h | h | ⟨f, hf, hst⟩ | ⟨d, hd, hl, hm⟩
  · simp [h]
  · simp [h]
  · have hgranted : s.kiln.firings.any (fun f => f.st == .granted) = true := List.any_eq_true.mpr ⟨f, hf, by simp [hst]⟩
    simp [hgranted]
  · have hmoved : ((List.range s.n).filter s.dieLive).all (fun d => (s.die d).moved s.paceWanted) = false :=
      List.all_eq_false.mpr ⟨d, by simp [hd, hl], by simp [hm]⟩
    simp [hmoved]

end

/-- Settles O8: each row by its condition, a change of pacing by what it leaves in every die slice, the switch by what each live one then holds. -/
theorem referenceAndPace : Obligations.ReferenceAndPace := by
  unfold Obligations.ReferenceAndPace
  refine ⟨fun s ha hr => ?lost, fun s h => (exec_refLost s).trans (execRefLost_idle h), fun s h => ?returned,
    fun s h => (exec_refReturn s).trans (execRefReturn_idle h), fun s ha hr => ?locked, fun s h => (exec_paceLock s).trans (execPaceLock_idle h),
    fun s ha hp hg hm => ?switched, fun s h => (exec_paceSwitch s).trans (execPaceSwitch_idle h)⟩
  case lost =>
    have hdies : ((referenceLost s).timingEvent 1 0).dies = pacedDies s.paceActive s := timingEvent_dies ..
    refine ⟨_, (exec_refLost s).trans (execRefLost_loses ha hr), ?_, fun h => ?_, fun h hs d => ?_⟩
    · rw [hdies]
      exact recordsOnly_timingEvent (referenceLost s) 1 0
    · rw [hdies, h]
      rfl
    · rw [State.die, hdies, h]
      exact tget_pacedDies s hs.dies d
  case returned => exact ⟨_, (exec_refReturn s).trans (execRefReturn_returns h), recordsOnly_timingEvent ..⟩
  case locked =>
    refine ⟨_, (exec_paceLock s).trans (execPaceLock_locks ha hr), rfl, fun h => ?_, fun hmode hlock hs d => ?_⟩
    · have hno : (s.paceMode && !s.paceLocked) = false := by rcases h with h | h <;> simp [h]
      rw [generatorLocked, hno]
      rfl
    · rw [generatorLocked, hmode, hlock]
      exact tget_pacedDies s hs.dies d
  case switched =>
    have hframe := foldl_slicePaced_frame ((List.range s.n).filter s.dieLive) (paceModeTaken s)
    refine ⟨_, (exec_paceSwitch s).trans (execPaceSwitch_switches ha hp hg hm), ?_, ?_, ?_, fun hs d hd hl => ?_⟩
    · rw [hframe]; rfl
    · rw [hframe]; rfl
    · rw [hframe]; rfl
    · exact foldl_slicePaced_awaitsPass (canonical_paceModeTaken hs) (List.mem_filter.mpr ⟨List.mem_range.mpr hd, hl⟩)

end Sys2Proof.Proofs

/-! ### O42: quiet holds -/

namespace Sys2Proof.Proofs
open Sys2Proof.Machine

theorem exec_quietHoldStart (d : Nat) (s : State) : exec (.quietHoldStart d) s = execQuietHoldStart d s := rfl
theorem exec_quietHoldEnd (d : Nat) (s : State) : exec (.quietHoldEnd d) s = execQuietHoldEnd d s := rfl

/-- A try that a calibration did not ask for leaves the slice as it is. -/
theorem tryMissed_of_none (x : Die) : x.tryMissed false = x := rfl

/-- A missed try touches what counts tries and schedules the next pass (R579). -/
theorem tryMissed_frame (x : Die) (calibrating : Bool) : x.tryMissed calibrating = { x with
    calTries := (x.tryMissed calibrating).calTries, calWait := (x.tryMissed calibrating).calWait,
    sched := (x.tryMissed calibrating).sched, missed := (x.tryMissed calibrating).missed } := by
  cases calibrating <;> rfl

/-- The state in which the kiln holds no die slice. -/
def holdReleased (s : State) : State := { s with kiln := { s.kiln with quiet := none } }

section
variable {d : Nat} {s : State}

/-- Whether the last pass of a die slice is old enough for a hold (R358). -/
def passOld (s : State) (d : Nat) : Bool := s.trimQuiet && (s.die d).passed && s.passed (s.die d).measTime 8000000

theorem execQuietHoldStart_holds (hl : s.dieLive d = true) (hq : s.kiln.quiet = none) (hw : passOld s d = true ∨ s.calWants d = true) :
    execQuietHoldStart d s = .next ({ s with kiln := { s.kiln with quiet := some d } }.setDie d { s.die d with
      quietHold := true, holds := satInc (s.die d).holds, holdStart := s.time, sched := !(s.die d).measuring }) := by
  refine if_pos ?_
  simpa [hl, hq, passOld] using hw

theorem execQuietHoldStart_idle (h : s.dieLive d = false ∨ s.kiln.quiet ≠ none ∨ (passOld s d = false ∧ s.calWants d = false)) :
    execQuietHoldStart d s = .next s := by
  refine if_neg ?_
  change ¬ (s.dieLive d && s.kiln.quiet.isNone && (passOld s d || s.calWants d)) = true
  rcases h with h | h | ⟨ho, hc⟩
  · simp [h]
  · simp [h]
  · simp [ho, hc]

/-- Whether a pass has completed within the hold of a die slice. -/
def passedInHold (x : Die) : Bool := !x.measuring && !x.sched && x.passed && hasCome x.holdStart x.measTime

theorem execQuietHoldEnd_idle (h : (s.die d).quietHold = false ∨ (passedInHold (s.die d) = false ∧ s.passed (s.die d).holdStart 4000 = false)) :
    execQuietHoldEnd d s = .next s := by
  refine if_pos ?_
  change (!(s.die d).quietHold || !(passedInHold (s.die d) || s.passed (s.die d).holdStart 4000)) = true
  rcases h with h | ⟨hp, ht⟩
  · simp [h]
  · simp [hp, ht]

theorem execQuietHoldEnd_ends (hq : (s.die d).quietHold = true)
    (h : passedInHold (s.die d) = true ∨ s.passed (s.die d).holdStart 4000 = true) :
    execQuietHoldEnd d s = .next ((holdReleased s).setDie d (if passedInHold (s.die d) then { s.die d with quietHold := false }
      else Die.tryMissed { s.die d with quietHold := false } (s.calWants d))).offer := by
  refine if_neg ?_
  change ¬ (!(s.die d).quietHold || !(passedInHold (s.die d) || s.passed (s.die d).holdStart 4000)) = true
  rcases h with h | h <;> simp [hq, h]

end

/-- Settles O42: a hold starts by its condition, and ends with its pass, or after its time with a calibration's try missed. -/
theorem quietHold : Obligations.QuietHold := by
  unfold Obligations.QuietHold
  refine fun d s => ⟨fun hl hq hw => ?starts, fun h => ?idle, ?ends⟩
  case starts =>
    refine (exec_quietHoldStart d s).trans (execQuietHoldStart_holds hl hq (hw.imp_left ?_))
    rintro ⟨ht, hp, ho⟩
    simp [passOld, ht, hp, ho]
  case idle =>
    refine (exec_quietHoldStart d s).trans (execQuietHoldStart_idle (h.imp_right (Or.imp_right (And.imp_left ?_))))
    rintro (h | h | h) <;> simp [passOld, h]
  case ends =>
    rintro _ rfl
    rw [exec_quietHoldEnd]
    refine ⟨fun hq hp => ?passed, fun hq hp ht => ?timed, execQuietHoldEnd_idle⟩
    case passed =>
      rw [execQuietHoldEnd_ends hq (.inl hp), if_pos (show passedInHold (s.die d) = true from hp)]
      rfl
    case timed =>
      have hp : passedInHold (s.die d) = false := hp
      refine ⟨Die.tryMissed { s.die d with quietHold := false } (s.calWants d), ?_, ?_, ?_, ?_, fun hc => ?_, fun hc => ?_⟩
      · rw [execQuietHoldEnd_ends hq (.inr ht), hp]
        rfl
      iterate 3 · rw [tryMissed_frame]
      · rw [hc, tryMissed_of_none]
      · rw [hc]
        exact ⟨rfl, rfl⟩

end Sys2Proof.Proofs

/-! ### O41: load correction, epochs, stale trims, temperatures -/

namespace Sys2Proof.Proofs
open Sys2Proof.Machine

/-! Changes of the leaf ports of a die slice, one after the other. -/

theorem mem_dieLeaves {d l : Nat} : l ∈ dieLeaves d ↔ l / 256 = d := by
  simp only [dieLeaves, upFrom, List.mem_map, List.mem_range]
  exact ⟨fun ⟨i, hi, h⟩ => by omega, fun h => ⟨l - 256 * d, by omega, by omega⟩⟩

theorem nodup_dieLeaves (d : Nat) : (dieLeaves d).Nodup :=
  List.nodup_range.map fun _ _ h => Nat.add_right_cancel h

/-- The state after a change of some leaf ports. -/
def onLeaves (ls : List Nat) (f : Nat → LeafPort → LeafPort) (s : State) : State := ls.foldl (fun a l => a.modLeaf l (f l)) s

section
variable (ls : List Nat) (f : Nat → LeafPort → LeafPort) (s : State)

theorem onLeaves_frame : onLeaves ls f s = { s with leaves := (onLeaves ls f s).leaves } :=
  foldl_rel (R := fun a b => b = { a with leaves := b.leaves }) (fun _ => rfl) (fun h k => by rw [k, h]) (fun _ _ => rfl) ls s

theorem onLeaves_leaves : (onLeaves ls f s).leaves = ls.foldl (fun t l => tmod {} t l (f l)) s.leaves :=
  (List.foldl_hom State.leaves (fun _ _ => rfl)).symm

theorem onLeaves_dies : (onLeaves ls f s).dies = s.dies := by
  rw [onLeaves_frame]

theorem onLeaves_die (d : Nat) : (onLeaves ls f s).die d = s.die d := by
  rw [State.die, onLeaves_dies, State.die]

theorem tableWf_onLeaves (h : tableWf {} s.leaves = true) : tableWf {} (onLeaves ls f s).leaves = true :=
  List.foldlRecOn ls _ (motive := fun a : State => tableWf {} a.leaves = true) h fun _ ha _ _ => tableWf_tset ha _ _

theorem leaf_onLeaves_out {l : Nat} (h : ¬ l ∈ ls) : (onLeaves ls f s).leaf l = s.leaf l := by
  rw [State.leaf, onLeaves_leaves]
  exact tget_foldl_tmod_out (key := id) ls fun k hk he => h (he ▸ hk)

theorem leaf_onLeaves {l : Nat} (hs : tableWf {} s.leaves = true) (hn : ls.Nodup) (hl : l ∈ ls) :
    (onLeaves ls f s).leaf l = f l (s.leaf l) := by
  rw [State.leaf, onLeaves_leaves]
  exact tget_foldl_tmod (key := id) ls hs (by rwa [List.map_id]) hl

end

/-- `t` is `s` but for the die slices that `P` holds of, their leaf ports, and records; the banks of both keep their form. -/
structure slicesOnly (P : Nat → Prop) (s t : State) : Prop where
  eq     : t = { s with dies := t.dies, leaves := t.leaves, ports := t.ports, smb := t.smb, trace := t.trace, counters := t.counters }
  dies   : tableWf {} s.dies = true → tableWf {} t.dies = true
  leaves : tableWf {} s.leaves = true → tableWf {} t.leaves = true
  die    : ∀ e, ¬ P e → t.die e = s.die e
  leaf   : ∀ l, ¬ P (l / 256) → t.leaf l = s.leaf l

section
variable {P : Nat → Prop} {s t u : State}

theorem slicesOnly.refl (s : State) : slicesOnly P s s := ⟨rfl, id, id, fun _ _ => rfl, fun _ _ => rfl⟩

theorem slicesOnly.trans (h : slicesOnly P s t) (k : slicesOnly P t u) : slicesOnly P s u where
  eq := by rw [k.eq, h.eq]
  dies := k.dies ∘ h.dies
  leaves := k.leaves ∘ h.leaves
  die e he := (k.die e he).trans (h.die e he)
  leaf l hl := (k.leaf l hl).trans (h.leaf l hl)

theorem slicesOnly.mono {Q : Nat → Prop} (h : slicesOnly P s t) (hPQ : ∀ e, P e → Q e) : slicesOnly Q s t :=
  ⟨h.eq, h.dies, h.leaves, fun e he => h.die e (he ∘ hPQ e), fun l hl => h.leaf l (hl ∘ hPQ _)⟩

theorem slicesOnly_setDie (s : State) {d : Nat} (x : Die) (hd : P d) : slicesOnly P s (s.setDie d x) :=
  ⟨rfl, fun h => tableWf_tset h d x, id, fun _ he => die_setDie_ne s x fun h => he (h ▸ hd), fun _ _ => rfl⟩

theorem slicesOnly_onLeaves (ls : List Nat) (f : Nat → LeafPort → LeafPort) (s : State) (h : ∀ l ∈ ls, P (l / 256)) :
    slicesOnly P s (onLeaves ls f s) where
  eq := by rw [onLeaves_frame]
  dies hs := by rwa [onLeaves_dies]
  leaves := tableWf_onLeaves ls f s
  die e _ := onLeaves_die ls f s e
  leaf l hl := leaf_onLeaves_out ls f s (hl ∘ h l)

theorem slicesOnly_of_recordsOnly (h : recordsOnly s t) : slicesOnly P s t where
  eq := by rw [h.eq]
  dies hs := by rwa [h.eq]
  leaves hs := by rwa [h.eq]
  die e _ := by rw [State.die, h.eq]; rfl
  leaf l _ := by rw [State.leaf, h.eq]; rfl

end

theorem leaf_setDie (s : State) (d : Nat) (x : Die) (l : Nat) : (s.setDie d x).leaf l = s.leaf l := rfl

/-! New applied trims in the inactive copies (R355, R356). -/

/-- A leaf port once its die slice has written its applied trim. -/
def trimWritten (x : Die) (p : LeafPort) : LeafPort := p.setTrim (!x.epoch) (p.applied x.loadCorr)

theorem trimOf_setTrim_same (p : LeafPort) (e : Bool) (v : Nat) : (p.setTrim e v).trimOf e = v := by
  cases e <;> rfl

theorem trimOf_setTrim_other (p : LeafPort) (e : Bool) (v : Nat) : (p.setTrim (!e) v).trimOf e = p.trimOf e := by
  cases e <;> rfl

theorem setTrim_frame (p : LeafPort) (e : Bool) (v : Nat) :
    p.setTrim e v = { p with trim0 := (p.setTrim e v).trim0, trim1 := (p.setTrim e v).trim1 } := by
  cases e <;> rfl

/-- Whether the two trim copies of some leaf port of a die slice differ. -/
def trimsDiffer (t : State) (d : Nat) : Bool := (dieLeaves d).any (fun l => (t.leaf l).trim0 != (t.leaf l).trim1)

section
variable (s : State) (d : Nat)

theorem writeTrims_eq : s.writeTrims d = (onLeaves (dieLeaves d) (fun _ => trimWritten (s.die d)) s).setDie d { s.die d with
    newTrims := trimsDiffer (onLeaves (dieLeaves d) (fun _ => trimWritten (s.die d)) s) d } := by
  change (onLeaves (dieLeaves d) (fun _ => trimWritten (s.die d)) s).setDie d
    { (onLeaves (dieLeaves d) (fun _ => trimWritten (s.die d)) s).die d with newTrims := _ } = _
  rw [onLeaves_die]
  rfl

theorem writeTrims_frame : s.writeTrims d = { s with dies := (s.writeTrims d).dies, leaves := (s.writeTrims d).leaves } := by
  rw [writeTrims_eq, onLeaves_frame]
  rfl

theorem slicesOnly_writeTrims : slicesOnly (· = d) s (s.writeTrims d) := by
  rw [writeTrims_eq]
  exact (slicesOnly_onLeaves _ _ s fun _ => mem_dieLeaves.mp).trans (slicesOnly_setDie _ _ rfl)

theorem die_writeTrims (hs : tableWf {} s.dies = true) : ∃ b, (s.writeTrims d).die d = { s.die d with newTrims := b } := by
  rw [writeTrims_eq]
  exact ⟨_, die_setDie (by rwa [onLeaves_dies]) ..⟩

theorem leaf_writeTrims (hs : tableWf {} s.leaves = true) {l : Nat} (hl : l / 256 = d) :
    (s.writeTrims d).leaf l = trimWritten (s.die d) (s.leaf l) := by
  rw [writeTrims_eq, leaf_setDie, leaf_onLeaves (dieLeaves d) _ s hs (nodup_dieLeaves d) (mem_dieLeaves.mpr hl)]

end

/-! The rows. -/

theorem exec_loadCorrection (d : Nat) (s : State) : exec (.loadCorrection d) s = execLoadCorrection d s := rfl
theorem exec_trimEpochFlip (d : Nat) (s : State) : exec (.trimEpochFlip d) s = execTrimEpochFlip d s := rfl
theorem exec_trimStaleSet (d : Nat) (s : State) : exec (.trimStaleSet d) s = execTrimStaleSet d s := rfl
theorem exec_tempSample (d : Nat) (w : BitVec 11) (s : State) : exec (.tempSample d w) s = execTempSample d w s := rfl

/-- A die slice with the load correction that its activity asks for (R355). -/
def correctedDie (x : Die) : Die := { x with loadCorr := (x.activity * 10 + 1 / 2).floor.toNat }

/-- The state once a die slice has formed its load correction, before it writes its trims. -/
def loadCorrected (s : State) (d : Nat) : State := s.setDie d (correctedDie (s.die d))

section
variable {s : State} {d : Nat}

theorem execLoadCorrection_corrects (hl : s.dieLive d = true) : execLoadCorrection d s = .next ((loadCorrected s d).writeTrims d) := if_pos hl

theorem execTrimEpochFlip_flips (hl : s.dieLive d = true) (hn : (s.die d).newTrims = true)
    (hf : ∀ w, (s.die d).lastFlip = some w → s.passed w 10000 = true) : execTrimEpochFlip d s
    = .next (s.setDie d { s.die d with epoch := !(s.die d).epoch, newTrims := false, lastFlip := some s.time }) := by
  have hold : (s.die d).lastFlip.all (fun w => s.passed w 10000) = true := by
    cases hw : (s.die d).lastFlip with
    | none => rfl
    | some w => rw [Option.all_some, hf w hw]
  simp [execTrimEpochFlip, hl, hn, hold]

theorem execTrimEpochFlip_idle (h : s.dieLive d = false ∨ (s.die d).newTrims = false
    ∨ ∃ w, (s.die d).lastFlip = some w ∧ s.passed w 10000 = false) : execTrimEpochFlip d s = .next s := by
  rcases h with h | h | ⟨w, hw, hp⟩
  · simp [execTrimEpochFlip, h]
  · simp [execTrimEpochFlip, h]
  · have hold : (s.die d).lastFlip.all (fun w => s.passed w 10000) = false := by rw [hw, Option.all_some, hp]
    simp [execTrimEpochFlip, hold]

theorem execTrimStaleSet_sets (hl : s.dieLive d = true) (hf : (s.die d).fresh s.time = false) : execTrimStaleSet d s = .next (s.setStale d) :=
  if_pos (by simp [hl, hf])

theorem execTrimStaleSet_idle (h : s.dieLive d = false ∨ (s.die d).trimStale = true ∨ (s.die d).fresh s.time = true) :
    execTrimStaleSet d s = .next s := by
  rcases h with h | h | h <;> simp [execTrimStaleSet, State.setStale, h]

end

/-- Settles O41: LOAD_CORRECTION by what writing the trims leaves at the slice and at its leaf ports, each other row by its condition. -/
theorem trims : Obligations.Trims := by
  unfold Obligations.Trims
  refine fun d s => ⟨fun hl w => ?dead, fun hl => ⟨fun hs => ?correction, fun hn hf => ?flip, fun h => ?noFlip, fun hst hf => ?stale,
    fun h => ?fresh, fun w => ?sample⟩⟩
  case dead =>
    exact ⟨(exec_loadCorrection d s).trans (if_neg (by simp [hl])), (exec_trimEpochFlip d s).trans (execTrimEpochFlip_idle (.inl hl)),
      (exec_trimStaleSet d s).trans (execTrimStaleSet_idle (.inl hl)), (exec_tempSample d w s).trans (if_neg (by simp [hl]))⟩
  case correction =>
    have hset : (loadCorrected s d).die d = correctedDie (s.die d) := die_setDie hs.dies d _
    have hother := slicesOnly_writeTrims (loadCorrected s d) d
    obtain ⟨b, hdie⟩ := die_writeTrims (loadCorrected s d) d (hs.setDie d _).dies
    rw [hset] at hdie
    refine ⟨_, (exec_loadCorrection d s).trans (execLoadCorrection_corrects hl), ?_, ?_, ?_, fun e he => ?_, fun l hne => hother.leaf l hne,
      fun l hld => ?_⟩
    · rw [writeTrims_frame]
      rfl
    · rw [hdie]
      rfl
    · rw [hdie]
      rfl
    · rw [hother.die e he]
      exact die_setDie_ne s _ he
    · have hleaf := leaf_writeTrims (loadCorrected s d) d hs.leaves hld
      rw [hset] at hleaf
      rw [hleaf, hdie]
      exact ⟨trimOf_setTrim_other .., trimOf_setTrim_same ..⟩
  case flip => exact (exec_trimEpochFlip d s).trans (execTrimEpochFlip_flips hl hn hf)
  case noFlip => exact (exec_trimEpochFlip d s).trans (execTrimEpochFlip_idle (.inr h))
  case stale => exact ⟨_, (exec_trimStaleSet d s).trans (execTrimStaleSet_sets hl hf), recordsOnly_setStale hst⟩
  case fresh => exact (exec_trimStaleSet d s).trans (execTrimStaleSet_idle (.inr h))
  case sample => exact (exec_tempSample d w s).trans (if_pos hl)

end Sys2Proof.Proofs

/-! ### O43: the activity estimate and the governor's slot -/

namespace Sys2Proof.Proofs
open Sys2Proof.Machine

/-! A table in canonical form is given by what its entries read as, so of two writes of one entry the second is left. -/

section
variable {α : Type} {d : α}

theorem tget_head_ne_default {j : Nat} {v : α} {t : Table α} (h : ∀ e ∈ (j, v) :: t, e.2 ≠ d) : tget d ((j, v) :: t) j ≠ d := by
  simpa [tget] using h (j, v) List.mem_cons_self

/-- Where a table lists an entry below all those of another, the two read differently there. -/
theorem tget_head_ne_of_lt {j lo : Nat} {v : α} {t u : Table α} (ht : ∀ e ∈ (j, v) :: t, e.2 ≠ d) (hu : keysRise lo u = true) (hj : j < lo) :
    tget d ((j, v) :: t) j ≠ tget d u j := by
  rw [tget_of_lt d hu hj]
  exact tget_head_ne_default ht

theorem eq_of_tget_eq : ∀ {t u : Table α} {lo lo' : Nat}, keysRise lo t = true → keysRise lo' u = true → (∀ e ∈ t, e.2 ≠ d) →
    (∀ e ∈ u, e.2 ≠ d) → (∀ k, tget d t k = tget d u k) → t = u
  | [], [], _, _, _, _, _, _, _ => rfl
  | [], (j, w) :: u, _, _, _, _, _, hdu, h => absurd (h j).symm (tget_head_ne_default hdu)
  | (i, v) :: t, [], _, _, _, _, hdt, _, h => absurd (h i) (tget_head_ne_default hdt)
  | (i, v) :: t, (j, w) :: u, _, _, ht, hu, hdt, hdu, h => by
    simp only [keysRise, Bool.and_eq_true, decide_eq_true_eq] at ht hu
    obtain ⟨-, ht⟩ := ht
    obtain ⟨-, hu⟩ := hu
    rcases Nat.lt_trichotomy i j with hij | rfl | hij
    · have hu' : keysRise j ((j, w) :: u) = true := by simp [keysRise, hu]
      exact absurd (h i) (tget_head_ne_of_lt hdt hu' hij)
    · have hv : v = w := by simpa [tget] using h i
      have hrest : ∀ k, tget d t k = tget d u k := fun k => by
        by_cases hk : i = k
        · rw [← hk, tget_of_lt d ht (Nat.lt_succ_self i), tget_of_lt d hu (Nat.lt_succ_self i)]
        · simpa [tget, hk] using h k
      rw [hv, eq_of_tget_eq ht hu (fun e he => hdt e (List.mem_cons_of_mem _ he)) (fun e he => hdu e (List.mem_cons_of_mem _ he)) hrest]
    · have ht' : keysRise i ((i, v) :: t) = true := by simp [keysRise, ht]
      exact absurd (h j).symm (tget_head_ne_of_lt hdu ht' hij)

theorem tset_tset [DecidableEq α] {t : Table α} (h : tableWf d t = true) (k : Nat) (v w : α) : tset d (tset d t k v) k w = tset d t k w := by
  have hvw := tableWf_tset (tableWf_tset h k v) k w
  have hw := tableWf_tset h k w
  have hread : ∀ j, tget d (tset d (tset d t k v) k w) j = tget d (tset d t k w) j := fun j => by
    by_cases hj : j = k
    · rw [hj, tget_tset_self (tableWf_tset h k v), tget_tset_self h]
    · rw [tget_tset_ne d _ w hj, tget_tset_ne d t v hj, tget_tset_ne d t w hj]
  simp only [tableWf, Bool.and_eq_true, List.all_eq_true, decide_eq_true_eq] at hvw hw
  exact eq_of_tget_eq hvw.1 hw.1 hvw.2 hw.2 hread

end

theorem setDie_setDie {s : State} (hs : tableWf {} s.dies = true) (d : Nat) (x y : Die) : (s.setDie d x).setDie d y = s.setDie d y := by
  simp only [State.setDie, tset_tset hs]

/-! One step of the rate ceiling (R503). -/

/-- A rate goes from `a` to `b` by at most 0.125 GT/s, toward a target and not past it. -/
def stepsToward (target a b : Rat) : Prop :=
  b - a ≤ 1 / 8 ∧ a - b ≤ 1 / 8 ∧ (target ≤ a → target ≤ b ∧ b ≤ a) ∧ (a ≤ target → a ≤ b ∧ b ≤ target)

section
variable {target a : Rat}

theorem stepsToward_same : stepsToward target a a := by
  refine ⟨?_, ?_, fun h => ⟨h, le_rfl⟩, fun h => ⟨le_rfl, h⟩⟩ <;> norm_num

theorem stepsToward_down (h : target < a) : stepsToward target a (max target (a - 1 / 8)) := by
  have hle : max target (a - 1 / 8) ≤ a := max_le h.le (by linarith)
  have hstep : a - 1 / 8 ≤ max target (a - 1 / 8) := le_max_right ..
  exact ⟨by linarith, by linarith, fun _ => ⟨le_max_left .., hle⟩, fun hn => absurd h hn.not_gt⟩

theorem stepsToward_up (h : a < target) : stepsToward target a (min target (a + 1 / 8)) := by
  have hle : a ≤ min target (a + 1 / 8) := le_min h.le (by linarith)
  have hstep : min target (a + 1 / 8) ≤ a + 1 / 8 := min_le_right ..
  exact ⟨by linarith, by linarith, fun hn => absurd h hn.not_gt, fun _ => ⟨hle, min_le_left ..⟩⟩

end

section
variable (x : Die) (target budget : Rat)

theorem rCap_stepTo : stepsToward target x.rCap (x.stepTo target).rCap := by
  unfold Die.stepTo
  dsimp only
  split
  · next h =>
    rw [Bool.and_eq_true, decide_eq_true_eq] at h
    exact stepsToward_down h.1
  · split
    · next h =>
      rw [Bool.and_eq_true, decide_eq_true_eq] at h
      exact stepsToward_up h.1
    · exact stepsToward_same

theorem stepTo_frame : x.stepTo target = { x with rCap := (x.stepTo target).rCap, lowering := (x.stepTo target).lowering } := by
  unfold Die.stepTo
  dsimp only
  split
  · rfl
  · split <;> rfl

/-- A slot of the governor changes the rate ceiling and what it shows of it, nothing else at the die slice. -/
def ceilingOnly (x y : Die) : Prop :=
  y = { x with rCap := y.rCap, lowering := y.lowering, settled := y.settled, budgetLimited := y.budgetLimited, overBudget := y.overBudget,
               limitedSlots := y.limitedSlots }

theorem pacedSlot_ceilingOnly : ceilingOnly x (x.pacedSlot budget) := by
  rw [ceilingOnly, Die.pacedSlot, stepTo_frame]

theorem freeSlot_ceilingOnly : ceilingOnly x (x.freeSlot budget) := by
  rw [ceilingOnly, Die.freeSlot]
  dsimp only
  rw [stepTo_frame]

/-- The target of R503. -/
def freeTarget : Rat := max (1 / 4) (min (x.rBudget budget) (min x.rLink (12 / 5)))

theorem rCap_pacedSlot : stepsToward (5 / 4) x.rCap (x.pacedSlot budget).rCap := rCap_stepTo _ _

theorem rCap_freeSlot : stepsToward (freeTarget x budget) x.rCap (x.freeSlot budget).rCap := rCap_stepTo _ (freeTarget x budget)

end

/-! The rows. -/

theorem exec_activityEstimate (d n : Nat) (s : State) : exec (.activityEstimate d n) s = execActivityEstimate d n s := rfl
theorem exec_governorSlot (d : Nat) (v r : Rat) (s : State) : exec (.governorSlot d v r) s = execGovernorSlot d v r s := rfl

/-- A die slice at its governor's slot, before the ceiling moves: the readings taken, its park list pruned (R501). -/
def slotTaken (s : State) (d : Nat) (v r : Rat) : Die :=
  { s.die d with parkQ := (s.die d).parkQ.filter (s.parkable d), vdd := v, rLink := r, govSlot := some s.time }

/-- The die slice's budget (R503). -/
def slotBudget (s : State) (d : Nat) : Rat := (s.cfg.active.budgetOf d).toNat

/-- The die slice that a slot of the governor leaves (R503, R505). -/
def slotServed (s : State) (d : Nat) (v r : Rat) : Die :=
  if s.governedPaced then (slotTaken s d v r).pacedSlot (slotBudget s d) else (slotTaken s d v r).freeSlot (slotBudget s d)

/-- The rate that a slot of the governor moves the ceiling to. -/
def slotTarget (s : State) (d : Nat) (v r : Rat) : Rat := if s.governedPaced then 5 / 4 else freeTarget (slotTaken s d v r) (slotBudget s d)

theorem slotServed_ceilingOnly (s : State) (d : Nat) (v r : Rat) : ceilingOnly (slotTaken s d v r) (slotServed s d v r) := by
  unfold slotServed
  split
  · exact pacedSlot_ceilingOnly ..
  · exact freeSlot_ceilingOnly ..

theorem rCap_slotServed (s : State) (d : Nat) (v r : Rat) : stepsToward (slotTarget s d v r) (s.die d).rCap (slotServed s d v r).rCap := by
  unfold slotTarget slotServed
  split
  · exact rCap_pacedSlot (slotTaken s d v r) _
  · exact rCap_freeSlot (slotTaken s d v r) _

section
variable {s : State} {d : Nat}

theorem execActivityEstimate_idle (hl : s.dieLive d = false) (n : Nat) : execActivityEstimate d n s = .next s := if_neg (by simp [hl])

theorem execGovernorSlot_idle (h : s.dieLive d = false ∨ s.atSlot (s.die d).govSlot = false) (v r : Rat) :
    execGovernorSlot d v r s = .next s := by
  rcases h with h | h <;> simp [execGovernorSlot, h]

theorem execGovernorSlot_serves (hs : canonical s) (hl : s.dieLive d = true) (ht : s.atSlot (s.die d).govSlot = true) (v r : Rat) :
    execGovernorSlot d v r s = .next (s.setDie d (slotServed s d v r)) := by
  have hgo : ¬ (!s.dieLive d || !s.atSlot (s.die d).govSlot) = true := by simp [hl, ht]
  rw [execGovernorSlot, if_neg hgo]
  simp only [State.pruneParks, modDie_eq, setDie_setDie hs.dies, die_setDie hs.dies]
  rfl

end

/-- Settles O43: the estimate by its condition; a slot by what it takes in, and a step of the ceiling in paced mode or out of it. -/
theorem governor : Obligations.Governor := by
  unfold Obligations.Governor
  refine ⟨fun d n v r s => ⟨fun hl => (exec_activityEstimate d n s).trans (if_pos hl),
    fun hl => (exec_activityEstimate d n s).trans (execActivityEstimate_idle hl n),
    fun h => (exec_governorSlot d v r s).trans (execGovernorSlot_idle h v r)⟩, fun d v r s hs hl ht => ?_⟩
  obtain ⟨hup, hdown, habove, hbelow⟩ := rCap_slotServed s d v r
  have hserved : slotServed s d v r = _ := slotServed_ceilingOnly s d v r
  refine ⟨slotServed s d v r, slotTarget s d v r, (exec_governorSlot d v r s).trans (execGovernorSlot_serves hs hl ht v r), ?_, ?_, ?_,
    fun hp => if_pos hp, fun hp => if_neg (by simp [hp]), hup, hdown, habove, hbelow, ?_, ?_, ?_⟩
  all_goals
    rw [hserved]
    rfl

end Sys2Proof.Proofs

/-! ### O40: pyrometer passes -/

namespace Sys2Proof.Proofs
open Sys2Proof.Machine

/-! A die slice forms its base trims again (R354). -/

/-- A leaf port takes its base trim for a release target. -/
def rebaseLeaf (s : State) (target : Rat) (l : Nat) (p : LeafPort) : LeafPort := p.rebase (s.leafEnabled l) target

/-- The leaf ports of a die slice with their base trims. -/
def baseTrimmed (s : State) (target : Rat) (d : Nat) : State := onLeaves (dieLeaves d) (rebaseLeaf s target) s

/-- Whether the base trim of some leaf port of a die slice is clamped. -/
def clamps (t : State) (d : Nat) : Bool := (dieLeaves d).any (fun l => (t.leaf l).clamped)

/-- The state once trim_range shows the clamps of a die slice. -/
def rangeShown (s : State) (target : Rat) (pass : Bool) (d : Nat) : State :=
  (baseTrimmed s target d).modDie d (fun x => { x with trimRange := clamps (baseTrimmed s target d) d || (x.trimRange && !pass) })

/-- The same with the event of a trim_range newly set. -/
def rangeTold (s : State) (target : Rat) (pass : Bool) (d : Nat) : State :=
  if clamps (baseTrimmed s target d) d && !(s.die d).trimRange then (rangeShown s target pass d).timingEvent 4 d else rangeShown s target pass d

section
variable (s : State) (target : Rat) (pass : Bool) (d : Nat)

theorem rebaseDie_eq : s.rebaseDie target pass d = (rangeTold s target pass d).writeTrims d := rfl

theorem rangeShown_eq : ∃ r, rangeShown s target pass d = (baseTrimmed s target d).setDie d { s.die d with trimRange := r } := by
  refine ⟨clamps (baseTrimmed s target d) d || ((s.die d).trimRange && !pass), ?_⟩
  rw [rangeShown, modDie_eq, show (baseTrimmed s target d).die d = s.die d from onLeaves_die ..]

theorem recordsOnly_rangeTold : recordsOnly (rangeShown s target pass d) (rangeTold s target pass d) := by
  unfold rangeTold
  split
  · exact recordsOnly_timingEvent ..
  · exact .refl _

/-- The event leaves every die slice and leaf port as it is. -/
theorem noSlice_rangeTold : slicesOnly (fun _ => False) (rangeShown s target pass d) (rangeTold s target pass d) :=
  slicesOnly_of_recordsOnly (recordsOnly_rangeTold ..)

theorem slicesOnly_baseTrimmed : slicesOnly (· = d) s (baseTrimmed s target d) := slicesOnly_onLeaves _ _ s fun _ => mem_dieLeaves.mp

theorem slicesOnly_rangeShown : slicesOnly (· = d) s (rangeShown s target pass d) := by
  obtain ⟨r, h⟩ := rangeShown_eq s target pass d
  rw [h]
  exact (slicesOnly_baseTrimmed s target d).trans (slicesOnly_setDie _ _ rfl)

theorem slicesOnly_rangeTold : slicesOnly (· = d) s (rangeTold s target pass d) :=
  (slicesOnly_rangeShown ..).trans ((noSlice_rangeTold ..).mono fun _ h => h.elim)

theorem slicesOnly_rebaseDie : slicesOnly (· = d) s (s.rebaseDie target pass d) :=
  (slicesOnly_rangeTold s target pass d).trans (slicesOnly_writeTrims _ d)

theorem die_rebaseDie (hs : tableWf {} s.dies = true) :
    ∃ r b, (s.rebaseDie target pass d).die d = { s.die d with trimRange := r, newTrims := b } := by
  obtain ⟨r, hr⟩ := rangeShown_eq s target pass d
  have htold : (rangeTold s target pass d).die d = { s.die d with trimRange := r } := by
    rw [(noSlice_rangeTold s target pass d).die d id, hr]
    exact die_setDie ((slicesOnly_baseTrimmed s target d).dies hs) d _
  obtain ⟨b, hb⟩ := die_writeTrims (rangeTold s target pass d) d ((slicesOnly_rangeTold ..).dies hs)
  exact ⟨r, b, by rw [rebaseDie_eq, hb, htold]⟩

theorem leaf_rebaseDie (hs : tableWf {} s.leaves = true) {l : Nat} (hl : l / 256 = d) :
    ∃ e v, (s.rebaseDie target pass d).leaf l = (rebaseLeaf s target l (s.leaf l)).setTrim e v := by
  have htold : (rangeTold s target pass d).leaf l = rebaseLeaf s target l (s.leaf l) := by
    rw [(noSlice_rangeTold s target pass d).leaf l id, rangeShown, modDie_eq, leaf_setDie, baseTrimmed,
      leaf_onLeaves (dieLeaves d) _ s hs (nodup_dieLeaves d) (mem_dieLeaves.mpr hl)]
  rw [rebaseDie_eq, leaf_writeTrims _ d ((slicesOnly_rangeTold ..).leaves hs) hl, htold]
  exact ⟨_, _, rfl⟩

end

theorem delay_setTrim (p : LeafPort) (e : Bool) (v : Nat) : (p.setTrim e v).delay = p.delay := by
  rw [setTrim_frame]

theorem base_setTrim (p : LeafPort) (e : Bool) (v : Nat) : (p.setTrim e v).base = p.base := by
  rw [setTrim_frame]

theorem delay_rebase (p : LeafPort) (enabled : Bool) (target : Rat) : (p.rebase enabled target).delay = p.delay := by
  unfold LeafPort.rebase
  split
  · rfl
  · split <;> rfl

theorem base_rebase {p : LeafPort} {v : Rat} (h : p.delay = some v) (target : Rat) :
    (p.rebase true target).base = min 63 (baseTrim target v) := by
  simp [LeafPort.rebase, h]

/-! A completed pass (R352, R353, R357, R359). -/

/-- The state once a pass has taken its delays. -/
def delaysTaken (s : State) (d : Nat) (es : List (EchoLink × List Rat)) : State :=
  onLeaves (s.measuredLeaves d) (fun l p => { p with delay := leafDelay es l }) (s.setDie d ((s.die d).passDone s.time))

/-- The release target after a pass. -/
def passTarget (s : State) (d : Nat) (es : List (EchoLink × List Rat)) : Rat := (delaysTaken s d es).targetNow

/-- The other die slices, which form their base trims again where a pass has changed the release target. -/
def otherSlices (s : State) (d : Nat) (target : Rat) : List Nat := (List.range s.n).filter (fun e => e != d && target != s.releaseTarget)

/-- The state once a pass has given every other die slice its base trims. -/
def othersRebased (s : State) (d : Nat) (es : List (EchoLink × List Rat)) : State :=
  (otherSlices s d (passTarget s d es)).foldl (fun a e => a.rebaseDie (passTarget s d es) false e)
    { delaysTaken s d es with releaseTarget := passTarget s d es }

/-- The state once a pass has given its own die slice its base trims too. -/
def passRebased (s : State) (d : Nat) (es : List (EchoLink × List Rat)) : State :=
  (othersRebased s d es).rebaseDie (passTarget s d es) true d

theorem afterFirstPass_frame (s : State) : s.afterFirstPass = { s with ctl := s.afterFirstPass.ctl } := by
  unfold State.afterFirstPass
  split <;> rfl

theorem afterFirstPass_die (s : State) (d : Nat) : s.afterFirstPass.die d = s.die d := by
  rw [afterFirstPass_frame]
  rfl

theorem afterFirstPass_leaf (s : State) (l : Nat) : s.afterFirstPass.leaf l = s.leaf l := by
  rw [afterFirstPass_frame]
  rfl

theorem afterFirstPass_releaseTarget (s : State) : s.afterFirstPass.releaseTarget = s.releaseTarget := by
  rw [afterFirstPass_frame]

section
variable {s : State} {d l : Nat} {es : List (EchoLink × List Rat)}

theorem mem_measuredLeaves : l ∈ s.measuredLeaves d ↔ l / 256 = d ∧ s.leafEnabled l = true := by
  rw [State.measuredLeaves, List.mem_filter, mem_dieLeaves]

theorem nodup_measuredLeaves (s : State) (d : Nat) : (s.measuredLeaves d).Nodup := (nodup_dieLeaves d).filter _

theorem slicesOnly_delaysTaken : slicesOnly (· = d) s (delaysTaken s d es) :=
  .trans (P := (· = d)) (slicesOnly_setDie s _ rfl) (slicesOnly_onLeaves _ _ _ fun _ hl => (mem_measuredLeaves.mp hl).1)

theorem slicesOnly_othersRebased : slicesOnly (· ≠ d) { delaysTaken s d es with releaseTarget := passTarget s d es } (othersRebased s d es) := by
  refine List.foldlRecOn _ _ (.refl _) fun a ha e he => ha.trans ((slicesOnly_rebaseDie a _ false e).mono fun k hk => ?_)
  have hne : e ≠ d := by simpa using (Bool.and_eq_true_iff.mp (List.mem_filter.mp he).2).1
  rwa [hk]

theorem othersRebased_frame : othersRebased s d es = { s with
    dies := (othersRebased s d es).dies, leaves := (othersRebased s d es).leaves, releaseTarget := passTarget s d es,
    ports := (othersRebased s d es).ports, smb := (othersRebased s d es).smb, trace := (othersRebased s d es).trace,
    counters := (othersRebased s d es).counters } := by
  rw [slicesOnly_othersRebased.eq, slicesOnly_delaysTaken.eq]

theorem passRebased_frame : passRebased s d es = { s with
    dies := (passRebased s d es).dies, leaves := (passRebased s d es).leaves, releaseTarget := passTarget s d es,
    ports := (passRebased s d es).ports, smb := (passRebased s d es).smb, trace := (passRebased s d es).trace,
    counters := (passRebased s d es).counters } := by
  rw [passRebased, (slicesOnly_rebaseDie _ _ true d).eq, othersRebased_frame]

theorem releaseTarget_passRebased : (passRebased s d es).releaseTarget = passTarget s d es := by
  rw [passRebased_frame]

theorem afterFirstPass_passRebased_frame : (passRebased s d es).afterFirstPass = { s with
    dies := (passRebased s d es).afterFirstPass.dies, leaves := (passRebased s d es).afterFirstPass.leaves,
    releaseTarget := passTarget s d es, ctl := (passRebased s d es).afterFirstPass.ctl,
    ports := (passRebased s d es).afterFirstPass.ports, smb := (passRebased s d es).afterFirstPass.smb,
    trace := (passRebased s d es).afterFirstPass.trace, counters := (passRebased s d es).afterFirstPass.counters } := by
  rw [afterFirstPass_frame, passRebased_frame]

section
variable (hs : canonical s)
include hs

theorem die_othersRebased : (othersRebased s d es).die d = (s.die d).passDone s.time := by
  rw [slicesOnly_othersRebased.die d (not_not.mpr rfl)]
  change (delaysTaken s d es).die d = _
  rw [delaysTaken, onLeaves_die, die_setDie hs.dies]

theorem leaf_othersRebased (hl : l ∈ s.measuredLeaves d) : (othersRebased s d es).leaf l = { s.leaf l with delay := leafDelay es l } := by
  rw [slicesOnly_othersRebased.leaf l (not_not.mpr (mem_measuredLeaves.mp hl).1)]
  exact leaf_onLeaves (s.measuredLeaves d) _ (s.setDie d ((s.die d).passDone s.time)) hs.leaves (nodup_measuredLeaves s d) hl

/-- What a completed pass leaves of its die slice: the pass done, and what its base trims show. -/
theorem die_passRebased : ∃ r b, (passRebased s d es).die d = { (s.die d).passDone s.time with trimRange := r, newTrims := b } := by
  have hwf := slicesOnly_othersRebased.dies ((slicesOnly_delaysTaken (d := d) (es := es)).dies hs.dies)
  obtain ⟨r, b, h⟩ := die_rebaseDie (othersRebased s d es) (passTarget s d es) true d hwf
  rw [die_othersRebased hs] at h
  exact ⟨r, b, h⟩

/-- What a completed pass leaves of a leaf port that it has measured: the delay and the base trim. -/
theorem leaf_passRebased (hl : l ∈ s.measuredLeaves d) : ((passRebased s d es).leaf l).delay = leafDelay es l
    ∧ ∀ v, leafDelay es l = some v → ((passRebased s d es).leaf l).base = min 63 (baseTrim (passTarget s d es) v) := by
  obtain ⟨hld, hon⟩ := mem_measuredLeaves.mp hl
  have hwf := slicesOnly_othersRebased.leaves ((slicesOnly_delaysTaken (d := d) (es := es)).leaves hs.leaves)
  have henabled : (othersRebased s d es).leafEnabled l = true := by
    rw [othersRebased_frame]
    exact hon
  obtain ⟨e, w, h⟩ := leaf_rebaseDie (othersRebased s d es) (passTarget s d es) true d hwf hld
  rw [leaf_othersRebased hs hl, rebaseLeaf, henabled] at h
  rw [passRebased, h, delay_setTrim, base_setTrim, delay_rebase]
  exact ⟨rfl, fun v hv => base_rebase hv _⟩

end

/-! The rows. -/

theorem exec_pyroPassStart (d : Nat) (s : State) : exec (.pyroPassStart d) s = execPyroPassStart d s := rfl
theorem exec_pyroPassComplete (d : Nat) (es : List (EchoLink × List Rat)) (s : State) :
    exec (.pyroPassComplete d es) s = execPyroPassComplete d es s := rfl
theorem exec_pyroPassAbandon (d : Nat) (s : State) : exec (.pyroPassAbandon d) s = execPyroPassAbandon d s := rfl

theorem execPyroPassStart_starts (hl : s.dieLive d = true) (hd : (s.die d).sched = true) (hm : (s.die d).measuring = false)
    (hi : s.dieIdle d = true) : execPyroPassStart d s
    = .next (s.setDie d { s.die d with sched := false, measuring := true, started := s.time, parkQ := [] }) := if_pos (by simp [hl, hd, hm, hi])

theorem execPyroPassStart_idle (h : s.dieLive d = false ∨ (s.die d).sched = false ∨ (s.die d).measuring = true ∨ s.dieIdle d = false) :
    execPyroPassStart d s = .next s := by
  rcases h with h | h | h | h <;> simp [execPyroPassStart, h]

theorem execPyroPassComplete_completes (hl : s.dieLive d = true) (hm : (s.die d).measuring = true)
    (ht : s.passed (s.die d).started 401 = false) (he : ∀ l ∈ s.measuredLeaves d, leafDelay es l ≠ none) :
    execPyroPassComplete d es s = .next (passRebased s d es).afterFirstPass := by
  have hall : (s.measuredLeaves d).all (fun l => (leafDelay es l).isSome) = true :=
    List.all_eq_true.mpr fun l hmem => Option.isSome_iff_ne_none.mpr (he l hmem)
  have hgo : ¬ (!s.dieLive d || !(s.die d).measuring || s.passed (s.die d).started 401
      || !(s.measuredLeaves d).all (fun l => (leafDelay es l).isSome)) = true := by
    simp only [hl, hm, ht, hall, Bool.not_true, Bool.or_self, Bool.false_eq_true, not_false_iff]
  rw [execPyroPassComplete, if_neg hgo]
  rfl

theorem execPyroPassComplete_idle (h : s.dieLive d = false ∨ (s.die d).measuring = false ∨ s.passed (s.die d).started 401 = true
    ∨ ∃ l ∈ s.measuredLeaves d, leafDelay es l = none) : execPyroPassComplete d es s = .next s := by
  refine if_pos ?_
  rcases h with h | h | h | ⟨l, hl, he⟩
  · simp [h]
  · simp [h]
  · simp [h]
  · have hall : (s.measuredLeaves d).all (fun l => (leafDelay es l).isSome) = false := List.all_eq_false.mpr ⟨l, hl, by simp [he]⟩
    simp [hall]

end

/-- Settles O40: a pass starts and is abandoned by its conditions; a completed one by what it leaves at its die slice and at the leaf
ports that it has measured. -/
theorem pyroPass : Obligations.PyroPass := by
  unfold Obligations.PyroPass
  refine fun d s => ⟨fun hl hd hm hi => (exec_pyroPassStart d s).trans (execPyroPassStart_starts hl hd hm hi),
    fun h => (exec_pyroPassStart d s).trans (execPyroPassStart_idle h), fun es hs hl hm ht he => ?completes,
    fun es h => (exec_pyroPassComplete d es s).trans (execPyroPassComplete_idle h), fun hm => (exec_pyroPassAbandon d s).trans (if_pos hm),
    fun hm => (exec_pyroPassAbandon d s).trans (if_neg (by simp [hm]))⟩
  obtain ⟨r, b, hdie⟩ := die_passRebased (d := d) (es := es) hs
  refine ⟨_, (exec_pyroPassComplete d es s).trans (execPyroPassComplete_completes hl hm ht he), ?_⟩
  rw [afterFirstPass_die, hdie, afterFirstPass_releaseTarget, releaseTarget_passRebased]
  refine ⟨rfl, rfl, rfl, rfl, rfl, rfl, rfl, fun l hmem => ?_, afterFirstPass_passRebased_frame⟩
  rw [afterFirstPass_leaf]
  exact leaf_passRebased hs hmem

end Sys2Proof.Proofs

/-! ### O6: the first global commit and the start of service -/

namespace Sys2Proof.Proofs
open Sys2Proof.Machine

theorem exec_firstGlobalCommit (s : State) : exec .firstGlobalCommit s = execFirstGlobalCommit s := rfl
theorem exec_controllerServes (s : State) : exec .controllerServes s = execControllerServes s := rfl

/-! The swap of the global set at start-up (R478, R566). -/

/-- Base trims formed again after a swap of the map touch die slices, their leaf ports and records only. -/
theorem slicesOnly_rebaseChanged (s : State) (old : BitVec 8192) : slicesOnly (fun _ => True) s (s.rebaseChanged old) := by
  refine foldl_rel .refl .trans (fun a d => ?_) _ s
  split
  · exact .refl a
  · exact (slicesOnly_rebaseDie a _ false d).mono fun _ _ => trivial

/-- Forming the keys changes the keys, and offers a record where they change (R366). -/
theorem recordsOnly_rekey (s : State) (cause : Nat) : recordsOnly
    { s with cfg := { s.cfg with reproKey := crc64 (reproImage s), exactKey := crc64 exactImage } } (s.rekey cause) := by
  unfold State.rekey
  dsimp only
  split
  · exact .refl _
  · exact recordsOnly_event ..

/-- The reproduction key's image depends on the build, the running version and the tree's shape only (Table 11.2). -/
theorem reproImage_congr {s t : State} (hstraps : t.straps = s.straps) (hmajor : t.ctl.runMajor = s.ctl.runMajor)
    (hminor : t.ctl.runMinor = s.ctl.runMinor) (hshape : t.cfg.shape = s.cfg.shape) : reproImage t = reproImage s := by
  simp only [reproImage, State.blkVersion, hstraps, hmajor, hminor, hshape]

/-- The state once the keys are formed and the start-up sequence has gone on. -/
def keysFormed (s : State) : State := ((s.rekey 1).notePace).modCtlr (fun c => { c with phase := .beforeServe })

/-- The state once the shadow global set is active, and ranks and base trims follow it. -/
def shadowActive (s : State) : State := ((s.modCfg (fun c => c.swapGlobal s.n)).takeRanks).rebaseChanged s.cfg.active.disabled

section
variable (s : State)

theorem notePace_modCtlr (f : Controller → Controller) :
    s.notePace.modCtlr f = { s with ctl := f s.ctl, kiln := s.notePace.kiln } := rfl

theorem keysFormed_frame : keysFormed s = { s with
    ctl := { s.ctl with phase := .beforeServe }
    cfg := { s.cfg with reproKey := crc64 (reproImage s), exactKey := crc64 exactImage }
    kiln := (s.rekey 1).notePace.kiln, ports := (s.rekey 1).ports, smb := (s.rekey 1).smb, trace := (s.rekey 1).trace,
    counters := (s.rekey 1).counters } := by
  rw [keysFormed, notePace_modCtlr, (recordsOnly_rekey s 1).eq]

theorem reproImage_keysFormed : reproImage (keysFormed s) = reproImage s :=
  reproImage_congr (by rw [keysFormed_frame]) (by rw [keysFormed_frame]) (by rw [keysFormed_frame]) (by rw [keysFormed_frame])

theorem slicesOnly_shadowActive : slicesOnly (fun _ => True) (s.modCfg (fun c => c.swapGlobal s.n)) (shadowActive s) :=
  .trans (P := fun _ => True) (slicesOnly_onLeaves (List.range (256 * s.n)) _ _ fun _ _ => trivial) (slicesOnly_rebaseChanged _ _)

theorem shadowActive_frame : shadowActive s = { s with
    cfg := (s.modCfg (fun c => c.swapGlobal s.n)).cfg, leaves := (shadowActive s).leaves, dies := (shadowActive s).dies,
    ports := (shadowActive s).ports, smb := (shadowActive s).smb, trace := (shadowActive s).trace, counters := (shadowActive s).counters } :=
  (slicesOnly_shadowActive s).eq

variable {s}

theorem execFirstGlobalCommit_commits (h : s.ctl.phase = .firstCommit) :
    execFirstGlobalCommit s = .next (keysFormed (shadowActive s)) := if_neg (by simp [h])

theorem execFirstGlobalCommit_idle (h : s.ctl.phase ≠ .firstCommit) : execFirstGlobalCommit s = .next s := if_pos (by simp [h])

end

/-! What records leave of the ports' interrupt causes. -/

theorem bitOf_eq_testBit (v i : Nat) : bitOf v i = v.testBit i := by
  rw [Nat.testBit_eq_decide_div_mod_eq, bitOf, slice, Nat.shiftRight_eq_div_pow, Nat.pow_one]

/-- Setting a bit clears none. -/
theorem bitOf_setBit_of_bitOf {w : Word} {j : Nat} (h : bitOf w.toNat j = true) (i : Nat) : bitOf (setBit w i).toNat j = true := by
  rw [bitOf_eq_testBit] at h ⊢
  rw [setBit, BitVec.toNat_or, Nat.testBit_or, h, Bool.true_or]

/-- Every interrupt cause that stands in a port of `s` stands there in `t`. -/
def keepsCauses (s t : State) : Prop := tableWf {} s.ports = true →
  tableWf {} t.ports = true ∧ ∀ p i, bitOf (s.port p).intStatus.toNat i = true → bitOf (t.port p).intStatus.toNat i = true

theorem keepsCauses.refl (s : State) : keepsCauses s s := fun h => ⟨h, fun _ _ hi => hi⟩

theorem keepsCauses.trans {s t u : State} (h : keepsCauses s t) (k : keepsCauses t u) : keepsCauses s u := fun w =>
  have ⟨wt, ht⟩ := h w
  have ⟨wu, hu⟩ := k wt
  ⟨wu, fun p i hi => hu p i (ht p i hi)⟩

theorem causes_offer {x : Port} {i : Nat} (h : bitOf x.intStatus.toNat i = true) (cls : Nat) (body : BitVec 256) :
    bitOf (x.offer cls body).intStatus.toNat i = true := by
  unfold Port.offer
  split
  · exact bitOf_setBit_of_bitOf h mbEvent
  · exact h

theorem keepsCauses_offer (s : State) (p cls : Nat) (body : BitVec 256) : keepsCauses s (s.modPort p (fun x => x.offer cls body)) := by
  refine fun w => ⟨by rw [modPort_eq, setPort_ports]; exact tableWf_tset w _ _, fun k i hi => ?_⟩
  rw [modPort_eq]
  by_cases hk : k = p
  · subst hk
    rw [port_setPort w]
    exact causes_offer hi cls body
  · rwa [port_setPort_ne s _ hk]

theorem keepsCauses_traceOffer (s : State) (cls : Nat) (body : BitVec 256) (sags : List Nat) :
    keepsCauses s (s.traceOffer cls body sags) := by
  rw [traceOffer_frame]
  exact fun w => ⟨w, fun _ _ hi => hi⟩

theorem keepsCauses_event (s : State) (cls : Nat) (body : BitVec 256) (sags : List Nat) : keepsCauses s (s.event cls body sags) := by
  unfold State.event
  refine .trans ?_ (keepsCauses_traceOffer _ _ _ _)
  refine foldl_rel .refl .trans (fun a p => ?_) _ s
  split
  · exact keepsCauses_offer a p cls body
  · exact .refl a

/-! The controller serves (R462, R562). -/

/-- The state once mc_ready stands in some ports. -/
def portsReady (ps : List Nat) (s : State) : State :=
  ps.foldl (fun a p => a.modPort p (fun x => { x with intStatus := setBit x.intStatus mbMcReady })) s

section
variable (ps : List Nat) {s : State}

theorem portsReady_frame (s : State) : portsReady ps s = { s with ports := (portsReady ps s).ports, smb := (portsReady ps s).smb } :=
  foldl_rel (R := fun a b => b = { a with ports := b.ports, smb := b.smb }) (fun _ => rfl) (fun h k => by rw [k, h])
    (fun a p => by rw [modPort_eq, setPort_eq]) ps s

theorem portsReady_ports (s : State) : (portsReady ps s).ports
    = ps.foldl (fun t p => tmod {} t p (fun x : Port => { x with intStatus := setBit x.intStatus mbMcReady })) s.ports :=
  (List.foldl_hom State.ports (fun a p => (setPort_ports a p _).symm)).symm

theorem port_portsReady (hs : tableWf {} s.ports = true) (hn : ps.Nodup) {p : Nat} (hp : p ∈ ps) :
    (portsReady ps s).port p = { s.port p with intStatus := setBit (s.port p).intStatus mbMcReady } := by
  rw [State.port, portsReady_ports]
  exact tget_foldl_tmod (key := id) ps hs (by rwa [List.map_id]) hp

theorem tableWf_portsReady (hs : tableWf {} s.ports = true) : tableWf {} (portsReady ps s).ports = true := by
  refine List.foldlRecOn ps _ (motive := fun a : State => tableWf {} a.ports = true) hs fun a ha p _ => ?_
  rw [modPort_eq, setPort_ports]
  exact tableWf_tset ha _ _

end

/-- The state once the controller is in service, the 100 ms of a new image begun (R459), before any port is told. -/
def inService (s : State) : State := { s with ctl := { s.ctl with
  phase := .serving, mcFault := false, onEmergency := false, confirm := s.ctl.confirm.map (fun e => (e.1, s.time)) } }

theorem serves_eq (s : State) (kind cause : Nat) :
    s.serves kind cause = (portsReady (List.range 18) (inService s)).controllerEvent kind cause := rfl

theorem serves_frame (s : State) (kind cause : Nat) : s.serves kind cause = { inService s with
    ports := (s.serves kind cause).ports, smb := (s.serves kind cause).smb, trace := (s.serves kind cause).trace,
    counters := (s.serves kind cause).counters } := by
  rw [serves_eq, (recordsOnly_controllerEvent _ kind cause).eq, portsReady_frame]

theorem mcReady_serves {s : State} (hs : tableWf {} s.ports = true) (kind cause : Nat) {p : Nat} (hp : p < 18) :
    bitOf ((s.serves kind cause).port p).intStatus.toNat mbMcReady = true := by
  have hs' : tableWf {} (inService s).ports = true := hs
  have hready : bitOf ((portsReady (List.range 18) (inService s)).port p).intStatus.toNat mbMcReady = true := by
    rw [port_portsReady _ hs' List.nodup_range (List.mem_range.mpr hp)]
    exact bitOf_setBit _ (by decide)
  rw [serves_eq]
  exact (keepsCauses_event _ _ _ _ (tableWf_portsReady _ hs')).2 p _ hready

/-- The state in which the controller has begun to serve at the end of the start-up sequence. -/
def firstServing (s : State) : State :=
  (s.modCtlr (fun c => { c with booted := true })).serves (if s.ctl.confirm.isSome then 3 else 2) 0

section
variable {s : State}

theorem execControllerServes_serves (h : s.ctl.phase = .beforeServe) : execControllerServes s = .next
    (if s.ctl.noRecord = true then ((((firstServing s).endActivation 0).reportAbandoned).examineQueue).offer.controllerEvent 6 0
      else ((((firstServing s).endActivation 0).reportAbandoned).examineQueue).offer) := if_neg (by simp [h])

theorem execControllerServes_idle (h : s.ctl.phase ≠ .beforeServe) : execControllerServes s = .next s := if_pos (by simp [h])

theorem firstServing_frame (s : State) : firstServing s = { s with
    ctl := (inService (s.modCtlr (fun c => { c with booted := true }))).ctl, ports := (firstServing s).ports, smb := (firstServing s).smb,
    trace := (firstServing s).trace, counters := (firstServing s).counters } := by
  rw [firstServing, serves_frame]
  rfl

theorem mcReady_firstServing (hs : tableWf {} s.ports = true) {p : Nat} (hp : p < 18) :
    bitOf ((firstServing s).port p).intStatus.toNat mbMcReady = true :=
  mcReady_serves (s := s.modCtlr (fun c => { c with booted := true })) hs _ 0 hp

end

/-- Settles O6: the first commit by what making the shadow set active and forming the keys leave, the start of service by what
`serves` leaves in the controller and in every port. -/
theorem startupServes : Obligations.StartupServes := by
  unfold Obligations.StartupServes
  refine ⟨fun s h => ?commit, fun s h => (exec_firstGlobalCommit s).trans (execFirstGlobalCommit_idle h),
    fun s h => (exec_controllerServes s).trans (execControllerServes_idle h), fun s h => ?serves⟩
  case commit =>
    refine ⟨keysFormed (shadowActive s), (exec_firstGlobalCommit s).trans (execFirstGlobalCommit_commits h), ?_⟩
    rw [reproImage_keysFormed, keysFormed_frame, shadowActive_frame]
    exact ⟨rfl, rfl, rfl, rfl, rfl, rfl, rfl, rfl, rfl, rfl, rfl⟩
  case serves =>
    refine ⟨firstServing s, _, (exec_controllerServes s).trans (execControllerServes_serves h), rfl, ?_, ?_,
      fun hs p hp => mcReady_firstServing hs.ports hp⟩
    · rw [firstServing_frame]
    · rw [firstServing_frame]
      rfl

end Sys2Proof.Proofs

/-! ### O53: DIGEST_OPEN, DIGEST_READ, DIGEST_CLOSE and KEY_READ -/

namespace Sys2Proof.Proofs
open Sys2Proof.Machine

theorem exec_digestOpen (p : Nat) (s : State) : exec (.digestOpen p) s = .next (s.command p 0x0501 runDigestOpen) := rfl
theorem exec_digestRead (p : Nat) (s : State) : exec (.digestRead p) s = .next (s.command p 0x0502 runDigestRead) := rfl
theorem exec_digestClose (p : Nat) (s : State) : exec (.digestClose p) s = .next (s.command p 0x0503 runDigestClose) := rfl
theorem exec_keyRead (p : Nat) (s : State) : exec (.keyRead p) s = .next (s.command p 0x0504 runKeyRead) := rfl

section
variable {s : State} {q : Req}

/-! A new opening (R374, R375). -/

/-- The accumulator that DIGEST_OPEN opens: the lowest that is not open. -/
def freeDigest (k : Kiln) : Option Nat := (List.range 4096).find? (fun i => !(tget {} k.digests i).isOpen)

theorem freeDigest_eq_none {k : Kiln} (h : ∀ j, j < 4096 → (tget {} k.digests j).isOpen = true) : freeDigest k = none :=
  List.find?_range_eq_none.mpr fun j hj => by rw [h j hj]; rfl

theorem freeDigest_eq_some {k : Kiln} {i : Nat} (hi : i < 4096) (ho : (tget {} k.digests i).isOpen = false)
    (h : ∀ j, j < i → (tget {} k.digests j).isOpen = true) : freeDigest k = some i :=
  List.find?_range_eq_some.mpr ⟨by rw [ho]; rfl, List.mem_range.mpr hi, fun j hj => by rw [h j hj]; rfl⟩

/-- The kiln once DIGEST_OPEN has opened accumulator `i`. -/
def digestOpened (k : Kiln) (q : Req) (i : Nat) : Kiln := { k with
  openings := k.openings + 1
  digests := tset {} k.digests i { prov := BitVec.ofNat 64 (q.num 8 8), tag := BitVec.ofNat 16 (q.num 0 2),
                                   saggar := BitVec.ofNat 12 q.saggar, isOpen := true, opening := k.openings + 1 } }

theorem runDigestOpen_tag (h : q.num 0 2 = 0xFFFF ∨ (s.digestUnder q.saggar (q.num 0 2)).isSome = true) :
    runDigestOpen s q = .refuse s erInvalid 32 := if_pos (by simpa using h)

section
variable (ht : q.num 0 2 ≠ 0xFFFF) (hu : s.digestUnder q.saggar (q.num 0 2) = none)
include ht hu

/-- DIGEST_OPEN under a tag that can be opened: the quota is checked, then the pool. -/
theorem runDigestOpen_newTag : runDigestOpen s q = if qDigest (s.cfg.quota q.saggar) ≤ s.kiln.openDigests q.saggar then .refuse s erLimit 0
    else (freeDigest s.kiln).elim (.refuse s erLimit 0) (fun i => .ok { s with kiln := digestOpened s.kiln q i } [] true) := by
  have htag : ¬ (decide (q.num 0 2 = 0xFFFF) || (s.digestUnder q.saggar (q.num 0 2)).isSome) = true := by simp [ht, hu]
  rw [runDigestOpen, if_neg htag, freeDigest]
  cases List.find? _ (List.range 4096) <;> rfl

theorem runDigestOpen_limit (h : qDigest (s.cfg.quota q.saggar) ≤ s.kiln.openDigests q.saggar ∨ freeDigest s.kiln = none) :
    runDigestOpen s q = .refuse s erLimit 0 := by
  rw [runDigestOpen_newTag ht hu]
  rcases h with h | h
  · exact if_pos h
  · rw [h, Option.elim_none, ite_self]

theorem runDigestOpen_opens (hq : s.kiln.openDigests q.saggar < qDigest (s.cfg.quota q.saggar)) {i : Nat} (hi : freeDigest s.kiln = some i) :
    runDigestOpen s q = .ok { s with kiln := digestOpened s.kiln q i } [] true := by
  rw [runDigestOpen_newTag ht hu, if_neg (Nat.not_le.mpr hq), hi, Option.elim_some]

end

/-! Reading and closing (R377, R378). -/

theorem runDigestRead_restart (h : 1 < q.num 2 1) : runDigestRead s q = .refuse s erInvalid 34 := if_pos h

theorem runDigestRead_notOpen (hr : q.num 2 1 ≤ 1) (hu : s.digestUnder q.saggar (q.num 0 2) = none) :
    runDigestRead s q = .refuse s erNotFound 0 := by
  rw [runDigestRead, if_neg (Nat.not_lt.mpr hr), hu]

theorem runDigestClose_notOpen (hu : s.digestUnder q.saggar (q.num 0 2) = none) : runDigestClose s q = .refuse s erNotFound 0 := by
  rw [runDigestClose, hu]

variable {i : Nat} {a : DigestAcc}

theorem runDigestRead_open (hr : q.num 2 1 ≤ 1) (hu : s.digestUnder q.saggar (q.num 0 2) = some (i, a)) : runDigestRead s q = .ok
    (if q.num 2 1 = 1 then { s with kiln := { s.kiln with digests := tmod {} s.kiln.digests i DigestAcc.restart } } else s)
    a.entry (q.num 2 1 == 1) := by
  simp only [runDigestRead, if_neg (Nat.not_lt.mpr hr), hu]
  split
  · next h1 => rw [h1]; rfl
  · next h1 => rw [beq_eq_false_iff_ne.mpr h1]

theorem runDigestClose_open (hu : s.digestUnder q.saggar (q.num 0 2) = some (i, a)) :
    runDigestClose s q = .ok { s with kiln := { s.kiln with digests := tset {} s.kiln.digests i {} } } a.entry true := by
  simp only [runDigestClose, hu]
  rfl

end

/-- Settles O53: each command by the reply of its own part, which the row puts into the port; what an opening takes is the lowest free
accumulator. -/
theorem digestCommands : Obligations.DigestCommands := by
  unfold Obligations.DigestCommands
  refine fun p q s => ⟨fun hr => ⟨fun h => ?tag, fun ht hu h => ?limit, fun ht hu hq i hi ho hlow => ?opens⟩, fun _ => rfl,
    fun hr => ⟨fun h => ?restart, fun h hu => ?unread, fun h i a hu => ?read⟩, fun hr i a hu => ?closed, fun hr hu => ?notOpen, fun hr => ?keys⟩
  case tag => exact refuses_of_run (exec_digestOpen p s) hr (by decide) (runDigestOpen_tag h)
  case limit => exact refuses_of_run (exec_digestOpen p s) hr (by decide) (runDigestOpen_limit ht hu (h.imp_right freeDigest_eq_none))
  case opens =>
    have hrun := runDigestOpen_opens (s := served s p) ht hu hq (freeDigest_eq_some hi ho hlow)
    exact exec_answers_ok (exec_digestOpen p s) hr (by decide) hrun
  case restart => exact refuses_of_run (exec_digestRead p s) hr (by decide) (runDigestRead_restart h)
  case unread => exact refuses_of_run (exec_digestRead p s) hr (by decide) (runDigestRead_notOpen h hu)
  case read => exact exec_answers_ok (exec_digestRead p s) hr (by decide) (runDigestRead_open h hu)
  case closed => exact exec_answers_ok (exec_digestClose p s) hr (by decide) (runDigestClose_open hu)
  case notOpen => exact refuses_of_run (exec_digestClose p s) hr (by decide) (runDigestClose_notOpen hu)
  case keys => exact exec_answers_ok (exec_keyRead p s) hr (by decide) rfl

end Sys2Proof.Proofs

/-! ### O60: every step keeps the canonical form

One lemma per operation on the state, in the order of the model's definitions; the part of a leaf port that the form speaks of is its
scratchpad, and of a control-path node its counts. -/

namespace Sys2Proof
open Machine

/-- A leaf port's scratchpad is in canonical form. -/
def formed (p : LeafPort) : Prop := tableWf 0 p.scratch = true

/-! What the form does not speak of: changes elsewhere, and the shapes in which operations are put together. -/

section
variable {s t : State}

/-- What the canonical form speaks of. -/
def spokenOf (s : State) :=
  (s.leaves, s.links, s.nodes, s.ctls, s.dies, s.ports, s.counters, s.cfg.saggars, s.kiln.firings, s.kiln.nextUid, s.faultLog, s.trace.queue)

/-- States that agree in all that the form speaks of have it together. -/
theorem canonical.elsewhere (h : canonical s) (e : spokenOf t = spokenOf s) : canonical t := by
  simp only [spokenOf, Prod.mk.injEq] at e
  obtain ⟨h1, h2, h3, h4, h5, h6, h7, h8, h9, h10, h11, h12⟩ := e
  exact h.congr h1 h2 h3 h4 h5 h6 h7 h8 h9 h10 h11 h12

theorem canonical.ite {c : Prop} [Decidable c] (h : canonical s) (g : canonical t) : canonical (if c then s else t) := by
  split
  · exact h
  · exact g

/-- Carrying an operation out for each member of a list keeps the form when each time does. -/
theorem canonical.foldl {α : Type} (h : canonical s) {f : State → α → State} (hf : ∀ a x, canonical a → canonical (f a x))
    (xs : List α) : canonical (xs.foldl f s) :=
  List.foldlRecOn xs f h fun a ha x _ => hf a x ha

/-- The change of a leaf port that leaves scratchpads in form. -/
theorem canonical.modFormed (h : canonical s) (l : Nat) {f : LeafPort → LeafPort} (hf : ∀ p, formed p → formed (f p)) :
    canonical (s.modLeaf l f) := h.setLeaf l _ (hf _ (h.scratch l))

theorem canonical.putLeaf (h : canonical s) {l : Nat} {p : LeafPort} (hp : formed p) : canonical (s.setLeaf l p) := h.setLeaf l p hp

/-! The plain cases: the change leaves what the form speaks of as it is. Each use shows that by a tactic, which Lean runs once the
change is known from the statement. -/

theorem canonical.withLeaf (h : canonical s) {l : Nat} {f : LeafPort → LeafPort}
    (hf : ∀ p, (f p).scratch = p.scratch) : canonical (s.modLeaf l f) := h.setLeaf l _ (by rw [hf]; exact h.scratch l)

theorem canonical.withCtl (h : canonical s) {k : Nat} {f : CtlNode → CtlNode}
    (hf : ∀ n, (f n).counts = n.counts) : canonical (s.modCtl k f) := h.setCtl k _ (by rw [hf]; exact h.counts k)

theorem canonical.withKiln (h : canonical s) {f : Kiln → Kiln} (hf : (f s.kiln).firings = s.kiln.firings)
    (hn : (f s.kiln).nextUid = s.kiln.nextUid) : canonical (s.modKiln f) := h.modKiln_same f hf hn

theorem canonical.withFiring (h : canonical s) {uid : Nat} {f : Firing → Firing}
    (hf : ∀ x, x.uid = uid → (f x).uid = uid) : canonical (s.modFiring uid f) := h.modFiring uid f hf

end

/-- What an outcome goes on with has the canonical form. -/
def keepsForm (o : Host.Outcome State Fault Refusal) : Prop := ∀ t, o = .next t → canonical t

theorem keepsForm.next {t : State} (h : canonical t) : keepsForm (.next t) := fun _ e => by cases e; exact h

theorem keepsForm.ite {c : Prop} [Decidable c] {o q : Host.Outcome State Fault Refusal} (h : keepsForm o) (g : keepsForm q) :
    keepsForm (if c then o else q) := by
  split
  · exact h
  · exact g

/-! Leaf ports: their own operations leave the scratchpad alone or write bytes to it. -/

section
variable {p : LeafPort}

theorem formed.ite {c : Prop} [Decidable c] {q : LeafPort} (h : formed p) (g : formed q) : formed (if c then p else q) := by
  split
  · exact h
  · exact g

/-- A leaf port whose scratchpad is that of one in form; each use shows it by `rfl`. -/
theorem formed.as (h : formed p) {q : LeafPort} (e : q.scratch = p.scratch) : formed q := by
  unfold formed
  rw [e]
  exact h

theorem formed.store (h : formed p) (a : Nat) (bs : List Byte) : formed (p.store a bs) := tableWf_tsetRun h

theorem formed.storeAll (h : formed p) (ws : List (Nat × Byte)) : formed (p.storeAll ws) :=
  List.foldlRecOn (motive := fun t : Table Byte => tableWf 0 t = true) ws _ h fun _ ht _ _ => tableWf_tset ht _ _

theorem formed.takeRank (h : formed p) (r : BitVec 16) : formed (p.takeRank r) := .ite h h

theorem formed.fail (h : formed p) : formed p.fail := .ite h h

theorem formed.modTaken (h : formed p) (cnt : BitVec 16) (f : Taken → Taken) : formed (p.modTaken cnt f) := h

theorem formed.chunkFault (h : formed p) (x : Taken) (cls : BitVec 8) (addr ix : Nat) : formed (p.chunkFault x cls addr ix) := h

theorem formed.beforeRecord (h : formed p) (t : Taken) : formed (p.beforeRecord t) := by
  unfold LeafPort.beforeRecord
  cases t.ended with
  | none =>
    cases t.probe
    · exact h
    · exact h.store ..
  | some e =>
    have hseg := formed.ite (c := (t.phase != .pass && t.desc.segCount != 0 && t.statusPlaced) = true)
      (h.store t.desc.segStatus ((t.segStatus p.chunk e).map (fun x => leBytes 4 x.toNat)).flatten) h
    cases t.probe
    · exact hseg
    · exact hseg.store ..

theorem formed.writeRecord (h : formed p) (t : Taken) (r : Record) : formed (p.writeRecord t r) := by
  obtain ⟨m, _, _, _, _, _, _, hw, hm, -⟩ := Proofs.writeRecord_eq p t r
  rw [hw, Sys2Proof.formed, hm]
  exact tableWf_tsetRun (h.beforeRecord t)

theorem formed.stop (h : formed p) (cls : BitVec 8) (slot addr fn : Nat) (ts : Quad) : formed (p.stop cls slot addr fn ts) :=
  formed.fail (p := p.log cls slot addr 0 fn) h

theorem formed.recordFails (h : formed p) (x : Taken) (ts : Quad) : formed (p.recordFails x ts) := by
  unfold LeafPort.recordFails
  exact formed.modTaken (formed.as (h.stop clCqWrite (p.slotOf x) (p.cqBase.toNat + 32 * (p.cqTail.toNat % p.e)) x.fn.toNat ts) (by rfl)) ..

theorem formed.ctrlWrite (h : formed p) (v : Word) : formed (p.ctrlWrite v) := .ite h (.ite (.ite h h) h)

theorem formed.ringWrite (h : formed p) {f : LeafPort → LeafPort} (hf : formed (f p)) : formed (p.ringWrite f) := .ite h hf

theorem formed.flushOne (h : formed p) (t : Taken) : formed (p.flushOne t) := by
  unfold LeafPort.flushOne
  split
  · exact .ite (h.writeRecord ..) h
  · exact h

theorem formed.doorbell (h : formed p) (v : Word) : formed (p.doorbell v) := .ite h h

theorem formed.cqHeadWrite (h : formed p) (v : Word) : formed (p.cqHeadWrite v) := .ite h h

theorem formed.push (h : formed p) (off : Nat) (wide : Bool) (x : BitVec 128) : formed (p.push off wide x) :=
  .ite h (.ite h (.ite h (.ite h h)))

theorem formed.storeOrPush (h : formed p) (a : Nat) (bs : List Byte) : formed (p.storeOrPush a bs) := h.store ..

theorem formed.drain (h : formed p) (slot fmt : Nat) (data : List Byte) : formed (p.drain slot fmt data) := by
  unfold LeafPort.drain
  refine .ite h ?_
  split
  · exact h
  · dsimp only
    exact .ite h (.ite h (.ite h (.ite h ((h.storeOrPush ..).modTaken ..))))

theorem formed.endPass (h : formed p) (t : Taken) (st code : BitVec 8) (chunk : Nat) (acc : Option (AccState × Sherd)) :
    formed (p.endPass t st code chunk acc) := by cases acc <;> exact h

theorem formed.passFault (h : formed p) (x : Taken) (c : Nat) (cls : BitVec 8) : formed (p.passFault x c cls) := by
  unfold LeafPort.passFault
  exact formed.endPass (formed.as h (by rfl)) ..

theorem formed.runPass (h : formed p) (t : Taken) (needs : Bool) {f : Bisque → LeafPort} (hf : ∀ b, formed (f b)) :
    formed (p.runPass t needs f) := .ite h (.ite h (hf _))

theorem formed.commitSum (h : formed p) (t : Taken) (b : Bisque) (xs : List Sherd) : formed (p.commitSum t b xs) := by
  unfold LeafPort.commitSum
  split <;> exact h

theorem formed.addPass (h : formed p) (t : Taken) (x : PassRead) (f : Nat → Nat → Sherd) : formed (p.addPass t x f) :=
  h.runPass t _ fun b => by
    cases x with
    | bad c cl => exact h.passFault ..
    | ok bs => exact h.commitSum ..

theorem formed.takeGrant (h : formed p) (g : GrantMsg) (w : Who) : formed (p.takeGrant g w) := by
  unfold LeafPort.takeGrant
  split
  · exact .ite h h
  · split <;> exact h

theorem formed.recordIfDue (h : formed p) (t : Taken) : formed (p.recordIfDue t) := by
  unfold LeafPort.recordIfDue
  split
  · exact h
  · exact .ite h (.ite h (h.writeRecord ..))

theorem formed.takeEnd (h : formed p) (t : Taken) (e : EndMsg) (tick : Nat) : formed (p.takeEnd t e tick) :=
  List.foldlRecOn (motive := formed) _ _ h fun _ ha _ _ => ha.store ..

theorem formed.chunkDamaged (h : formed p) (slot : Nat) (area : Area) (chunk : Nat) : formed (p.chunkDamaged slot area chunk) := by
  unfold LeafPort.chunkDamaged
  split
  · exact h
  · exact .ite ((h.chunkFault ..).modTaken ..) h

theorem formed.rebase (h : formed p) (on : Bool) (target : Rat) : formed (p.rebase on target) := by
  unfold LeafPort.rebase
  refine .ite h ?_
  split <;> exact h

theorem formed.setTrim (h : formed p) (epoch : Bool) (v : Nat) : formed (p.setTrim epoch v) := .ite h h

theorem formed.back (h : formed p) (rank : Nat) : formed (p.back rank) := .ite h h

end

/-! Links, records, units lost at start-up (Ops, Records, Service). -/

section
variable {s t : State}

theorem canonical.flushDriver (h : canonical s) (key : Nat) : canonical (s.flushDriver key) := by
  unfold State.flushDriver
  split
  · exact h
  · exact h.modNode ..

theorem canonical.quietLink (h : canonical s) (key : Nat) : canonical (s.quietLink key) := (h.modLink ..).flushDriver key

theorem canonical.driveNode (h : canonical s) (k : Nat) {f : Carry → Node → Link} :
    canonical (match driver k with
      | none => s
      | some (ix, d, i) => match (s.node ix).next d i with
        | none => s
        | some (c, n) => (s.setNode ix n).setLink k (f c n)) := by
  split
  · exact h
  · split
    · exact h
    · exact (h.setNode ..).setLink ..

theorem canonical.drive (h : canonical s) (k : Nat) : canonical (s.drive k) := by
  unfold State.drive
  refine .ite (h.flushDriver k) (.ite h (.ite ?bridge (h.driveNode k)))
  case bridge =>
    dsimp only
    split
    · exact (h.setLink ..).setLink ..
    · split
      · exact h.setLink ..
      · exact h.driveNode k

theorem canonical.timingEvent (h : canonical s) (kind d : Nat) : canonical (s.timingEvent kind d) := h.event ..

theorem canonical.controllerEvent (h : canonical s) (kind cause : Nat) : canonical (s.controllerEvent kind cause) := h.event ..

theorem canonical.maintEvent (h : canonical s) (a : Activity) (outcome : Nat) : canonical (s.maintEvent a outcome) := h.event ..

theorem canonical.firingEvent (h : canonical s) (kind fn group sag rank : Nat) (sags : List Nat) :
    canonical (s.firingEvent kind fn group sag rank sags) := h.event ..

theorem canonical.failLink (h : canonical s) (k reason : Nat) : canonical (s.failLink k reason) := h.modLink ..

theorem canonical.rekey (h : canonical s) (cause : Nat) : canonical (s.rekey cause) :=
  have ht := h.modCfg (fun c => { c with reproKey := crc64 (reproImage s), exactKey := crc64 exactImage }) h.saggars
  .ite ht (ht.event ..)

theorem canonical.takeRanks (h : canonical s) : canonical s.takeRanks :=
  h.foldl (fun _ _ ha => ha.modFormed _ fun _ hp => hp.takeRank _) _

theorem canonical.notePace (h : canonical s) : canonical s.notePace := h.withKiln (by rfl) (by rfl)

theorem canonical.disableLeaf (h : canonical s) (l : Nat) : canonical (s.disableLeaf l) :=
  (h.modCfg _ h.saggars).firingEvent ..

theorem canonical.leafEvent (h : canonical s) (l count : Nat) : canonical (s.leafEvent l count) := h.fault ..

theorem canonical.leafLostAtStart (h : canonical s) (l : Nat) : canonical (s.leafLostAtStart l) := by
  unfold State.leafLostAtStart
  refine .ite h (canonical.leafEvent (canonical.disableLeaf (canonical.modKiln_same (h.modFormed l ?_) _ rfl rfl) l) l 0)
  exact fun _ hp => hp.fail

theorem canonical.modStat (h : canonical s) (ix : Nat) (f : NodeStat → NodeStat) : canonical (s.modStat ix f) :=
  Proofs.canonical_modStat h f

theorem canonical.nodeEvent (h : canonical s) (ix kind twin count : Nat) : canonical (s.nodeEvent ix kind twin count) := h.fault ..

theorem canonical.linkEvent (h : canonical s) (key kind count : Nat) : canonical (s.linkEvent key kind count) := h.fault ..

theorem canonical.pairLostAtStart (h : canonical s) (ix : Nat) : canonical (s.pairLostAtStart ix) := by
  unfold State.pairLostAtStart
  refine .ite ?ctl ((h.modStat ..).nodeEvent ..)
  case ctl =>
    have ht := (h.modStat ix (fun n => { n.pairLost 0x09 with testFailed := true, reported := true })).nodeEvent ix 0x09 3 0
    exact canonical.foldl (.ite (ht.withKiln (by rfl) (by rfl)) ht) (fun _ l ha => ha.leafLostAtStart l) _

theorem canonical.partLostAtStart (h : canonical s) (p : Part) : canonical (s.partLostAtStart p) := by
  cases p with
  | twin ix t => exact .ite h (.ite (h.pairLostAtStart ix) ((h.modStat ..).nodeEvent ..))
  | pair ix => exact .ite h (h.pairLostAtStart ix)
  | ctrlLink ix => exact .ite h (h.pairLostAtStart ix)
  | link key => exact .ite h (((h.failLink ..).modLink ..).linkEvent ..)
  | leaf l => exact h.leafLostAtStart l
  | dieSlice d =>
    exact ((h.modDie ..).foldl (fun _ ix ha => .ite ha (ha.pairLostAtStart ix)) _).foldl (fun _ l ha => ha.leafLostAtStart l) _

theorem canonical.safeMode (h : canonical s) (cause : Nat) : canonical (s.safeMode cause) := (h.modCtlr _).controllerEvent ..

theorem canonical.serves (h : canonical s) (kind cause : Nat) : canonical (s.serves kind cause) :=
  ((h.modCtlr _).foldl (fun _ _ ha => ha.modPort ..) _).controllerEvent ..

theorem canonical.afterSelfTest (h : canonical s) : canonical s.afterSelfTest := h.modCtlr _

/-! Leaf ports (LeafRegs, Taking, Chunks, Passes). -/

theorem canonical.sendUp (h : canonical s) (l : Nat) (a : Arm) : canonical (s.sendUp l a) :=
  .ite h (h.withCtl (by intro _; rfl))

theorem canonical.leafReset (h : canonical s) (l : Nat) : canonical (s.leafReset l) := by
  unfold State.leafReset
  refine .ite h (canonical.sendUp (canonical.foldl (h.setLeaf l _ ?_) (fun _ _ ha => ha.sendUp ..) _) ..)
  exact h.scratch l

theorem canonical.lpCtrlWrite (h : canonical s) (l : Nat) (v : Word) : canonical (s.lpCtrlWrite l v) :=
  .ite (h.leafReset l) (h.modFormed l fun _ hp => hp.ctrlWrite v)

theorem canonical.lpWrite (h : canonical s) (l off : Nat) (narrow : Bool) (v : Word) : canonical (s.lpWrite l off narrow v) := by
  unfold State.lpWrite
  refine .ite (h.modFormed l fun _ hp => hp.push ..) (.ite h ?_)
  split
  · exact h.lpCtrlWrite l v
  · exact h.modFormed l fun _ hp => hp.ringWrite hp
  · exact h.modFormed l fun _ hp => hp.ringWrite hp
  · exact h.modFormed l fun _ hp => hp.ringWrite hp
  · exact h.modFormed l fun _ hp => hp.doorbell v
  · exact h.modFormed l fun _ hp => hp.cqHeadWrite v
  · exact h.withLeaf (by intro _; rfl)
  · exact h.withLeaf (by intro _; rfl)
  · exact h

theorem canonical.take (h : canonical s) (l : Nat) (d : HeldDesc) : canonical (s.take l d) :=
  h.modFormed l fun _ hp => .ite hp hp

theorem canonical.writeFaultEvent (h : canonical s) (l : Nat) (x : Taken) : canonical (s.writeFaultEvent l x) :=
  .ite h ((h.withKiln (by rfl) (by rfl)).fault ..)

/-! The kiln (KilnOps). -/

theorem canonical.modGroup (h : canonical s) (g : Nat) (f : GroupRun → GroupRun) : canonical (s.modGroup g f) :=
  h.withKiln (by rfl) (by rfl)

theorem canonical.modKacc (h : canonical s) (i : Nat) (f : KAcc → KAcc) : canonical (s.modKacc i f) := h.withKiln (by rfl) (by rfl)

theorem canonical.sendDown (h : canonical s) (m : CtlMsg) : canonical (s.sendDown m) :=
  h.foldl (fun _ _ ha => ha.withCtl (by intro _; rfl)) _

theorem canonical.answerLeaf (h : canonical s) (l : Nat) (e : EndMsg) : canonical (s.answerLeaf l e) := h.sendDown _

theorem canonical.digestUpdate (h : canonical s) (f : Firing) (st : BitVec 8) (r : Quad) : canonical (s.digestUpdate f st r) := by
  unfold State.digestUpdate
  split
  · exact h
  · exact h.withKiln (by rfl) (by rfl)

theorem canonical.kaccEnd (h : canonical s) (f : Firing) (st : BitVec 8) : canonical (s.kaccEnd f st) := .ite (h.modKacc ..) h

theorem canonical.wakeSegs (h : canonical s) (segs : List (Nat × Nat)) : canonical (s.wakeSegs segs) :=
  h.foldl (fun _ _ ha => ha.modDie ..) _

theorem canonical.requestWakes (h : canonical s) (f : Firing) : canonical (s.requestWakes f) := by
  unfold State.requestWakes
  refine .ite h (.ite h ?_)
  have ht := (h.wakeSegs ((s.sleeping f.pathLeaves (s.needsAwake f)).filter (fun e => !f.asked.contains e))).modFiring f.uid
    (fun x => { x with
      wants := x.wants ++ (s.needsAwake f).filter (fun p => !x.wants.contains p)
      asked := x.asked ++ (s.sleeping f.pathLeaves (s.needsAwake f)).filter (fun e => !f.asked.contains e) }) fun _ hx => hx
  exact .ite (ht.foldl (fun _ _ ha => .ite (ha.modDie ..) ha) _) ht

theorem canonical.traceEnd (h : canonical s) (f : Firing) (e : EndMsg) : canonical (s.traceEnd f e) := h.traceOffer ..

theorem canonical.poisonEvent (h : canonical s) (f : Firing) (e : EndMsg) : canonical (s.poisonEvent f e) := .ite (h.fault ..) h

theorem canonical.dropSlots (h : canonical s) (f : Firing) (planes : List Nat) (early : Bool) :
    canonical (s.dropSlots f planes early) := by
  unfold State.dropSlots
  split
  · exact h
  · exact h.foldl (fun _ _ ha => ha.foldl (fun _ _ hb => hb.modNode ..) _) _

theorem canonical.dropDeposits (h : canonical s) (f : Firing) : canonical (s.dropDeposits f) := h.elsewhere (by rfl)

theorem canonical.countWait (h : canonical s) (f : Firing) : canonical (s.countWait f) :=
  .ite h ((h.bumpBy ..).withFiring (by intro _ hx; exact hx))

theorem canonical.closePositions (h : canonical s) : canonical s.closePositions := h.filterFirings _

theorem canonical.fenceIfFull (h : canonical s) (f : Firing) : canonical (s.fenceIfFull f) := .ite ((h.modGroup ..).firingEvent ..) h

theorem canonical.finishEnd (h : canonical s) (uid : Nat) : canonical (s.finishEnd uid) := by
  unfold State.finishEnd
  split
  · exact h
  · next f hf =>
    split
    · exact h
    · extract_lets ran early e sent waited g dropped fed fenced ended resting reported
      have hsent : canonical sent := .ite (h.sendDown _) (h.sendDown _)
      have hwaited : canonical waited := hsent.countWait f
      have hdropped : canonical dropped := .ite (((hwaited.dropSlots ..).dropDeposits _).digestUpdate ..) hwaited
      have hfed : canonical fed := .ite (hdropped.kaccEnd ..) hdropped
      have hended : canonical ended := (hfed.fenceIfFull g).withFiring (by intro _ hx; exact hx)
      have hresting : canonical resting := .ite (hended.withKiln (by rfl) (by rfl)) hended
      exact ((hresting.traceEnd ..).poisonEvent ..).tock.closePositions

theorem canonical.sendEnds (fuel g : Nat) : ∀ {s : State}, canonical s → canonical (s.sendEnds fuel g) := by
  induction fuel with
  | zero => exact id
  | succ fuel ih =>
    intro s h
    unfold State.sendEnds
    split
    · exact h
    · exact ih ((h.finishEnd _).modGroup ..)

theorem canonical.decideEnd (h : canonical s) (uid : Nat) (st : BitVec 8) (rank code : Nat) :
    canonical (s.decideEnd uid st rank code) := by
  unfold State.decideEnd
  split
  · exact h
  · have ht := h.modFiring uid (fun x => { x with cause := some (st, BitVec.ofNat 16 rank, BitVec.ofNat 8 code, s.time) }) fun _ hx => hx
    exact .ite h (.ite (ht.finishEnd uid) (canonical.sendEnds _ _ ht))

theorem canonical.kaccRefuse (h : canonical s) (f : Firing) (st : BitVec 8) (code : Nat) : canonical (s.kaccRefuse f st code) :=
  canonical.decideEnd (.ite (h.modKacc ..) h) ..

theorem canonical.takeFree (h : canonical s) (f : Firing) : canonical (s.takeFree f) := h.withFiring (by intro _ hx; exact hx)

theorem canonical.offerOne (h : canonical s) (uid : Nat) : canonical (s.offerOne uid) := by
  unfold State.offerOne
  split
  · exact h
  · next f hf =>
    refine .ite h (.ite (h.decideEnd ..) (.ite (h.requestWakes f) ?_))
    split
    · exact .ite h (h.kaccRefuse ..)
    · have ht := (h.modFiring uid (fun x => { x with checked := true, setter := match x.setter with
        | some y => some y
        | none => s.freeSetter }) fun _ hx => hx).requestWakes f
      dsimp only
      split
      · exact ht.takeFree _
      · exact ht

theorem canonical.offer (h : canonical s) : canonical s.offer := h.foldl (fun _ uid ha => ha.offerOne uid) _

end
section
variable {s t : State}

/-! The deposit port (DepositOps). -/

theorem canonical.askMemory (h : canonical s) (uid : Nat) (rs : List DepReq) : canonical (s.askMemory uid rs) := 
  canonical.withFiring (h.elsewhere (by rfl)) (by intro _ hx; exact hx)

theorem canonical.askLines (h : canonical s) (f : Firing) (rs : List DepReq) : canonical (s.askLines f rs) := 
  canonical.askMemory (h.elsewhere (by rfl)) ..

theorem canonical.depAdd (h : canonical s) (f : Firing) (lo : Nat) (cells : List Cell) : canonical (s.depAdd f lo cells) := by
  unfold State.depAdd
  extract_lets d v ks bad made failed op t lanes
  have ht : canonical t := h.withFiring (by intro _ hx; exact hx)
  exact .ite (ht.askLines ..) (ht.askMemory ..)

theorem canonical.depZero (h : canonical s) (f : Firing) : canonical (s.depZero f) := h.askMemory ..

theorem canonical.depGlaze (h : canonical s) (f : Firing) (lo n : Nat) : canonical (s.depGlaze f lo n) := h.askMemory ..

theorem canonical.glazeStep (h : canonical s) (f : Firing) (r : DepReq) (data : BitVec 512) : canonical (s.glazeStep f r data) := by
  unfold State.glazeStep
  extract_lets v w k j x c keep dep t
  have ht : canonical t := h.elsewhere (by rfl)
  exact .ite h (.ite (h.askMemory ..) (.ite ht (.ite (ht.askMemory ..) (ht.askMemory ..))))

theorem canonical.depDrop (h : canonical s) (f : Firing) (ks : List Nat) : canonical (s.depDrop f ks) := 
  canonical.withFiring (h.elsewhere (by rfl)) (by intro _ hx; exact hx)

theorem canonical.clearInitBits (h : canonical s) (f : Firing) (ks : List Nat) : canonical (s.clearInitBits f ks) :=
  .ite (h.modCfg _ h.saggars) h

theorem canonical.depAnswer (h : canonical s) (f : Firing) (r : DepReq) (code : DepCode) (data : BitVec 512) :
    canonical (s.depAnswer f r code data) := by
  unfold State.depAnswer
  extract_lets ks t u v
  have ht : canonical t := h.withFiring (by intro _ hx; exact hx)
  cases code with
  | ok => exact .ite (ht.glazeStep ..) ht
  | mappedOut => exact ht.withFiring (by intro _ hx; exact hx)
  | dataError =>
    have hu : canonical u := .ite (ht.fault ..) ht
    have hv : canonical v := hu.withFiring (by intro _ hx; exact hx)
    exact .ite (hv.depDrop ..) (hv.clearInitBits ..)

/-! ARMs (Arming). -/

theorem canonical.noteArmed (h : canonical s) (uid : Nat) (ls : List Nat) : canonical (s.noteArmed uid ls) :=
  h.withFiring (by intro _ hx; exact hx)

theorem canonical.armUp (h : canonical s) (q : Nat) (a : Arm) : canonical (s.armUp q a) :=
  .ite (canonical.modKiln_same (h.withCtl (by intro _; rfl)) _ rfl rfl) (h.withCtl (by intro _; rfl))

theorem canonical.noteFirst (h : canonical s) (q : Nat) (a : Arm) (opens : Bool) : canonical (s.noteFirst q a opens) := by
  unfold State.noteFirst
  refine .ite h ?_
  split
  · exact h.noteArmed ..
  · exact .ite (h.armUp ..) h

theorem canonical.forward (h : canonical s) (q g ord : Nat) (r : GroupRec) : canonical (s.forward q g ord r) := by
  unfold State.forward
  split
  · exact h
  · exact .ite (h.armUp ..) h

/-- A node that takes an input into a position keeps its counts. -/
theorem arm_counts (n : CtlNode) (g ord input : Nat) (a : Arm) (merge : Bool) : (n.arm g ord input a merge).counts = n.counts := by
  unfold CtlNode.arm
  split <;> rfl

theorem canonical.armCounted (h : canonical s) (q input : Nat) (r : GroupRec) (a : Arm) : canonical (s.armCounted q input r a) := by
  have harm (merge : Bool) : canonical (s.modCtl (nodeIx q true 0) (fun n => n.arm a.group a.ord input a merge)) :=
    h.withCtl fun n => arm_counts n ..
  unfold State.armCounted
  extract_lets ix opens t
  refine .ite (h.armUp ..) (.ite (h.armUp ..) (.ite ((harm false).armUp ..) ?_))
  exact canonical.forward (.ite ((harm true).noteFirst ..) (harm true)) ..

theorem canonical.armAt (h : canonical s) (q input : Nat) (a : Arm) : canonical (s.armAt q input a) := by
  unfold State.armAt
  extract_lets ix
  refine .ite (h.armUp ..) ?_
  split
  next r cache hr =>
  extract_lets t
  have ht : canonical t := h.withCtl (by intro _; rfl)
  split
  · exact ht.armUp ..
  · next x =>
    refine .ite (.ite (ht.armUp ..) ?_) (ht.armCounted ..)
    refine canonical.withCtl (canonical.armCounted (ht.modCtl _ _ ?_) ..) (by intro _; rfl)
    dsimp only
    exact tableWf_tmod (ht.counts _) ..

theorem canonical.mergeOne (h : canonical s) (q input : Nat) : canonical (s.mergeOne q input) := by
  unfold State.mergeOne
  split
  · exact h
  · exact canonical.armAt (h.withCtl (by intro _; rfl)) ..

theorem canonical.chargeLag (h : canonical s) (f : Firing) : canonical (s.chargeLag f) := 
  canonical.modGroup (h.withLeaf (by intro _; rfl)) ..

theorem canonical.armComplete (h : canonical s) (uid : Nat) : canonical (s.armComplete uid) := by
  unfold State.armComplete
  split
  · exact h
  · next f hf =>
    extract_lets t
    have ht : canonical t := h.chargeLag f
    split
    · exact ht.decideEnd ..
    · exact canonical.offer (canonical.withKiln (ht.withFiring (by intro _ hx; exact hx)) (by rfl) (by rfl))

theorem canonical.armFirst (h : canonical s) (a : Arm) : canonical (s.armFirst a) := by
  unfold State.armFirst
  refine .ite h ?_
  split
  · exact h
  · next t uid hp =>
    extract_lets u
    have hu : canonical u := (h.position hp).noteArmed ..
    split
    · exact hu.decideEnd ..
    · exact hu

theorem canonical.armMerged (h : canonical s) (input : Nat) (a : Arm) : canonical (s.armMerged input a) := by
  unfold State.armMerged
  split
  · exact h
  · next t uid hp =>
    extract_lets opened u
    have hu : canonical u := (h.position hp).noteArmed ..
    split
    · exact hu
    · next f hf =>
      refine .ite hu.closePositions (.ite hu ?_)
      split
      · exact hu.decideEnd ..
      · split
        next r cache hr =>
        extract_lets v armed
        have hv : canonical v := canonical.withFiring (hu.withKiln (by rfl) (by rfl)) (by intro _ hx; exact hx)
        exact .ite (hv.armComplete uid) hv

theorem canonical.armAborts (h : canonical s) (a : Arm) : canonical (s.armAborts a) := by
  unfold State.armAborts
  split
  · exact h
  · next t uid hp => exact (((h.position hp).noteArmed ..).decideEnd ..).closePositions

theorem canonical.armResets (h : canonical s) (l : Nat) : canonical (s.armResets l) := by
  unfold State.armResets
  extract_lets t
  have ht : canonical t := h.foldl (fun a p ha => .ite ha (by
    split
    · next b uid hp => exact (ha.position hp).noteArmed ..
    · exact ha)) _
  exact ht.foldl (fun _ _ ha => ha.decideEnd ..) _

theorem canonical.armLate (h : canonical s) (a : Arm) : canonical (s.armLate a) := by
  unfold State.armLate
  split
  · exact h
  · split
    · exact h
    · exact ((h.foldl (fun _ _ ha => ha.answerLeaf ..) _).noteArmed ..).closePositions

theorem canonical.armForeign (h : canonical s) (a : Arm) : canonical (s.armForeign a) :=
  h.foldl (fun _ _ ha => ha.answerLeaf ..) _

/-! Messages downward and flits of leaf ports (Arming, Sending). -/

theorem canonical.releaseSlots (h : canonical s) (q : Nat) (g : GrantMsg) : canonical (s.releaseSlots q g) :=
  h.foldl (fun _ _ ha => ha.modNode ..) _

theorem canonical.mergeWaiting (q g : Nat) (fuel : Nat) : ∀ {s : State}, canonical s → canonical (s.mergeWaiting fuel q g) := by
  induction fuel with
  | zero => exact id
  | succ fuel ih =>
    intro s h
    unfold State.mergeWaiting
    split
    · exact h
    · exact ih (h.mergeOne ..)

theorem canonical.endPasses (h : canonical s) (q : Nat) (e : EndMsg) : canonical (s.endPasses q e).2 := by
  unfold State.endPasses
  extract_lets ix g t p who u v ins base w
  have ht : canonical t := canonical.mergeWaiting q g _ h
  have hu : canonical u := ht.withCtl (by intro _; rfl)
  have hv : canonical v := by
    unfold v
    split
    · exact hu.noteArmed ..
    · exact hu
  have hw : canonical w :=
    .ite (canonical.withCtl (canonical.withCtl hv (by intro _; rfl)) (by intro _; rfl)) hv
  exact hw.closePositions

theorem canonical.forgetPos (h : canonical s) (ix : Nat) (e : EndMsg) : canonical (s.forgetPos ix e) := h.withCtl (by intro _; rfl)

theorem canonical.copyDown (h : canonical s) (q : Nat) (m : CtlMsg) : canonical (s.copyDown q m) := by
  unfold State.copyDown
  exact .ite (h.foldl (fun _ _ ha => ha.withCtl (by intro _; rfl)) _) (h.foldl (fun _ _ ha => ha.withLeaf (by intro _; rfl)) _)

theorem canonical.sourceLost (h : canonical s) (l : Nat) (x : Taken) : canonical (s.sourceLost l x) := by
  unfold State.sourceLost
  extract_lets u
  have hu : canonical u := h.withLeaf (by intro _; rfl)
  split
  · exact (canonical.sendEnds _ _ (hu.decideEnd ..)).offer
  · exact hu

/-! Grants and what the kiln does with flits (Granting, Finish). -/

theorem canonical.openSlots (h : canonical s) (f : Firing) (planes : List Nat) : canonical (s.openSlots f planes) := by
  unfold State.openSlots
  split
  · exact h
  · exact h.foldl (fun _ _ ha => ha.foldl (fun _ _ hb => hb.modNode ..) _) _

theorem canonical.sendGrant (h : canonical s) (f : Firing) : canonical (s.sendGrant f) := (h.traceOffer ..).sendDown _

theorem canonical.keepAwake (h : canonical s) (f : Firing) : canonical (s.keepAwake f) := h.foldl (fun _ _ ha => ha.modDie ..) _

theorem canonical.grantOne (h : canonical s) (f : Firing) : canonical (s.grantOne f) := by
  unfold State.grantOne
  extract_lets planes lat fn dig g t u v
  have ht : canonical t := canonical.modFiring (h.withKiln (by rfl) (by rfl)) _ _ fun _ _ => rfl
  have hu : canonical u := .ite ((ht.openSlots ..).keepAwake g) ht
  have hv : canonical v := .ite (hu.modKacc ..) hu
  exact (hv.modGroup ..).sendGrant g

theorem canonical.noteOld (h : canonical s) : canonical s.noteOld :=
  h.foldl (fun _ _ ha => canonical.firingEvent (ha.withFiring (by intro _ hx; exact hx)) ..) _

theorem markRange_uid (f : Firing) (seg : Nat) (on : Bool) : (f.markRange seg on).uid = f.uid := by
  unfold Firing.markRange
  split <;> rfl

theorem canonical.upAtNode (h : canonical s) (q p i : Nat) (f : Firing) (sl : Slot) (c : Carry) :
    canonical (s.upAtNode q p i f sl c) := by
  unfold State.upAtNode
  extract_lets ix sl' t
  refine .ite ?count (.ite (h.modNode ..) ?rest)
  case count => split <;> exact h.modNode ..
  case rest =>
    split
    · exact h
    · refine .ite (h.modNode ..) ?_
      exact canonical.modFiring (h.modNode ..) _ _ fun _ hx => (markRange_uid ..).trans hx

theorem canonical.sendFlits (h : canonical s) (f : Firing) (p : Nat) (cs : List Carry) : canonical (s.sendFlits f p cs) := h.modNode ..

theorem canonical.kaccFeed (h : canonical s) (f : Firing) (st : Stripe) (cs : List Cell) : canonical (s.kaccFeed f st cs).1 :=
  h.modKacc ..

theorem canonical.fedOnce (h : canonical s) (once : Bool) (f : Firing) (st : Stripe) (cs : List Cell) :
    canonical (if once then s.kaccFeed f st cs else (s, false)).1 := by
  split
  · exact h.kaccFeed ..
  · exact h

theorem canonical.deliver (h : canonical s) (f : Firing) (p : Nat) (st : Stripe) (o : StripeOut) : canonical (s.deliver f p st o) := by
  unfold State.deliver
  extract_lets segs ovf t
  have ht : canonical t := h.withFiring (by intro _ hx; exact hx)
  exact .ite ht (ht.sendFlits ..)

theorem canonical.finishStripe (h : canonical s) (f : Firing) (p : Nat) (st : Stripe) (dat : StripeData) (pre : List Cell) :
    canonical (s.finishStripe f p st dat pre) := by
  unfold State.finishStripe
  extract_lets d a once t
  have ht : canonical t := h.withFiring (by intro _ hx; exact hx)
  cases dat with
  | bytes bs => exact canonical.withFiring (ht.deliver ..) (by intro _ hx; exact hx)
  | none => exact .ite (ht.deliver ..) ht
  | cells cs ps =>
    refine .ite (ht.deliver ..) (.ite (.ite (canonical.depAdd (ht.withFiring (by intro _ hx; exact hx)) ..) (ht.withFiring (by intro _ hx; exact hx)))
      (.ite (ht.deliver ..) (.ite (.ite (canonical.decideEnd (ht.withFiring (by intro _ hx; exact hx)) ..) ?_) (ht.deliver ..))))
    split
    next u bad hu =>
    have hfed : canonical u := by
      have hfed := ht.fedOnce once f st cs
      rwa [hu] at hfed
    have hmarked : canonical (u.modFiring f.uid (fun x => x.markRange st.seg bad)) :=
      hfed.withFiring fun _ hx => (markRange_uid ..).trans hx
    exact .ite (hmarked.deliver ..) hmarked

theorem canonical.advanceOne (h : canonical s) {uid p : Nat} {u : State} (hu : s.advanceOne uid p = some u) : canonical u := by
  unfold State.advanceOne at hu
  split at hu
  · cases hu
  · split at hu
    · cases hu
    · split at hu
      · cases hu
      · split at hu
        · cases hu
        · split at hu
          · cases hu
            exact h.finishStripe ..
          · cases hu

theorem canonical.advancePlane (uid p : Nat) (fuel : Nat) : ∀ {s : State}, canonical s → canonical (State.advancePlane uid p fuel s) := by
  induction fuel with
  | zero => exact id
  | succ fuel ih =>
    intro s h
    unfold State.advancePlane
    split
    · exact h
    · next t ht => exact ih (h.advanceOne ht)

theorem canonical.scaledAdds (h : canonical s) (uid : Nat) : canonical (s.scaledAdds uid) := by
  unfold State.scaledAdds
  split
  · exact h
  · refine .ite (canonical.foldl (h.withFiring (by intro _ hx; exact hx)) (fun a st ha => ?_) _) h
    split
    · exact ha.depAdd ..
    · exact ha

theorem canonical.sendCounts (h : canonical s) (uid : Nat) : canonical (s.sendCounts uid) := by
  unfold State.sendCounts
  split
  · exact h
  · exact .ite (canonical.sendFlits (h.withFiring (by intro _ hx; exact hx)) ..) h

theorem canonical.kilnAdvance (h : canonical s) (uid : Nat) : canonical (s.kilnAdvance uid) := by
  unfold State.kilnAdvance
  split
  · exact h
  · exact ((h.foldl (fun _ _ ha => canonical.advancePlane _ _ _ ha) _).scaledAdds uid).sendCounts uid

theorem canonical.phaseOneEnd (h : canonical s) (f : Firing) (p total : Nat) : canonical (s.phaseOneEnd f p total) :=
  canonical.kilnAdvance (canonical.sendFlits (h.withFiring (by intro _ hx; exact hx)) ..) _

end
section
variable {s t : State}

/-! Flits, links, twins and losses (Datapath, Faults). -/

theorem canonical.upAtKiln (h : canonical s) (p i : Nat) (f : Firing) (sl : Slot) (c : Carry) :
    canonical (s.upAtKiln p i f sl c) := by
  unfold State.upAtKiln
  extract_lets ix slot was read
  refine .ite ?_ ?_
  · split
    · exact .ite (h.modNode ..) (canonical.phaseOneEnd (h.modNode ..) ..)
    · exact h.modNode ..
  · split
    · exact h
    · refine .ite (canonical.kilnAdvance (h.withFiring (by intro _ hx; exact hx)) _) (.ite ?_ ?_)
      · exact canonical.kilnAdvance (canonical.withFiring (h.modNode ..) (by intro _ hx; exact hx)) _
      · refine canonical.kilnAdvance (canonical.withFiring (h.modNode ..) ?_) _
        exact fun _ hx => (markRange_uid ..).trans hx

theorem canonical.startGranted (h : canonical s) (uid : Nat) : canonical (s.startGranted uid) := by
  unfold State.startGranted
  split
  · exact h
  · exact .ite (h.depZero _) (.ite (h.foldl (fun _ _ ha => ha.depGlaze ..) _) (.ite (h.kilnAdvance uid) h))

theorem canonical.driveAll (h : canonical s) (keys : List Nat) : canonical (s.driveAll keys) := h.foldl (fun _ k ha => ha.drive k) _

theorem canonical.driveKiln (h : canonical s) : canonical s.driveKiln := h.driveAll _

theorem canonical.cutLink (h : canonical s) (key reason : Nat) : canonical (s.cutLink key reason) := (h.failLink ..).quietLink _

theorem canonical.takeFlit (h : canonical s) {key : Nat} {err : BitVec 568} {c : Option Carry} (ht : s.takeFlit key err = some (c, t)) :
    canonical t := by
  unfold State.takeFlit at ht
  extract_lets k at ht
  split at ht
  · split at ht
    · cases ht
    · cases ht
      exact h.setLink ..
  · split at ht
    · cases ht
    · split at ht
      · cases ht
      · split at ht
        · cases ht
          exact h.setLink ..
        · cases ht
          exact canonical.cutLink (h.setLink ..) ..

theorem canonical.stray (h : canonical s) (ix : Nat) : canonical (s.stray ix) := h.modNode ..

theorem canonical.upAt (h : canonical s) (q p i : Nat) (c : Carry) : canonical (s.upAt q p i c) := by
  unfold State.upAt
  extract_lets ix
  split
  · exact .ite (h.upAtKiln ..) (h.upAtNode ..)
  · exact h.stray ix

theorem canonical.downAt (h : canonical s) (q p : Nat) (c : Carry) : canonical (s.downAt q p c) := by
  unfold State.downAt
  extract_lets ix
  split
  · exact .ite (h.modNode ..) (h.stray ix)
  · exact h.stray ix

theorem canonical.losePair (h : canonical s) (ix reason : Nat) : canonical (s.losePair ix reason) :=
  canonical.foldl (canonical.modNode (h.modStat ..) ..) (fun _ k ha => ha.quietLink k) _

theorem canonical.takeover (h : canonical s) (ix : Nat) (w : Twin) : canonical (s.takeover ix w) := (h.modStat ..).nodeEvent ..

theorem canonical.handoff {u : State} (h : canonical s) (hu : canonical u) (ix setter : Nat) (x : Handoff) :
    canonical (s.handoff u ix setter x) := by
  unfold State.handoff
  split
  extract_lets residue lost
  have hlost : canonical lost := (h.modStat ..).losePair ..
  refine .ite hu (.ite (.ite ((h.modStat ..).losePair ..) hu) (.ite ((h.modStat ..).losePair ..)
    (.ite (hu.takeover ..) (.ite (hu.takeover ..) (.ite ?_ hu)))))
  split
  · exact hlost.withKiln (by rfl) (by rfl)
  · exact hlost

theorem canonical.twinFault (h : canonical s) (ix : Nat) (w : Twin) : canonical (s.twinFault ix w) := by
  unfold State.twinFault
  extract_lets n ctl out
  exact .ite h (.ite (.ite (h.modStat ..) (h.losePair ..)) ((h.modStat ..).nodeEvent ..))

theorem canonical.noteKilnCtl (h : canonical s) : canonical s.noteKilnCtl := .ite (h.withKiln (by rfl) (by rfl)) h

theorem canonical.ctlDiffers (h : canonical s) (ix : Nat) : canonical (s.ctlDiffers ix) := h.modStat ..

theorem canonical.leafCopyLost (h : canonical s) (l : Nat) (w : Twin) : canonical (s.leafCopyLost l w) := by
  unfold State.leafCopyLost
  extract_lets p was
  refine .ite h (canonical.fault (h.setLeaf l _ ?_) ..)
  cases w <;> exact h.scratch l

theorem canonical.dropKilnSlots (h : canonical s) (x : Nat) (planes : List Nat) : canonical (s.dropKilnSlots x planes) :=
  h.foldl (fun _ _ ha => ha.modNode ..) _

theorem canonical.redeal (h : canonical s) (f : Firing) (up : List Nat) : canonical (s.redeal f up) := by
  unfold State.redeal
  extract_lets g u
  have hg : canonical (s.modFiring f.uid fun _ => g) := h.withFiring fun _ _ => rfl
  have hu : canonical u := hg.dropKilnSlots ..
  exact canonical.sendGrant (hu.withKiln (by rfl) (by rfl)) _

theorem canonical.moveLatency (h : canonical s) (held : Needs) (f : Firing) (up : List Nat) : canonical (s.moveLatency held f up) :=
  .ite ((h.openSlots ..).redeal ..) (h.withFiring (by intro _ hx; exact hx))

theorem canonical.lossOn (h : canonical s) (uid : Nat) : canonical (s.lossOn uid) := by
  unfold State.lossOn
  split
  · exact h
  · exact .ite h (.ite h (.ite h (.ite (h.decideEnd ..) (.ite (h.withFiring (by intro _ hx; exact hx)) (.ite (h.moveLatency ..) (h.redeal ..))))))

theorem canonical.noteLink (h : canonical s) (key : Nat) : canonical (s.noteLink key) :=
  .ite (h.modLink ..) ((h.modLink ..).linkEvent ..)

theorem canonical.notePair (h : canonical s) (ix : Nat) : canonical (s.notePair ix) := by
  unfold State.notePair
  extract_lets u n
  have hu : canonical u := h.modStat ..
  refine .ite (hu.nodeEvent ..) (.ite hu ?_)
  split
  · exact hu.fault ..
  · exact hu.nodeEvent ..

theorem canonical.endMiscompared (h : canonical s) : canonical s.endMiscompared :=
  canonical.withKiln (h.foldl (fun _ _ ha => ha.decideEnd ..) _) (by rfl) (by rfl)

theorem canonical.freshSlots (h : canonical s) (f : Firing) : canonical (s.freshSlots f) := (h.dropSlots ..).openSlots ..

theorem canonical.forwardPast (h : canonical s) (before : State) (q : Nat) : canonical (s.forwardPast before q) :=
  h.foldl (fun _ _ ha => by
    split
    · exact ha
    · exact .ite ha (ha.forward ..)) _

theorem canonical.registerLeaf (h : canonical s) (l : Nat) : canonical (s.registerLeaf l) := by
  unfold State.registerLeaf
  extract_lets noted reported ended
  have hnoted : canonical noted := (h.withLeaf (by intro _; rfl)).withKiln (by rfl) (by rfl)
  have hreported : canonical reported := (hnoted.leafEvent ..).disableLeaf l
  have hended : canonical ended := hreported.foldl (fun a uid ha => by
    split
    · exact ha.decideEnd ..
    · exact ha) _
  exact ((hended.forwardPast ..).forwardPast ..).closePositions

theorem canonical.setInitBits (h : canonical s) (f : Firing) : canonical (s.setInitBits f) := .ite (h.modCfg _ h.saggars) h

theorem canonical.afterEnd (h : canonical s) (g : Nat) : canonical (s.afterEnd g) := (canonical.sendEnds _ _ h).offer.driveKiln

theorem formed.faults {p : LeafPort} (h : formed p) (x : Taken) (bad : List (Nat × Nat × Nat)) :
    formed (bad.foldl (fun q e => q.chunkFault x clWriteAddr e.2.1 e.1) p) :=
  List.foldlRecOn (motive := formed) bad _ h fun _ hq _ _ => hq

theorem canonical.writeFaulted (h : canonical s) (l : Nat) (x : Taken) (bad : List (Nat × Nat × Nat)) :
    canonical (s.writeFaulted l x bad) := by
  unfold State.writeFaulted
  extract_lets p
  have hp : formed p := formed.faults (h.scratch l) x bad
  split
  · exact h
  · split
    · exact h
    · exact (h.setLeaf l _ (List.foldlRecOn (motive := formed) bad _ (hp.writeRecord ..) fun _ hq _ _ => hq.store ..)).tock.writeFaultEvent ..

/-! Words and memories that fail (ConfigMem). -/

theorem canonical.wordEvent (h : canonical s) (w : CfgWord) (kind : Nat) : canonical (s.wordEvent w kind) := h.fault ..

theorem canonical.wordBad (h : canonical s) (w : CfgWord) (copy : Copy) (otherBad rewriteBad : Bool) :
    canonical (s.wordBad w copy otherBad rewriteBad) := by
  have hc (f : Config → Config) {u : State} (hu : canonical u) (hf : (f u.cfg).saggars = u.cfg.saggars) : canonical (u.modCfg f) :=
    hu.modCfg f (by rw [hf]; exact hu.saggars)
  unfold State.wordBad
  extract_lets counted alone lost rewritten
  have hcounted : canonical counted := hc _ h (by cases copy <;> rfl)
  have hlost : canonical lost := canonical.wordEvent (hc _ hcounted rfl) ..
  have hrewritten : canonical rewritten := hc _ hcounted rfl
  exact .ite hcounted (.ite (.ite (hlost.modGroup ..) hlost) (hrewritten.wordEvent ..))

theorem canonical.scrubOne (h : canonical s) (f : ScrubFind) : canonical (s.scrubOne f) := by
  refine .ite (h.wordBad ..) (h.modCfg _ ?_)
  cases f.copy <;> exact h.saggars

theorem canonical.stateLost (h : canonical s) (f : Firing) : canonical (s.stateLost f) := (h.decideEnd ..).afterEnd _

theorem canonical.kaccDamaged (h : canonical s) (k : Nat) : canonical (s.kaccDamaged k) := by
  unfold State.kaccDamaged
  split
  · exact (h.fault ..).stateLost _
  · exact (h.modKacc ..).fault ..

theorem canonical.countCorrected (h : canonical s) (m : MemUnit) : canonical (s.countCorrected m) := by
  unfold State.countCorrected
  split
  · exact h.modStat ..
  · exact h.withLeaf (by intro _; rfl)

theorem canonical.countUncorrected (h : canonical s) (m : MemUnit) : canonical (s.countUncorrected m) := by
  unfold State.countUncorrected
  split
  · exact h.modStat ..
  · exact h.withLeaf (by intro _; rfl)

end
section
variable {s t : State}

/-! Die slices (Pyro, Energy). -/

theorem canonical.writeTrims (h : canonical s) (d : Nat) : canonical (s.writeTrims d) := by
  unfold State.writeTrims
  extract_lets x written
  have hwritten : canonical written := h.foldl (fun _ _ ha => ha.modFormed _ fun _ hp => hp.setTrim ..) _
  exact hwritten.modDie ..

theorem canonical.rebaseDie (h : canonical s) (target : Rat) (pass : Bool) (d : Nat) : canonical (s.rebaseDie target pass d) := by
  unfold State.rebaseDie
  extract_lets rebased clamp ranged told
  have hrebased : canonical rebased := h.foldl (fun _ _ ha => ha.modFormed _ fun _ hp => hp.rebase ..) _
  have hranged : canonical ranged := hrebased.modDie ..
  have htold : canonical told := .ite (hranged.timingEvent ..) hranged
  exact htold.writeTrims d

theorem canonical.rebaseChanged (h : canonical s) (old : BitVec 8192) : canonical (s.rebaseChanged old) :=
  h.foldl (fun _ _ ha => .ite ha (ha.rebaseDie ..)) _

theorem canonical.takeDelays (h : canonical s) (d : Nat) (es : List (EchoLink × List Rat)) : canonical (s.takeDelays d es) :=
  h.foldl (fun _ _ ha => ha.withLeaf (by intro _; rfl)) _

theorem canonical.afterFirstPass (h : canonical s) : canonical s.afterFirstPass := .ite (h.modCtlr _) h

theorem canonical.setStale (h : canonical s) (d : Nat) : canonical (s.setStale d) := .ite h ((h.modDie ..).timingEvent ..)

theorem canonical.pruneParks (h : canonical s) (d : Nat) : canonical (s.pruneParks d) := h.modDie ..

/-! Mailbox ports (Mailbox). -/

theorem canonical.answerBusy (h : canonical s) (p : Nat) : canonical (s.answerBusy p) := h.modPort ..

theorem canonical.endSession (h : canonical s) (p : Nat) : canonical (s.endSession p) := (h.modPort ..).modCtlr _

theorem canonical.replyFail (h : canonical s) (q : Req) (v : Byte × Byte) (err detail : Nat) (tagged : Bool) :
    canonical (s.replyFail q v err detail tagged) := by
  unfold State.replyFail
  extract_lets ended version bytes
  have hended : canonical ended := .ite (h.endSession _) h
  exact hended.modPort ..

/-- Answering a request keeps the form that the command's own part has left. -/
theorem canonical.put {r : Reply} (h : canonical r.st) (q : Req) (v : Byte × Byte) : canonical (r.put q v) := by
  unfold Reply.put
  exact h.modPort ..

/-- Carrying out a request keeps the form when the command's own part does. -/
theorem canonical.carryOut (h : canonical s) {q : Req} {run : State → Req → Reply}
    (hrun : ∀ t, canonical t → canonical (run t q).st) : canonical (s.carryOut q run) := by
  unfold State.carryOut
  extract_lets v t
  have ht : canonical t := h.modCtlr _
  split
  · exact ht.modPort ..
  · exact ht.replyFail ..
  · exact (hrun t ht).put ..

theorem canonical.takeReserved (fuel : Nat) : ∀ {s : State}, canonical s → canonical (s.takeReserved fuel) := by
  induction fuel with
  | zero => exact id
  | succ fuel ih =>
    intro s h
    unfold State.takeReserved
    split
    · exact h
    · exact ih (h.carryOut fun _ ht => ht)

theorem canonical.nextRequest (h : canonical s) : canonical s.nextRequest := canonical.takeReserved _ h

theorem canonical.command (h : canonical s) (p code : Nat) {run : State → Req → Reply}
    (hrun : ∀ q t, canonical t → canonical (run t q).st) : canonical (s.command p code run) := by
  unfold State.command
  split
  · exact h
  · exact (h.carryOut (hrun _)).nextRequest

theorem canonical.ring (h : canonical s) (p : Nat) : canonical (s.ring p) :=
  .ite (h.modPort ..) (.ite (h.answerBusy p) (h.modPort ..).nextRequest)

theorem canonical.portReset (h : canonical s) (p : Nat) : canonical (s.portReset p) := ((h.endSession p).modPort ..).nextRequest

theorem canonical.mbxDoorbell (h : canonical s) (p : Nat) (v : Word) : canonical (s.mbxDoorbell p v) := by
  unfold State.mbxDoorbell
  extract_lets t
  have ht : canonical t := .ite (h.portReset p) h
  exact .ite (ht.ring p) ht

theorem canonical.windowWrite (h : canonical s) (p off : Nat) (v : Word) : canonical (s.windowWrite p off v) := by
  unfold State.windowWrite
  extract_lets x
  refine .ite h (.ite (.ite h (h.modPort ..)) ?_)
  split
  · exact h.mbxDoorbell p v
  · exact h.modPort ..
  · exact h.modPort ..
  · exact h

/-! Maintenance activities (Activities). -/

theorem canonical.twinAway (h : canonical s) (ix sel : Nat) : canonical (s.twinAway ix sel) := by
  unfold State.twinAway
  split
  · exact .ite h (h.modStat ..)
  · exact h

theorem canonical.testing (h : canonical s) (ix : Nat) (on : Bool) : canonical (s.testing ix on) := h.modStat ..

theorem canonical.pairAway (h : canonical s) (ix : Nat) : canonical (s.pairAway ix) := .ite h (h.losePair ..)

theorem canonical.linkAway (h : canonical s) (key : Nat) : canonical (s.linkAway key) := .ite h (h.cutLink ..)

theorem canonical.diePlaneAway (h : canonical s) (p d : Nat) : canonical (s.diePlaneAway p d) :=
  canonical.modDie ((h.foldl (fun _ ix ha => ha.pairAway ix) _).foldl (fun _ k ha => ha.linkAway k) _) ..

theorem canonical.planeAway (h : canonical s) (a : Activity) : canonical (s.planeAway a) := by
  unfold State.planeAway
  extract_lets t
  have ht : canonical t := h.foldl (fun _ d ha => ha.diePlaneAway _ d) _
  exact .ite (ht.pairAway _) ht

theorem canonical.begin (h : canonical s) (a : Activity) : canonical (s.begin a) := by
  unfold State.begin
  split
  · exact h.foldl (fun _ _ ha => ha.modDie ..) _
  · exact (h.twinAway ..).testing ..
  · exact .ite (h.pairAway _) (h.twinAway ..)
  · exact h.testing ..
  · exact h.planeAway a
  · exact h.foldl (fun _ _ ha => ha.testing ..) _
  · exact h.modFormed _ fun _ hp => .ite hp hp.fail
  · exact h.modCfg _ h.saggars
  · exact h

theorem canonical.startAct (h : canonical s) (a : Activity) : canonical (s.startAct a) := (h.modCtlr _).begin _

theorem canonical.admitAct (h : canonical s) {a : Activity} {queued : Bool} (ha : s.admitAct a = some (t, queued)) : canonical t := by
  unfold State.admitAct at ha
  extract_lets b add at ha
  have hadd (q : Bool) : canonical (add q) := h.modCtlr _
  split at ha
  · cases ha
  · cases ha
    exact hadd true
  · cases ha
    exact (hadd false).startAct _

theorem canonical.examineQueue (h : canonical s) : canonical s.examineQueue := h.foldl (fun _ a ha => ha.startAct a) _

theorem canonical.endAct (h : canonical s) (a : Activity) (outcome : Nat) : canonical (s.endAct a outcome) :=
  ((h.modCtlr _).maintEvent ..).examineQueue

theorem canonical.twinsBack (h : canonical s) (ix : Nat) (ws : List Twin) (testFailed : Bool) :
    canonical (s.twinsBack ix ws testFailed) := .ite (h.modStat ..) ((h.modStat ..).modNode ..)

theorem canonical.noteKilnBack (h : canonical s) : canonical s.noteKilnBack := .ite h (h.withKiln (by rfl) (by rfl))

theorem canonical.selfTestEnds (h : canonical s) (a : Activity) (failed : List Part) : canonical (s.selfTestEnds a failed).1 := by
  unfold State.selfTestEnds
  extract_lets n ws t bad back
  have ht : canonical t := h.testing ..
  split
  · exact ht
  · exact (ht.twinsBack ..).noteKilnBack

theorem canonical.onlineEnds (h : canonical s) (a : Activity) (failed : List Part) : canonical (s.onlineEnds a failed).1 := by
  unfold State.onlineEnds
  extract_lets ws t
  have ht : canonical t := h.testing ..
  split
  · have hmarked := ht.modStat a.target (fun n => { n with testFailed := true })
    exact hmarked
  · split
    · exact ht
    · exact (ht.twinsBack ..).noteKilnBack

theorem canonical.pairBack (h : canonical s) (ix : Nat) : canonical (s.pairBack ix) := h.twinsBack ..

theorem canonical.diePlaneBack (h : canonical s) (p d : Nat) : canonical (s.diePlaneBack p d) :=
  canonical.modDie ((h.foldl (fun _ ix ha => ha.pairBack ix) _).foldl (fun _ _ ha => ha.modLink ..) _) ..

theorem canonical.planeEnds (h : canonical s) (a : Activity) (failed : List Part) : canonical (s.planeEnds a failed).1 := by
  unfold State.planeEnds
  extract_lets lost kilnIx bad kilnBad tested back mark marked
  have htested : canonical tested := h.foldl (fun _ _ ha => ha.testing ..) _
  have hback : canonical back := htested.foldl (fun _ _ ha => ha.diePlaneBack ..) _
  have hmarked : canonical marked := hback.foldl (fun _ _ ha => .ite (ha.modStat ..) ha) _
  exact .ite (hmarked.pairBack _) hmarked

theorem canonical.leafBack (h : canonical s) (l : Nat) : canonical (s.leafBack l) := by
  unfold State.leafBack
  extract_lets linked back reset
  have hlinked : canonical linked := h.foldl (fun _ _ ha => ha.modLink ..) _
  have hback : canonical back := canonical.withKiln (hlinked.modFormed l fun _ hp => hp.back _) (by rfl) (by rfl)
  have hreset : canonical reset := hback.leafReset l
  exact .ite hreset (hreset.modCfg _ hreset.saggars)

theorem canonical.actEnds (h : canonical s) {a b : Activity} {failed : List Part} {finds : List ScrubFind} {o : Nat}
    (hu : s.actEnds a failed finds = some (t, b, o)) : canonical t := by
  unfold State.actEnds at hu
  split at hu
  · cases hu
  · split at hu
    · obtain ⟨o', -, he⟩ := Option.map_eq_some_iff.mp hu
      cases he
      exact h
    · cases hu
      exact h.foldl (fun _ f ha => ha.scrubOne f) _
    · cases hu
      exact h.selfTestEnds ..
    · split at hu
      · cases hu
      · cases hu
        exact h
    · cases hu
      exact h.onlineEnds ..
    · split at hu
      · cases hu
        exact h
      · cases hu
    · have hends := h.planeEnds a failed
      split at hu <;> next he => cases hu; rwa [he] at hends
    · split at hu
      · cases hu
        exact h
      · cases hu
    · split at hu
      · cases hu
        exact h
      · cases hu
        exact h.leafBack _
    · cases hu

end
section
variable {s t : State}

/-! Block reset and start-up (Startup). -/

theorem canonical.blockReset (h : canonical s) : canonical s.blockReset := by
  have hreset : canonical State.reset := Laws.canonical_of_check (by decide +kernel)
  refine ⟨tableWf_tmapAll h.leaves, hreset.links, hreset.nodes, hreset.ctls, hreset.dies, hreset.ports, hreset.counters, hreset.saggars,
    hreset.counts, fun l => ?_, hreset.fresh, hreset.single, hreset.faultLog, hreset.trace⟩
  rw [Proofs.blockReset_leaf h]
  exact h.scratch l

theorem canonical.assertReset (h : canonical s) (src : ResetSource) : canonical (s.assertReset src) := by
  cases src
  all_goals exact canonical.blockReset (h.elsewhere (by rfl))

/-- Taking the shadow global set keeps the saggars. -/
theorem canonical.schedulePass (h : canonical s) : canonical s.schedulePass := .ite (h.modDie ..) h

theorem canonical.pacingChanged (h : canonical s) : canonical s.pacingChanged := h.foldl (fun _ _ ha => ha.modDie ..) _

/-! Commits and saggars (Commit). -/

/-- Removing entries keeps the keys rising. -/
theorem keysRise_filter {α : Type} (p : Nat × α → Bool) {t : Table α} :
    ∀ {lo : Nat}, keysRise lo t = true → keysRise lo (t.filter p) = true := by
  induction t with
  | nil => exact id
  | cons e t ih =>
    intro lo h
    simp only [keysRise, Bool.and_eq_true, decide_eq_true_eq] at h
    rw [List.filter_cons]
    split
    · simp only [keysRise, Bool.and_eq_true, decide_eq_true_eq]
      exact ⟨h.1, ih h.2⟩
    · exact keysRise_mono (by omega) (ih h.2)

/-- Removing entries keeps the canonical form. -/
theorem tableWf_filter {α : Type} [DecidableEq α] {d : α} {t : Table α} (h : tableWf d t = true) (p : Nat × α → Bool) :
    tableWf d (t.filter p) = true := by
  simp only [tableWf, Bool.and_eq_true, List.all_eq_true] at h ⊢
  exact ⟨keysRise_filter p h.1, fun e he => h.2 e (List.mem_filter.mp he).1⟩

/-- The change of every control-path node that leaves a reset node and counts in form. -/
theorem canonical.mapCtls (h : canonical s) {f : CtlNode → CtlNode} (hd : f {} = {})
    (hf : ∀ n, tableWf 0 n.counts = true → tableWf 0 (f n).counts = true) : canonical { s with ctls := tmapAll {} f s.ctls } := by
  refine ⟨h.leaves, h.links, h.nodes, tableWf_tmapAll h.ctls, h.dies, h.ports, h.counters, h.saggars, fun k => ?_, h.scratch, h.fresh,
    h.single, h.faultLog, h.trace⟩
  have hk : tget {} (tmapAll {} f s.ctls) k = f (s.ctlNode k) := Proofs.tget_tmapAll hd (keysRise_of_wf h.ctls) k
  unfold State.ctlNode
  rw [hk]
  exact hf _ (h.counts k)

theorem canonical.abortGroup (h : canonical s) (g : Nat) : canonical (s.abortGroup g) := by
  unfold State.abortGroup
  extract_lets opened fs order
  have hopened : canonical opened := h.foldl (fun a o ha => by
    split
    · next b uid hp => exact ha.position hp
    · exact ha) _
  exact hopened.foldl (fun _ _ ha => ha.decideEnd ..) _

/-- The change of every firing that keeps the firings' numbers. -/
theorem canonical.mapFirings (h : canonical s) {f : Firing → Firing} (hf : ∀ x, (f x).uid = x.uid) :
    canonical (s.modKiln (fun k => { k with firings := k.firings.map f })) := by
  refine h.modKiln _ (fun x hx => ?_) ?_
  · obtain ⟨y, hy, rfl⟩ := List.mem_map.mp hx
    rw [hf]
    exact h.fresh y hy
  · rw [show ((s.kiln.firings.map f).map (·.uid)) = s.kiln.firings.map (·.uid) by simp [Function.comp_def, hf]]
    exact h.single

theorem canonical.restartGroup (h : canonical s) (g : Nat) (recreated : Bool) : canonical (s.restartGroup g recreated) := by
  unfold State.restartGroup
  extract_lets aborted unexpected forgotten restarted
  have hunexpected : canonical unexpected := (h.abortGroup g).mapFirings fun x => by split <;> rfl
  have hforgotten : canonical forgotten := hunexpected.mapCtls rfl fun _ hn => tableWf_filter hn _
  have hrestarted : canonical restarted := hforgotten.modGroup ..
  exact hrestarted.closePositions

theorem canonical.invalidate (h : canonical s) (hit : Nat → Bool) : canonical (s.invalidate hit) :=
  canonical.elsewhere (h.mapCtls (f := fun n => { n with cache := n.cache.filter (fun r => !hit r.group) }) rfl fun _ hn => hn) (by rfl)

theorem canonical.applyChange (h : canonical s) (g : Nat) (c : GroupChange) : canonical (s.applyChange g c) := by
  cases c with
  | none => exact h
  | created => exact h.modGroup ..
  | deleted => exact h.restartGroup ..
  | recreated => exact h.restartGroup ..

theorem canonical.swapSaggar (h : canonical s) (k : Nat) : canonical (s.swapSaggar k) := by
  unfold State.swapSaggar
  extract_lets x gs changed restarted swapped
  have hrestarted : canonical restarted := h.foldl (fun _ _ ha => ha.applyChange ..) _
  have hswapped : canonical swapped := hrestarted.modCfg _ (saggars_modSag hrestarted.saggars ..)
  exact hswapped.invalidate _

theorem canonical.breakGroup (h : canonical s) (k g : Nat) (rs : List Nat) : canonical (s.breakGroup k g rs) := by
  unfold State.breakGroup
  split
  · exact h
  · exact h.modGroup ..

theorem canonical.newOwners (h : canonical s) (old : Config) : canonical (s.newOwners old) := h.foldl (fun _ _ ha => ha.modGroup ..) _

theorem canonical.swapGlobalSet (h : canonical s) : canonical s.swapGlobalSet := by
  unfold State.swapGlobalSet
  extract_lets c' moved restarted clear swapped broken stale
  have hrestarted : canonical restarted := h.foldl (fun _ _ ha => ha.restartGroup ..) _
  have hswapped : canonical swapped := canonical.rebaseChanged (canonical.takeRanks (hrestarted.modCfg _ hrestarted.saggars)) _
  have hbroken : canonical broken := hswapped.foldl (fun _ _ ha => ha.breakGroup ..) _
  have hstale : canonical stale := .ite (hbroken.invalidate _) hbroken
  exact ((hstale.newOwners _).rekey 1).notePace

theorem canonical.finishLate (h : canonical s) (p code : Nat) (tag : BitVec 16) (err : Nat) (data : List Byte) (effect : Bool) :
    canonical (s.finishLate p code tag err data effect) := h.modPort ..

theorem canonical.endCommit (h : canonical s) (p : Nat) (tag : BitVec 16) (outcome : Nat) : canonical (s.endCommit p tag outcome) := by
  unfold State.endCommit
  split
  · exact h.endAct ..
  · exact h

/-! Counters under a clearing read (Reads). -/

theorem canonical.zeroCounter (h : canonical s) (code i : Nat) : canonical (s.zeroCounter code i) := by
  have hcfg (f g : Config → Config) (hf : (f s.cfg).saggars = s.cfg.saggars) (hg : (g s.cfg).saggars = s.cfg.saggars) :
      canonical (s.modCfg fun c => if i = 0xC0000000 then f c else g c) := by
    refine h.modCfg _ ?_
    split
    · rw [hf]
      exact h.saggars
    · rw [hg]
      exact h.saggars
  unfold State.zeroCounter
  split
  · exact h.withLeaf (by intro _; rfl)
  · exact h.withLeaf (by intro _; rfl)
  · exact h.withLeaf (by intro _; rfl)
  · exact h.withLeaf (by intro _; rfl)
  · exact h.modGroup ..
  · exact h.modDie ..
  · exact h.modDie ..
  · exact h.modDie ..
  · exact h.modLink ..
  · exact h.modLink ..
  · exact h.modLink ..
  · exact h.modLink ..
  · exact h.modStat ..
  · exact h.modStat ..
  · exact .ite (h.modStat ..) (.ite (h.withLeaf (by intro _; rfl)) (hcfg _ _ rfl rfl))
  · exact .ite (h.modStat ..) (.ite (h.withLeaf (by intro _; rfl)) (hcfg _ _ rfl rfl))
  · exact h.modStat ..
  · exact h.withKiln (by rfl) (by rfl)
  · exact h.withLeaf (by intro _; rfl)
  · exact h

/-! Firmware (Firmware). -/

theorem canonical.admitAll {as : List Activity} :
    ∀ {s t : State} {queued : Bool}, canonical s → s.admitAll as = some (t, queued) → canonical t := by
  induction as with
  | nil =>
    intro s t queued h ht
    cases ht
    exact h
  | cons a rest ih =>
    intro s t queued h ht
    unfold State.admitAll at ht
    split at ht
    · cases ht
    · next u q hu =>
      split at ht
      · cases ht
      · next v more hv =>
        cases ht
        exact ih (h.admitAct hu) hv

theorem canonical.busyPending (h : canonical s) (but : Option Nat) : canonical (s.busyPending but) :=
  h.foldl (fun _ _ ha => .ite (ha.answerBusy _) ha) _

theorem canonical.afterRestart (h : canonical s) : canonical s.afterRestart :=
  canonical.foldl (h.modCtlr _) (fun _ _ ha => ha.modPort ..) _

theorem canonical.endActivation (h : canonical s) (outcome : Nat) : canonical (s.endActivation outcome) := by
  unfold State.endActivation
  split
  · exact h.endAct ..
  · exact h

theorem canonical.reportAbandoned (h : canonical s) : canonical s.reportAbandoned :=
  canonical.modCtlr (h.foldl (fun _ _ ha => ha.maintEvent ..) _) _

theorem canonical.servesAgain (h : canonical s) (kind cause outcome : Nat) : canonical (s.servesAgain kind cause outcome) :=
  ((h.serves kind cause).endActivation outcome).reportAbandoned.examineQueue.offer

theorem canonical.imageTakesOver (h : canonical s) (b : Bank) : canonical (s.imageTakesOver b) := by
  unfold State.imageTakesOver
  extract_lets t
  have ht : canonical t := h.modCtlr _
  exact .ite (ht.afterRestart.rekey 2) (ht.afterRestart.modCtlr _)

theorem canonical.abandonActs (h : canonical s) : canonical s.abandonActs := by
  unfold State.abandonActs
  extract_lets gone tests tested
  have htested : canonical tested := h.foldl (fun _ _ ha => ha.testing ..) _
  exact htested.modCtlr _

theorem canonical.answerWorking (h : canonical s) : canonical s.answerWorking := h.foldl (fun _ _ ha => ha.modPort ..) _

theorem canonical.raiseFault (h : canonical s) (cause : Nat) : canonical (s.raiseFault cause) :=
  canonical.controllerEvent (canonical.foldl (h.modCtlr _) (fun _ _ ha => ha.modPort ..) _) ..

theorem canonical.hardwarePath (h : canonical s) (cause : ExcCause) (pc sp : Word) : canonical (s.hardwarePath cause pc sp) := by
  unfold State.hardwarePath
  extract_lets recent logged faulted reloads stopped
  have hfaulted : canonical faulted := canonical.raiseFault (h.modCtlr _) _
  have hreloads : canonical reloads := hfaulted.modCtlr _
  have hstopped : canonical stopped := (hreloads.abandonActs.answerWorking.busyPending none).afterRestart
  exact .ite (hstopped.safeMode _) hstopped

theorem canonical.controllerFaults (h : canonical s) (cause : ExcCause) (pc sp : Word) : canonical (s.controllerFaults cause pc sp) := by
  unfold State.controllerFaults
  split
  · exact h
  · exact h
  · exact .ite (h.modCtlr _) (h.hardwarePath ..)

/-! The external ports (Smb, TestTrace, GatewayPort). -/

theorem canonical.notify (h : canonical s) (r : NotifyResult) : canonical (s.notify r) := by
  have hfails : canonical (let t := { s with smb := { s.smb with attempts := s.smb.attempts + 1, since := s.time } }
      if t.smb.attempts < 4 then t else { t.bump 0x0C with smb := { t.smb with running := false, attempts := 0, notifyFailed := true } }) :=
    .ite (h.elsewhere (by rfl)) (canonical.elsewhere (canonical.bump h 0x0C) (by rfl))
  cases r
  · exact h.elsewhere (by rfl)
  · exact hfails
  · exact hfails

theorem canonical.mbxOp (h : canonical s) (op off : Nat) (v : Word) : canonical (s.mbxOp op off v) := by
  unfold State.mbxOp
  split
  · exact canonical.elsewhere (h.windowWrite 17 off v) (by rfl)
  · exact h.elsewhere (by rfl)
  · exact h

theorem canonical.modTx (h : canonical s) (b : Nat) (f : TxBuf → TxBuf) : canonical (s.modTx b f) := h.elsewhere (by rfl)

theorem canonical.modBox (h : canonical s) (x : Nat) (f : RxBox → RxBox) : canonical (s.modBox x f) := h.elsewhere (by rfl)

theorem canonical.gwRefuse (h : canonical s) : canonical s.gwRefuse := h.bump _

theorem canonical.gwReceive (h : canonical s) (f : BitVec 664) : canonical (s.gwReceive f) := by
  unfold State.gwReceive
  extract_lets bs hdr payload x
  exact .ite (h.bump _) (.ite (h.bump _) (.ite (h.modBox ..) (.ite (h.elsewhere (by rfl)) (.ite (h.bump _) (.ite (h.modBox ..)
    (.ite (h.bump _) (h.modBox ..)))))))

end
section
variable {s t : State} (h : canonical s)
include h

/-! The parts of the mailbox commands (Tables 13.12 and the chapters it names). -/

theorem canonical.ok (data : List Byte) (effect : Bool) : canonical (Reply.ok s data effect).st := h

theorem canonical.runHello (q : Req) : canonical (runHello s q).st := by
  unfold Machine.runHello
  extract_lets t
  have ht : canonical t := h.endSession _
  split
  · exact ht
  · split
    · exact ht
    · exact canonical.ok (ht.modPort ..) ..

theorem canonical.runGoodbye (q : Req) : canonical (runGoodbye s q).st := by
  unfold Machine.runGoodbye
  refine canonical.ok ?_ ..
  exact (h.endSession _).modPort ..

theorem canonical.configured {f : Config → Config} (hf : tableWf {} (f s.cfg).saggars = true) (n : Nat) :
    canonical { s.modCfg f with handles := n } := canonical.elsewhere (h.modCfg f hf) (by rfl)

theorem canonical.runSaggarCreate (q : Req) : canonical (runSaggarCreate s q).st := by
  unfold Machine.runSaggarCreate
  extract_lets owner
  split
  · exact h
  · split
    · exact h
    · refine canonical.ok (h.configured ?_ _) ..
      refine saggars_modSag ?_ ..
      exact h.saggars

theorem canonical.runSaggarDestroy (q : Req) : canonical (runSaggarDestroy s q).st := by
  unfold Machine.runSaggarDestroy
  split
  · exact h
  · split
    · exact h
    · exact canonical.ok (h.modCfg _ (saggars_modSag h.saggars ..)) ..

theorem canonical.runShadowWrite (q : Req) : canonical (runShadowWrite s q).st := by
  unfold Machine.runShadowWrite
  split
  · exact h
  · split
    · exact h
    · extract_lets t
      have ht : canonical t := by
        refine h.modCfg _ ?_
        dsimp only [Config.mendShadow]
        split
        · exact h.saggars
        · exact saggars_modSag h.saggars ..
      exact ht.ok ..

theorem canonical.runDiscard (q : Req) : canonical (runDiscard s q).st := by
  unfold Machine.runDiscard
  split
  · exact h
  · extract_lets own failed t
    have ht : canonical t := by
      refine h.modCfg _ ?_
      dsimp only
      split
      · exact h.saggars
      · exact saggars_modSag h.saggars ..
    exact ht.ok ..

theorem canonical.runDebugTablePoke (q : Req) : canonical (runDebugTablePoke s q).st := by
  unfold Machine.runDebugTablePoke
  extract_lets table
  split
  · exact h
  · split
    · split
      · exact h
      · exact canonical.ok (h.modCfg _ h.saggars) ..
    · split
      · exact h
      · split
        · exact h
        · exact canonical.ok (h.modCfg _ (saggars_modSag h.saggars ..)) ..

theorem canonical.runCommit (q : Req) : canonical (runCommit s q).st := by
  unfold Machine.runCommit
  split
  · exact h
  · split
    · exact h
    · split
      · split
        · exact h
        · next t queued ht => exact h.admitAct ht
      · exact canonical.modCfg h (fun c => { c with swaps := c.swaps ++ [(some q.saggar, q.port, q.tag)] }) h.saggars

theorem canonical.runStateRead (q : Req) : canonical (runStateRead s q).st := by
  unfold Machine.runStateRead
  extract_lets item id snap
  split
  · exact h
  · split
    · exact h
    · split
      · exact h
      · split
        · exact h
        · split
          split
          · exact h
          · split <;> exact h

theorem canonical.runFiringQuery (q : Req) : canonical (runFiringQuery s q).st := by
  unfold Machine.runFiringQuery
  split <;> exact h

theorem canonical.runFiringAbort (q : Req) : canonical (runFiringAbort s q).st := by
  unfold Machine.runFiringAbort
  split
  · exact h
  · split
    · exact h
    · exact canonical.ok ((h.decideEnd ..).afterEnd _) ..

theorem canonical.runSnapshot (q : Req) : canonical (runSnapshot s q).st := by
  unfold Machine.runSnapshot
  extract_lets others id scope x all
  split
  · exact h
  · exact canonical.ok (h.modCtlr _) ..

theorem canonical.runSnapshotRelease (q : Req) : canonical (runSnapshotRelease s q).st := by
  unfold Machine.runSnapshotRelease
  extract_lets mine
  split
  · exact canonical.ok (h.modCtlr _) ..
  · exact h

theorem canonical.runCounterRead (q : Req) : canonical (runCounterRead s q).st := by
  unfold Machine.runCounterRead
  dsimp only
  split
  · exact h
  · split
    · exact h
    · split
      · exact h
      · split
        · exact h
        · split
          · exact h
          · split
            · exact h.foldl (fun _ _ ha => ha.zeroCounter ..) _
            · exact h

theorem canonical.runDigestOpen (q : Req) : canonical (runDigestOpen s q).st := by
  unfold Machine.runDigestOpen
  extract_lets tag
  split
  · exact h
  · split
    · exact h
    · split
      · exact h
      · exact canonical.ok (h.withKiln (by rfl) (by rfl)) ..

theorem canonical.runDigestRead (q : Req) : canonical (runDigestRead s q).st := by
  unfold Machine.runDigestRead
  split
  · exact h
  · split
    · exact h
    · split
      · exact canonical.ok (h.withKiln (by rfl) (by rfl)) ..
      · exact h

theorem canonical.runDigestClose (q : Req) : canonical (runDigestClose s q).st := by
  unfold Machine.runDigestClose
  split
  · exact h
  · exact canonical.ok (h.withKiln (by rfl) (by rfl)) ..

theorem canonical.runEnergyRead (q : Req) : canonical (runEnergyRead s q).st := by
  unfold Machine.runEnergyRead
  split <;> exact h

theorem canonical.runEventSubscribe (q : Req) : canonical (runEventSubscribe s q).st := by
  unfold Machine.runEventSubscribe
  exact canonical.ok (h.modPort ..) ..

theorem canonical.runEventRead (q : Req) : canonical (runEventRead s q).st := by
  unfold Machine.runEventRead
  extract_lets most x rs
  split
  · exact h
  · dsimp only
    exact h.modPort ..

theorem canonical.runShadowRead (q : Req) : canonical (runShadowRead s q).st := by
  unfold Machine.runShadowRead
  extract_lets
  split
  · exact h
  · split
    · exact h
    · split
      · exact h
      · split <;> exact h

theorem canonical.runDebugAccRead (q : Req) : canonical (runDebugAccRead s q).st := by
  unfold Machine.runDebugAccRead
  extract_lets
  split
  · exact h
  · split
    · split
      · exact h
      · split
        · exact h
        · split <;> exact h
    · split
      · exact h
      · split <;> exact h

theorem canonical.startReply (a : Activity) : canonical (s.startReply a).st := by
  unfold State.startReply
  split
  · exact h
  · next t queued ht =>
    exact (h.admitAct ht).offer.ok ..

theorem canonical.runCalibrate (q : Req) : canonical (runCalibrate s q).st := by
  unfold Machine.runCalibrate
  split
  · exact h
  · split
    · exact h
    · next t queued ht => exact canonical.admitAll h ht

theorem canonical.runSelfTest (q : Req) : canonical (runSelfTest s q).st := by
  unfold Machine.runSelfTest
  split
  · exact h
  · extract_lets ix
    split
    · exact h
    · exact h.startReply _

theorem canonical.runNodeOffline (q : Req) : canonical (runNodeOffline s q).st := by
  unfold Machine.runNodeOffline
  split
  · exact h
  · extract_lets ix
    split
    · exact h
    · exact h.startReply _

theorem canonical.runNodeOnline (q : Req) : canonical (runNodeOnline s q).st := by
  unfold Machine.runNodeOnline
  split
  · exact h
  · exact h.startReply _

theorem canonical.runPlaneOffline (q : Req) : canonical (runPlaneOffline s q).st := by
  unfold Machine.runPlaneOffline
  split
  · exact h
  · split
    · exact h
    · exact h.startReply _

theorem canonical.runPlaneOnline (q : Req) : canonical (runPlaneOnline s q).st := by
  unfold Machine.runPlaneOnline
  split
  · exact h
  · exact h.startReply _

theorem canonical.runOnLeaf (code : Nat) (q : Req) : canonical (runOnLeaf code s q).st := by
  unfold Machine.runOnLeaf
  extract_lets l
  split
  · exact h
  · exact h.startReply _

theorem canonical.background (q : Req) (err detail : Nat) (data : List Byte) : canonical (Reply.background s q err detail data).st := by
  unfold Reply.background
  dsimp only
  exact h.modCtlr _

theorem canonical.runFwStage (q : Req) : canonical (runFwStage s q).st := by
  unfold Machine.runFwStage
  split
  · exact h
  · split
    · exact h
    · split
      · exact h
      · exact canonical.background (h.modCtlr _) ..

theorem canonical.runFwVerify (q : Req) : canonical (runFwVerify s q).st := by
  unfold Machine.runFwVerify
  split
  · exact h
  · split
    · exact canonical.background (h.modCtlr _) ..
    · exact canonical.background (h.modCtlr _) ..

theorem canonical.runFwActivate (q : Req) : canonical (runFwActivate s q).st := by
  unfold Machine.runFwActivate
  extract_lets b
  split
  · exact h
  · split
    · exact h
    · split
      · exact h
      · split
        · exact h
        · next t queued ht =>
          exact canonical.ok (canonical.busyPending ((h.admitAct ht).modCtlr _) _) ..

end
section
variable {s t : State} (h : canonical s)
include h

/-! Start-up, block time and pacing. -/

theorem blockResetEnd_keepsForm (x : Straps) : keepsForm (execBlockResetEnd x s) :=
  .ite (.next h) (.ite (.next h) (.next (h.elsewhere (by rfl))))

theorem imageCheck_keepsForm (img : List Byte) : keepsForm (execImageCheck img s) := by
  unfold execImageCheck
  extract_lets t
  have ht : canonical t := h.modCtlr _
  exact .ite (.next h) (.ite (.next (ht.modCtlr _)) (.ite (.next (ht.safeMode 6)) (.next (ht.modCtlr _))))

theorem configRecordLoad_keepsForm (record : List Byte) : keepsForm (execConfigRecordLoad record s) := by
  unfold execConfigRecordLoad
  extract_lets ok loaded tested
  have hloaded : canonical loaded := h.modCfg _ h.saggars
  have htested : canonical tested := hloaded.modCtlr _
  exact .ite (.next h) (.next (.ite htested.afterSelfTest htested))

theorem startupSelfTestDone_keepsForm (failed : List Part) : keepsForm (execStartupSelfTestDone failed s) :=
  .ite (.next h) (.next (canonical.afterSelfTest (h.foldl (fun _ p ha => ha.partLostAtStart p) _)))

theorem firstGlobalCommit_keepsForm : keepsForm (execFirstGlobalCommit s) := by
  unfold execFirstGlobalCommit
  extract_lets t
  have ht : canonical t := canonical.rebaseChanged (canonical.takeRanks (h.modCfg _ h.saggars)) _
  exact .ite (.next h) (.next ((ht.rekey 1).notePace.modCtlr _))

theorem controllerServes_keepsForm : keepsForm (execControllerServes s) := by
  unfold execControllerServes
  extract_lets t
  have ht : canonical t := canonical.servesAgain (h.modCtlr _) ..
  exact .ite (.next h) (.next (.ite (ht.controllerEvent 6 0) ht))

theorem refclkEdge_keepsForm : keepsForm (execRefclkEdge s) := .ite (.next h) (.next (canonical.schedulePass (h.elsewhere (by rfl))))

theorem refLost_keepsForm : keepsForm (execRefLost s) := by
  unfold execRefLost
  extract_lets t
  have ht : canonical t := .ite h.pacingChanged h
  exact .ite (.next h) (.next (canonical.timingEvent (ht.elsewhere (by rfl)) ..))

theorem refReturn_keepsForm : keepsForm (execRefReturn s) := .ite (.next h) (.next (canonical.timingEvent (h.elsewhere (by rfl)) ..))

theorem paceLock_keepsForm : keepsForm (execPaceLock s) := by
  unfold execPaceLock
  extract_lets t
  have ht : canonical t := h.elsewhere (by rfl)
  exact .ite (.next h) (.next (.ite ht.pacingChanged ht))

theorem paceSwitch_keepsForm : keepsForm (execPaceSwitch s) := by
  unfold execPaceSwitch
  extract_lets live t
  have ht : canonical t := canonical.withKiln (s := { s with paceMode := s.paceWanted }) (h.elsewhere (by rfl)) (by rfl) (by rfl)
  exact .ite (.next h) (.next (canonical.offer (ht.foldl (fun _ d ha => (ha.setStale d).modDie ..) _)))

/-! Leaf ports. -/

theorem lpEnable_keepsForm (l : Nat) (v : Word) : keepsForm (execLpEnable l v s) := .ite (.next (h.lpCtrlWrite l v)) (.next h)

theorem lpDisable_keepsForm (l : Nat) (v : Word) : keepsForm (execLpDisable l v s) := .ite (.next (h.lpCtrlWrite l v)) (.next h)

theorem lpReset_keepsForm (l : Nat) (v : Word) : keepsForm (execLpReset l v s) := .ite (.next (h.lpCtrlWrite l v)) (.next h)

theorem lpResetDone_keepsForm (l : Nat) : keepsForm (execLpResetDone l s) := by
  have hp : formed ((s.leaf l).taken.foldl LeafPort.flushOne (s.leaf l)) :=
    List.foldlRecOn (motive := formed) _ _ (h.scratch l) fun _ hp x _ => hp.flushOne x
  exact .ite (.next (h.putLeaf (hp.as (by rfl)))) (.next h)

theorem lpDoorbell_keepsForm (l : Nat) (v : Word) : keepsForm (execLpDoorbell l v s) :=
  .ite (.next (h.modFormed l fun _ hp => hp.doorbell v)) (.next h)

theorem lpCqHeadWrite_keepsForm (l : Nat) (v : Word) : keepsForm (execLpCqHeadWrite l v s) :=
  .ite (.next (h.modFormed l fun _ hp => hp.cqHeadWrite v)) (.next h)

theorem lpIntStatusClear_keepsForm (l : Nat) (v : Word) : keepsForm (execLpIntStatusClear l v s) := .ite (.next (h.withLeaf (by intro _; rfl))) (.next h)

theorem registerWrite_keepsForm (b : RegBlock) (off : Nat) (wide : Bool) (v : Word) : keepsForm (execRegisterWrite b off wide v s) := by
  unfold execRegisterWrite
  refine .ite (.next h) ?_
  cases b with
  | leaf l => exact .ite (.next (h.lpWrite ..)) (.next h)
  | port p => exact .ite (.next (h.windowWrite ..)) (.next h)

theorem lpPush_keepsForm (l off : Nat) (wide : Bool) (x : BitVec 128) : keepsForm (execLpPush l off wide x s) :=
  .ite (.next (h.modFormed l fun _ hp => hp.push ..)) (.next h)

theorem tileDrain_keepsForm (l slot fmt : Nat) (data : List Byte) : keepsForm (execTileDrain l slot fmt data s) :=
  .ite (.next (h.modFormed l fun _ hp => hp.drain ..)) (.next h)

theorem tileLanded_keepsForm (l slot tile : Nat) : keepsForm (execTileLanded l slot tile s) := by
  unfold execTileLanded
  split
  · exact .next h
  · exact .ite (.next (h.withLeaf (by intro _; rfl))) (.next h)

theorem takeDescriptor_keepsForm (l : Nat) (words : Option (BitVec 1024)) (segs : List (BitVec 256)) :
    keepsForm (execTakeDescriptor l words segs s) := by
  have hp : formed (s.leaf l) := h.scratch l
  unfold execTakeDescriptor
  dsimp only
  refine .ite (.next h) ?_
  split
  · exact .next (canonical.take (h.putLeaf (hp.as (by rfl))) ..)
  · refine .ite (.next h) ?_
    split
    · exact .next (h.putLeaf (hp.stop ..))
    · exact .ite (.next (canonical.take (h.putLeaf (hp.as (by rfl))) ..)) (.next (h.putLeaf (hp.as (by rfl))))

theorem ragTailProbe_keepsForm (l slot : Nat) (fault : Option (Nat × IoClass)) : keepsForm (execRagTailProbe l slot fault s) := by
  have hp : formed (s.leaf l) := h.scratch l
  unfold execRagTailProbe
  dsimp only
  split
  · exact .next h
  · refine .ite (.next h) ?_
    split
    · exact .next (h.putLeaf (hp.as (by rfl)))
    · exact .ite (.next (h.putLeaf (hp.as (by rfl)))) (.ite (.next (h.putLeaf (hp.as (by rfl))))
        (.next (h.putLeaf (formed.modTaken (formed.chunkFault (hp.modTaken ..) ..) ..))))

theorem sendArm_keepsForm (l : Nat) : keepsForm (execSendArm l s) := by
  have hp : formed (s.leaf l) := h.scratch l
  unfold execSendArm
  dsimp only
  refine .ite (.next h) ?_
  split
  · exact .next h
  · exact .ite (.next (h.putLeaf (hp.as (by rfl)))) (.ite (.next h) (.next (canonical.sendUp (h.putLeaf (hp.as (by rfl))) ..)))

/-- A pass keeps the form when what it does to the leaf port does. -/
theorem onPass_keepsForm {l action : Nat} {f : LeafPort → Taken → LeafPort} (hf : ∀ p x, formed p → formed (f p x)) :
    keepsForm (s.onPass l action f) := by
  unfold State.onPass
  dsimp only
  split
  · exact .next h
  · exact .next (h.putLeaf (hf _ _ (h.scratch l)))

theorem bisqueClear_keepsForm (l : Nat) : keepsForm (execBisqueClear l s) :=
  onPass_keepsForm h fun _ _ hp => hp.runPass _ _ fun _ => hp.endPass ..

theorem bisqueLoad_keepsForm (l : Nat) (r : PassRead) : keepsForm (execBisqueLoad l r s) :=
  onPass_keepsForm h fun _ _ hp => hp.runPass _ _ fun _ => by
    split
    · exact hp.passFault ..
    · split <;> exact hp.endPass ..

theorem bisqueAddSum_keepsForm (l : Nat) (x : PassRead) : keepsForm (execBisqueAddSum l x s) :=
  onPass_keepsForm h fun _ _ hp => hp.addPass ..

theorem bisqueAddSumsq_keepsForm (l : Nat) (x : PassRead) : keepsForm (execBisqueAddSumsq l x s) :=
  onPass_keepsForm h fun _ _ hp => hp.addPass ..

theorem bisqueAddDot_keepsForm (l : Nat) (x y : PassRead) : keepsForm (execBisqueAddDot l x y s) :=
  onPass_keepsForm h fun _ _ hp => hp.runPass _ _ fun _ => by
    split
    · exact hp.passFault ..
    · exact hp.passFault ..
    · exact hp.commitSum ..

theorem bisqueAddSherd_keepsForm (l : Nat) (r : PassRead) : keepsForm (execBisqueAddSherd l r s) :=
  onPass_keepsForm h fun _ _ hp => hp.runPass _ _ fun _ => by
    split
    · exact hp.passFault ..
    · split
      · exact hp.endPass ..
      · exact hp.commitSum ..

theorem bisqueStore_keepsForm (l : Nat) (bad : Option Nat) : keepsForm (execBisqueStore l bad s) := by
  have hp : formed (s.leaf l) := h.scratch l
  unfold execBisqueStore
  dsimp only
  split
  · exact .next h
  · refine .next (canonical.tock (h.putLeaf (hp.runPass _ _ fun b => ?_)))
    split
    · exact (hp.store ..).endPass ..
    · exact ((hp.store ..).store ..).passFault ..

theorem chunkReadDone_keepsForm (l slot : Nat) (area : Area) (chunk : Nat) (r : ReadResult) :
    keepsForm (execChunkReadDone l slot area chunk r s) := by
  have hp : formed (s.leaf l) := h.scratch l
  unfold execChunkReadDone
  dsimp only
  split
  · exact .next h
  · split
    · exact .next h
    · refine .ite (.next h) ?_
      split
      · exact .next (h.putLeaf (hp.modTaken ..))
      · exact .next (h.putLeaf ((hp.chunkFault ..).modTaken ..))

theorem chunkWriteDone_keepsForm (l slot chunk : Nat) (ok : Bool) : keepsForm (execChunkWriteDone l slot chunk ok s) := by
  have hp : formed (s.leaf l) := h.scratch l
  unfold execChunkWriteDone
  dsimp only
  split
  · exact .next h
  · split
    · exact .next h
    · exact .ite (.next h) (.ite (.next (h.putLeaf (hp.as (by rfl)))) (.ite (.next (h.putLeaf ((hp.storeAll _).modTaken ..)))
        (.next (canonical.writeFaultEvent (canonical.tock (h.putLeaf ((formed.store (hp.modTaken ..) ..).chunkFault ..))) ..))))

theorem grantReceive_keepsForm (l : Nat) : keepsForm (execGrantReceive l s) := by
  have hp : formed (s.leaf l) := h.scratch l
  unfold execGrantReceive
  dsimp only
  split
  · exact .ite (.next h) (.next (h.putLeaf (formed.takeGrant (hp.as (by rfl)) ..)))
  · exact .next h

theorem redealGrantReceive_keepsForm (l : Nat) : keepsForm (execRedealGrantReceive l s) := by
  have hp : formed (s.leaf l) := h.scratch l
  unfold execRedealGrantReceive
  dsimp only
  split
  · exact .ite (.next h) (.next (h.putLeaf (formed.takeGrant (hp.as (by rfl)) ..)))
  · exact .next h

theorem barrierRelease_keepsForm (l : Nat) (ok : Bool) : keepsForm (execBarrierRelease l ok s) := by
  have hp : formed (s.leaf l) := h.scratch l
  unfold execBarrierRelease
  dsimp only
  split
  · split
    · exact .next (h.putLeaf (hp.as (by rfl)))
    · refine .ite (.next h) (.next (h.putLeaf ?_))
      exact .ite (formed.recordFails (hp.as (by rfl)) ..) (formed.recordIfDue (hp.as (by rfl)) _)
  · exact .next h

theorem endReceive_keepsForm (l : Nat) : keepsForm (execEndReceive l s) := by
  have hp : formed (s.leaf l) := h.scratch l
  unfold execEndReceive
  dsimp only
  split
  · refine .ite (.next h) ?_
    split
    · exact .next (h.putLeaf (hp.as (by rfl)))
    · exact .next (canonical.tock (h.putLeaf (formed.takeEnd (hp.as (by rfl)) ..)))
  · exact .next h

theorem completionRecordWrite_keepsForm (l slot : Nat) (w : RecordWrite) : keepsForm (execCompletionRecordWrite l slot w s) := by
  have hp : formed (s.leaf l) := h.scratch l
  unfold execCompletionRecordWrite
  dsimp only
  split
  · exact .next h
  · split
    · exact .next h
    · exact .ite (.next h) (.ite (.next (h.putLeaf (hp.as (by rfl)))) (.ite (.next (h.putLeaf (hp.recordFails ..)))
        (.ite (.next (h.putLeaf (hp.writeRecord ..))) (.next (h.writeFaulted ..)))))

end
section
variable {s t : State} (h : canonical s)
include h

/-! Firings and the datapath. -/

theorem armMerge_keepsForm (node input : Nat) : keepsForm (execArmMerge node input s) := .ite (.next (h.mergeOne ..)) (.next h)

theorem armAtKiln_keepsForm (input : Nat) : keepsForm (execArmAtKiln input s) := by
  unfold execArmAtKiln
  refine .ite (.next h) ?_
  split
  · exact .next h
  · extract_lets t
    have ht : canonical t := h.withKiln (by rfl) (by rfl)
    exact .ite (.next (ht.armResets _).offer) (.ite (.next (ht.armForeign _)) (.ite (.next ht) (.ite (.next (ht.armLate _))
      (.ite (.next (ht.armFirst _).offer) (.ite (.next (ht.armAborts _).offer) (.next (ht.armMerged ..).offer))))))

theorem controlPathDownwardMessage_keepsForm (node : Nat) : keepsForm (execControlPathDownwardMessage node s) := by
  unfold execControlPathDownwardMessage
  refine .ite (.next h) ?_
  split
  · exact .next h
  · next m ms hm =>
    extract_lets q t
    have ht : canonical t := h.withCtl (by intro _; rfl)
    split
    · exact .next ((ht.releaseSlots ..).copyDown ..)
    · exact .next ((ht.forgetPos ..).copyDown ..)
    · exact .ite (.next ((ht.endPasses ..).copyDown ..)) (.next (canonical.copyDown (.ite ht (ht.forgetPos ..)) ..))

theorem leafFlitSend_keepsForm (l p : Nat) : keepsForm (execLeafFlitSend l p s) := by
  have hp : formed (s.leaf l) := h.scratch l
  unfold execLeafFlitSend
  dsimp only
  refine .ite (.next h) ?_
  split
  · exact .next h
  · next x c bad x' hx =>
    have hsent : canonical ((s.setLeaf l ((s.leaf l).modTaken x.cnt (fun _ => x'))).setLink (leafLinkKey l .up p)
        ((s.link (leafLinkKey l .up p)).put false s.time c)) := canonical.setLink (h.putLeaf (hp.modTaken ..)) ..
    refine .ite (.next (h.sourceLost ..)) ?_
    split
    · exact .next hsent
    · next f hf =>
      have hpoisoned := canonical.ite (c := c.flit.poison = true)
        (hsent.withFiring (uid := f.uid) (f := fun y => y.poisonFrom x.rank x.firstBadChunk) fun _ hy => (Proofs.poisonFrom_uid ..).trans hy) hsent
      exact .next (.ite (hpoisoned.withFiring (by intro _ hx; exact hx)) hpoisoned)

theorem grant_keepsForm : keepsForm (execGrant s) := by
  unfold execGrant
  extract_lets t
  have ht : canonical t := h.offer
  refine .ite (.next h) ?_
  split
  · exact .next ht
  · split
    · exact .next (ht.kaccRefuse ..).offer
    · exact .next (ht.decideEnd ..).offer
    · exact .next (canonical.sendEnds _ _ ((ht.grantOne _).startGranted _)).offer.noteOld.driveKiln

theorem nodeFlitArrive_keepsForm (node : Nat) (dir : Dir) (input : Nat) (err : BitVec 568) (x : Handoff) :
    keepsForm (execNodeFlitArrive node dir input err x s) := by
  unfold execNodeFlitArrive
  dsimp only
  refine .ite (.next h) ?_
  split
  · exact .next h
  · next t ht => exact .next (h.takeFlit ht)
  · next c t ht =>
    have hu := h.takeFlit ht
    cases dir with
    | up =>
      have hv := hu.handoff (hu.upAt (qOf node) (planeOf node) input c) node c.flit.setter.toNat x
      have hw {c : Prop} [Decidable c] (k : Nat) := canonical.ite (c := c) hv.driveKiln (hv.drive k)
      exact .next (.ite (hw _) ((hw _).drive _))
    | down =>
      have hv := hu.handoff (hu.downAt (qOf node) (planeOf node) c) node c.flit.setter.toNat x
      exact .next (.ite (hv.driveAll _) ((hv.driveAll _).drive _))

theorem bridgeFlitReceive_keepsForm (key : Nat) (err : BitVec 568) : keepsForm (execBridgeFlitReceive key err s) := by
  unfold execBridgeFlitReceive
  dsimp only
  split
  · exact .next h
  · exact .ite (.next h) (.next ((h.setLink ..).driveAll _))

theorem linkNakReceive_keepsForm (key : Nat) (err : BitVec 568) : keepsForm (execLinkNakReceive key err s) := by
  unfold execLinkNakReceive
  extract_lets k r
  split
  · exact .next h
  · next c hc =>
    generalize k.bridgeTake s.time c err = taken
    obtain ⟨x, good, y⟩ := taken
    refine .ite (.next h) (.ite (.next ((h.setLink ..).drive _)) ?_)
    extract_lets t
    have ht : canonical t := h.setLink ..
    split
    · exact .next ((ht.setLink ..).driveAll _)
    · exact .next ((ht.cutLink ..).drive _)

theorem linkNakRepeat_keepsForm (key : Nat) : keepsForm (execLinkNakRepeat key s) := by
  unfold execLinkNakRepeat
  dsimp only
  split
  · exact .next h
  · exact .ite (.next h) (.next ((h.setLink ..).drive _))

theorem bridgeRetryExhausted_keepsForm (key : Nat) : keepsForm (execBridgeRetryExhausted key s) := .ite (.next h) (.next (h.cutLink ..))

theorem twinResidueFire_keepsForm (node : Nat) (f : TwinFire) : keepsForm (execTwinResidueFire node f s) := by
  unfold execTwinResidueFire
  refine .ite (.next h) ?_
  split
  · exact .next ((h.modStat ..).twinFault ..).noteKilnCtl
  · exact .ite (.next (h.twinFault ..).noteKilnCtl) (.next h)
  · exact .ite (.next (h.ctlDiffers _).noteKilnCtl) (.next h)

theorem stageConeExpiry_keepsForm (x : Handshake) : keepsForm (execStageConeExpiry x s) := by
  unfold execStageConeExpiry
  split
  · exact .ite (.next h) (.next (h.cutLink ..))
  · exact .ite (.next h) (.next (h.twinFault ..).noteKilnCtl)
  · exact .ite (.next h) (.next (h.twinFault ..))
  · exact .ite (.next h) (.next (h.leafCopyLost ..))

theorem resultFlitReceive_keepsForm (l p : Nat) (err : BitVec 568) : keepsForm (execResultFlitReceive l p err s) := by
  unfold execResultFlitReceive
  dsimp only
  refine .ite (.next h) ?_
  split
  · exact .next h
  · next t ht => exact .next (h.takeFlit ht)
  · next c t ht =>
    have ht := h.takeFlit ht
    have hp : formed (t.leaf l) := ht.scratch l
    split
    · exact .next (canonical.drive (ht.putLeaf (hp.as (by rfl))) _)
    · exact .next (canonical.drive (ht.putLeaf (.ite (hp.as (by rfl)) (formed.modTaken (hp.as (by rfl)) ..))) _)

theorem lossRegister_keepsForm : keepsForm (execLossRegister s) := by
  unfold execLossRegister
  extract_lets links nodes ctls noted paired ended moved
  have hnoted : canonical noted := h.foldl (fun _ k ha => ha.noteLink k) _
  have hpaired : canonical paired := hnoted.foldl (fun _ k ha => ha.notePair k) _
  have hmoved : canonical moved := hpaired.endMiscompared.foldl (fun _ k ha => ha.lossOn k) _
  exact .next hmoved.offer.driveKiln

theorem redealResourceFree_keepsForm : keepsForm (execRedealResourceFree s) := by
  unfold execRedealResourceFree
  split
  · exact .next h
  · exact .next (h.moveLatency ..)

theorem overflowReplay_keepsForm (x : Nat) : keepsForm (execOverflowReplay x s) := by
  unfold execOverflowReplay
  split
  · exact .next h
  · next f hf =>
    have hfresh : canonical ((s.freshSlots f).modFiring f.uid (fun _ => f.forReplay)) := (h.freshSlots f).withFiring fun _ _ => rfl
    exact .ite (.next h) (.ite (.next (canonical.sendEnds _ _ (h.decideEnd ..)).offer.driveKiln) (.ite (.next h)
      (.next (hfresh.sendGrant _))))

theorem leafPortFailureSignal_keepsForm (l : Nat) : keepsForm (execLeafPortFailureSignal l s) :=
  .ite (.next h) (.next (h.modFormed l fun _ hp => hp.fail))

theorem leafFailureRegister_keepsForm (l : Nat) : keepsForm (execLeafFailureRegister l s) :=
  .ite (.next h) (.next (h.registerLeaf l).offer.driveKiln)

theorem firingEnd_keepsForm (g seq : Nat) : keepsForm (execFiringEnd g seq s) := by
  unfold execFiringEnd
  split
  · exact .next h
  · exact .ite (.next h) (.next (((h.setInitBits _).decideEnd ..).afterEnd g))

theorem setterRestEnd_keepsForm (x : Nat) : keepsForm (execSetterRestEnd x s) := by
  unfold execSetterRestEnd
  split
  · exact .next h
  · exact .next (canonical.offer (canonical.closePositions (canonical.withKiln (h.withFiring (by intro _ hx; exact hx)) (by rfl) (by rfl))))

theorem firingConeExpiry_keepsForm (g seq : Nat) : keepsForm (execFiringConeExpiry g seq s) := by
  unfold execFiringConeExpiry
  split
  · exact .next h
  · refine .ite (.next h) ?_
    split
    · refine .ite (.next h) (.next (canonical.afterEnd (canonical.decideEnd (h.modFormed _ fun _ hp => ?_) ..) g))
      exact .ite hp hp
    · exact .next ((h.decideEnd ..).afterEnd g)
    · exact .next ((h.decideEnd ..).afterEnd g)
    · exact .next h

theorem barrierArrive_keepsForm (g : Nat) : keepsForm (execBarrierArrive g s) := by
  unfold execBarrierArrive
  split
  · exact .next h
  · exact .ite (.next h) (.next (canonical.noteOld (canonical.afterEnd (canonical.decideEnd
      (canonical.modGroup (canonical.withFiring (h.withKiln (by rfl) (by rfl)) (by intro _ hx; exact hx)) ..) ..) g)))

theorem depositRequestAccept_keepsForm (waited : Nat) : keepsForm (execDepositRequestAccept waited s) := by
  unfold execDepositRequestAccept
  split
  · next r rs i hq hi =>
    extract_lets dep t
    have ht : canonical t := h.elsewhere (by rfl)
    exact .next (canonical.kilnAdvance (canonical.withFiring ((ht.bump _).bumpBy ..) (by intro _ hx; exact hx)) _)
  · exact .next h

theorem depositResponse_keepsForm (i : Nat) (code : DepCode) (data : BitVec 512) : keepsForm (execDepositResponse i code data s) := by
  unfold execDepositResponse
  split
  · exact .next h
  · next r hr =>
    extract_lets dep t u
    have ht : canonical t := h.elsewhere (by rfl)
    have hu : canonical u := by
      cases code
      · exact ht
      · exact ht.bumpBy ..
      · exact ht.bump _
    split
    · exact .next hu
    · exact .ite (.next hu) (.next ((hu.depAnswer ..).kilnAdvance _).driveKiln)

/-! Configuration words and memories that fail. -/

theorem configWordUncorrectable_keepsForm (w : CfgWord) (copy : Copy) (otherBad rewriteBad : Bool) :
    keepsForm (execConfigWordUncorrectable w copy otherBad rewriteBad s) := .ite (.next (h.wordBad ..)) (.next h)

theorem scrubPeriodic_keepsForm (finds : List ScrubFind) : keepsForm (execScrubPeriodic finds s) :=
  .ite (.next (h.foldl (fun _ f ha => ha.scrubOne f) _)) (.next h)

theorem memoryBad_keepsForm (m : MemUnit) : keepsForm (s.memoryBad m) := by
  unfold State.memoryBad
  split
  · exact .ite (.next h) (.next ((h.modStat ..).twinFault ..).noteKilnCtl)
  · exact .ite (.next (h.modLink ..)) (.next h)
  · split
    · exact .next ((h.fault ..).stateLost _)
    · exact .next h
  · exact .ite (.next (h.kaccDamaged _)) (.next h)
  · exact .ite (.next h) (.next (canonical.fault (h.withLeaf (by intro _; rfl)) ..))
  · split
    · exact .ite (.next (canonical.fault (h.withKiln (by rfl) (by rfl)) ..)) (.next h)
    · exact .next h
  · exact .ite (.next h) (.next (h.modFormed _ fun _ hp => hp.chunkDamaged ..))
  · exact .ite (.next h) (.next (h.modFormed _ fun _ hp => hp.fail))

theorem memoryUncorrectable_keepsForm (e : MemError) : keepsForm (execMemoryUncorrectable e s) :=
  .ite (.next h) (.ite (.next (h.countCorrected _)) (memoryBad_keepsForm (h.countUncorrected _) _))

/-! Die slices. -/

theorem pyroPassStart_keepsForm (d : Nat) : keepsForm (execPyroPassStart d s) := .ite (.next (h.modDie ..)) (.next h)

theorem pyroPassComplete_keepsForm (d : Nat) (es : List (EchoLink × List Rat)) : keepsForm (execPyroPassComplete d es s) := by
  unfold execPyroPassComplete
  extract_lets x measured target others rebased
  have hmeasured : canonical measured := (h.modDie ..).takeDelays ..
  have hrebased : canonical rebased := canonical.foldl (hmeasured.elsewhere (by rfl)) (fun _ _ ha => ha.rebaseDie ..) _
  exact .ite (.next h) (.next (hrebased.rebaseDie ..).afterFirstPass)

theorem pyroPassAbandon_keepsForm (d : Nat) : keepsForm (execPyroPassAbandon d s) := .ite (.next (h.modDie ..)) (.next h)

theorem loadCorrection_keepsForm (d : Nat) : keepsForm (execLoadCorrection d s) := .ite (.next ((h.modDie ..).writeTrims d)) (.next h)

theorem trimEpochFlip_keepsForm (d : Nat) : keepsForm (execTrimEpochFlip d s) := .ite (.next (h.modDie ..)) (.next h)

theorem trimStaleSet_keepsForm (d : Nat) : keepsForm (execTrimStaleSet d s) := .ite (.next (h.setStale d)) (.next h)

theorem tempSample_keepsForm (d : Nat) (temp : BitVec 11) : keepsForm (execTempSample d temp s) := .ite (.next (h.modDie ..)) (.next h)

theorem quietHoldStart_keepsForm (d : Nat) : keepsForm (execQuietHoldStart d s) := .ite (.next (canonical.modDie (h.withKiln (by rfl) (by rfl)) ..)) (.next h)

theorem quietHoldEnd_keepsForm (d : Nat) : keepsForm (execQuietHoldEnd d s) :=
  .ite (.next h) (.next (canonical.offer (canonical.modDie (h.withKiln (by rfl) (by rfl)) ..)))

theorem activityEstimate_keepsForm (d n : Nat) : keepsForm (execActivityEstimate d n s) := .ite (.next (h.modDie ..)) (.next h)

theorem governorSlot_keepsForm (d : Nat) (v r : Rat) : keepsForm (execGovernorSlot d v r s) :=
  .ite (.next h) (.next ((h.pruneParks d).modDie ..))

theorem parkDue_keepsForm (d g : Nat) : keepsForm (execParkDue d g s) := .ite (.next h) (.next (h.modDie ..))

theorem wakeSlot_keepsForm (d : Nat) : keepsForm (execWakeSlot d s) := .ite (.next h) (.next ((h.pruneParks d).modDie ..).offer)

theorem wakeRampEnd_keepsForm (d g : Nat) : keepsForm (execWakeRampEnd d g s) := .ite (.next (h.modDie ..).offer) (.next h)

theorem parkRampEnd_keepsForm (d g : Nat) : keepsForm (execParkRampEnd d g s) := .ite (.next (h.modDie ..).offer) (.next h)

/-! Mailbox ports, commits and the controller. -/

theorem mbxRing_keepsForm (p : Nat) (v : Word) : keepsForm (execMbxRing p v s) := .ite (.next (h.mbxDoorbell ..)) (.next h)

theorem mbxPortReset_keepsForm (p : Nat) (v : Word) : keepsForm (execMbxPortReset p v s) := .ite (.next (h.mbxDoorbell ..)) (.next h)

theorem mbxIntStatusClear_keepsForm (p : Nat) (v : Word) : keepsForm (execMbxIntStatusClear p v s) :=
  .ite (.next (h.windowWrite ..)) (.next h)

/-- The row of a mailbox command keeps the form when the command's own part does. -/
theorem command_keepsForm (p code : Nat) {run : State → Req → Reply} (hrun : ∀ q t, canonical t → canonical (run t q).st) :
    keepsForm (.next (s.command p code run)) := .next (h.command p code hrun)

theorem commitSwap_keepsForm : keepsForm (execCommitSwap s) := by
  unfold execCommitSwap
  split
  · exact .next h
  · next set p tag rest hs =>
    extract_lets taken swapped told
    have htaken : canonical taken := h.modCfg _ h.saggars
    refine .ite (.next (htaken.finishLate ..).nextRequest) ?_
    split
    · exact .next ((htaken.finishLate ..).endCommit ..).nextRequest
    · have hswapped : canonical swapped := by
        cases set
        · exact htaken.swapGlobalSet
        · exact htaken.swapSaggar _
      have htold : canonical told := hswapped.finishLate ..
      exact .next (canonical.offer (.ite (htold.endCommit ..) htold)).nextRequest

theorem saggarDestroyEffect_keepsForm (k : Nat) : keepsForm (execSaggarDestroyEffect k s) := by
  unfold execSaggarDestroyEffect
  dsimp only
  split
  · exact .next h
  · have hreleased := (h.foldl (fun a g ha => canonical.restartGroup ha g false)
      (((s.cfg.sag k).active.groups.filter (fun e => gValid e.2)).map (·.1))).withKiln (f := fun kl => kl.releaseAccs k) (by rfl) (by rfl)
    exact .next (canonical.offer (canonical.modPort (canonical.invalidate (canonical.newOwners
      (hreleased.modCfg _ (saggars_modSag hreleased.saggars k fun y => { created := y.created })) _) _) ..))

theorem maintActivityEnd_keepsForm (i : Nat) (found : MaintFound) : keepsForm (execMaintActivityEnd i found s) := by
  unfold execMaintActivityEnd
  split
  · exact .next h
  · split
    · exact .next h
    · next t b o ht => exact .next ((h.actEnds ht).endAct b o).offer

theorem backgroundCommandDone_keepsForm : keepsForm (execBackgroundCommandDone s) := by
  unfold execBackgroundCommandDone
  split
  · exact .next h
  · exact .next (canonical.modPort (h.modCtlr _) ..)

theorem fwActivationSwitch_keepsForm : keepsForm (execFwActivationSwitch s) := by
  unfold execFwActivationSwitch
  extract_lets t
  have ht : canonical t := canonical.imageTakesOver (h.modCtlr _) _
  exact .ite (.next h) (.next (.ite (ht.servesAgain 3 0 0) ht))

theorem fwBankConfirm_keepsForm : keepsForm (execFwBankConfirm s) := by
  unfold execFwBankConfirm
  split
  · exact .next (.ite (h.modCtlr _) h)
  · exact .next h

theorem fwFallback_keepsForm : keepsForm (execFwFallback s) := by
  unfold execFwFallback
  extract_lets failed old started
  have hfailed : canonical failed := h.modCtlr _
  have hstarted : canonical started := canonical.imageTakesOver (hfailed.modCtlr _) _
  exact .ite (.next h) (.ite (.next (hfailed.safeMode 6)) (.next (.ite (hstarted.servesAgain ..) ((hstarted.controllerEvent ..).endActivation 1))))

theorem controllerException_keepsForm (kind : ExcKind) (pc sp : Word) : keepsForm (execControllerException kind pc sp s) := by
  unfold execControllerException
  split
  · exact .next (h.controllerFaults ..)
  · exact .next h

theorem watchdogExpiry_keepsForm (pc sp : Word) : keepsForm (execWatchdogExpiry pc sp s) := .next (.ite (h.controllerFaults ..) h)

theorem controllerRestartDone_keepsForm : keepsForm (execControllerRestartDone s) :=
  .ite (.next h) (.next ((h.afterRestart.rekey 2).servesAgain 2 0 2))

/-! The external ports. -/

theorem smbBlkVersion_keepsForm : keepsForm (execSmbBlkVersion s) := .ite (.next (h.elsewhere (by rfl))) (.next (h.elsewhere (by rfl)))

theorem smbStatus_keepsForm : keepsForm (execSmbStatus s) := .ite (.next (h.elsewhere (by rfl))) (.next (h.elsewhere (by rfl)))

theorem smbNotifyCtrl_keepsForm (x : Byte) (pec : Option Byte) : keepsForm (execSmbNotifyCtrl x pec s) :=
  .ite (.next (h.elsewhere (by rfl))) (.next (h.elsewhere (by rfl)))

theorem smbMbxWrite_keepsForm (data : List Byte) (pec : Option Byte) : keepsForm (execSmbMbxWrite data pec s) :=
  .ite (.next (h.elsewhere (by rfl))) (.next (canonical.foldl (h.elsewhere (by rfl)) (fun _ _ ha => ha.windowWrite ..) _))

theorem smbMbxRead_keepsForm (data : List Byte) (n : Nat) : keepsForm (execSmbMbxRead data n s) :=
  .ite (.next (h.elsewhere (by rfl))) (.next (h.elsewhere (by rfl)))

theorem hostNotifyAttempt_keepsForm (r : NotifyResult) : keepsForm (execHostNotifyAttempt r s) := .ite (.next (h.notify r)) (.next h)

theorem hostNotifyRetry_keepsForm (r : NotifyResult) : keepsForm (execHostNotifyRetry r s) := .ite (.next (h.notify r)) (.next h)

theorem cxMbx_keepsForm (din : BitVec 64) : keepsForm (execCxMbx din s) :=
  .next (.ite (canonical.mbxOp (h.elsewhere (by rfl)) ..) (h.elsewhere (by rfl)))

theorem cxReset_keepsForm (din : Word) : keepsForm (execCxReset din s) := .ite (.next (h.assertReset _)) (.next (h.elsewhere (by rfl)))

theorem cxTraceCfg_keepsForm (din : Option Word) : keepsForm (execCxTraceCfg din s) := by
  unfold execCxTraceCfg
  cases din
  · exact .next (h.elsewhere (by rfl))
  · exact .next (.ite (h.elsewhere (by rfl)) (h.elsewhere (by rfl)))

omit h in
/-- Sending a record never lengthens the trace queue. -/
theorem send_queue_length (x : Trace) : x.send.queue.length ≤ x.queue.length := by
  unfold Trace.send
  split
  · exact le_rfl
  · split
    · exact le_rfl
    · next r rs hq => rw [hq]; exact Nat.le_succ _

theorem traceRecordSend_keepsForm : keepsForm (execTraceRecordSend s) := by
  refine .ite (.next (h.setQueue _ ?_)) (.next h)
  exact (send_queue_length _).trans h.trace

theorem gwTxHdr_keepsForm (who : BitVec 16) (b : Nat) (hdr : BitVec 128) : keepsForm (execGwTxHdr who b hdr s) :=
  .ite (.next h) (.ite (.next h.gwRefuse) (.ite (.next (h.modTx ..)) (.ite (.next (h.modTx ..)) (.next h))))

theorem transmitData_keepsForm (who : BitVec 16) (b off : Nat) (data : List Byte) : keepsForm (execTransmitData who b off data s) :=
  .ite (.next h) (.ite (.next h.gwRefuse) (.ite (.next (h.modTx ..)) (.next h)))

theorem gwTxGo_keepsForm (who : BitVec 16) (b : Nat) (v : Word) : keepsForm (execGwTxGo who b v s) := by
  unfold execGwTxGo
  dsimp only
  refine .ite (.next h) (.ite (.next (.ite h h.gwRefuse)) ?_)
  split <;> exact .next (h.modTx ..)

theorem gwRxFlit_keepsForm (f : BitVec 664) : keepsForm (execGwRxFlit f s) := .ite (.next h) (.next ((h.bump _).gwReceive f))

theorem gwTxFlitAccept_keepsForm (b : Nat) : keepsForm (execGwTxFlitAccept b s) := by
  unfold execGwTxFlitAccept
  dsimp only
  have hsent := (h.modTx b TxBuf.accepted).bump 0x01
  exact .ite (.next h) (.ite (.ite (.next h) (.next ((h.modTx ..).gwReceive _))) (.next (hsent.elsewhere (by rfl))))

theorem gwClaimExpire_keepsForm (b : Nat) : keepsForm (execGwClaimExpire b s) := .ite (.next (h.modTx ..)) (.next h)

theorem gwBoxStale_keepsForm (x : Nat) : keepsForm (execGwBoxStale x s) := .ite (.next (h.modBox ..)) (.next h)

theorem gwCollideExpire_keepsForm : keepsForm (execGwCollideExpire s) := .ite (.next (canonical.elsewhere (h.bump 0x05) (by rfl))) (.next h)

theorem gwBoxFree_keepsForm (who : BitVec 16) (x : Nat) (v : Word) : keepsForm (execGwBoxFree who x v s) := by
  unfold execGwBoxFree
  dsimp only
  have hfreed : canonical (s.modBox x fun _ => {}) := h.modBox ..
  refine .ite (.next h) (.ite (.next h.gwRefuse) (.ite (.next h) ?_))
  split
  · exact .ite (.next (canonical.gwReceive (hfreed.elsewhere (by rfl)) _)) (.next hfreed)
  · exact .next hfreed

theorem gwPkgRankSample_keepsForm (r : BitVec 16) : keepsForm (execGwPkgRankSample r s) := .ite (.next (h.elsewhere (by rfl))) (.next h)

theorem gwPkgRankValidFall_keepsForm : keepsForm (execGwPkgRankValidFall s) := .ite (.next (h.elsewhere (by rfl))) (.next h)

end
/-- Every command keeps the canonical form: each row by the lemma about its own meaning, and each mailbox command by the lemma about the
part that it carries out. -/
theorem exec_keepsForm {s : State} (h : canonical s) (i : Instr) : keepsForm (exec i s) := by
  cases i with
  | blockResetAssert src => exact .next (h.assertReset src)
  | blockResetEnd straps => exact blockResetEnd_keepsForm h straps
  | sramZeroed => exact .ite (.next h) (.next (h.modCtlr _))
  | imageCheck img => exact imageCheck_keepsForm h img
  | configRecordLoad record => exact configRecordLoad_keepsForm h record
  | startupSelfTestDone failed => exact startupSelfTestDone_keepsForm h failed
  | firstGlobalCommit => exact firstGlobalCommit_keepsForm h
  | controllerServes => exact controllerServes_keepsForm h
  | refclkEdge => exact refclkEdge_keepsForm h
  | refLost => exact refLost_keepsForm h
  | refReturn => exact refReturn_keepsForm h
  | paceLock => exact paceLock_keepsForm h
  | paceSwitch => exact paceSwitch_keepsForm h
  | lpEnable leaf v => exact lpEnable_keepsForm h leaf v
  | lpDisable leaf v => exact lpDisable_keepsForm h leaf v
  | lpReset leaf v => exact lpReset_keepsForm h leaf v
  | lpResetDone leaf => exact lpResetDone_keepsForm h leaf
  | lpDoorbell leaf v => exact lpDoorbell_keepsForm h leaf v
  | lpCqHeadWrite leaf v => exact lpCqHeadWrite_keepsForm h leaf v
  | lpIntStatusClear leaf v => exact lpIntStatusClear_keepsForm h leaf v
  | registerWrite blk off wide v => exact registerWrite_keepsForm h blk off wide v
  | lpPush leaf off wide data => exact lpPush_keepsForm h leaf off wide data
  | tileDrain leaf slot fmt data => exact tileDrain_keepsForm h leaf slot fmt data
  | tileLanded leaf slot tile => exact tileLanded_keepsForm h leaf slot tile
  | takeDescriptor leaf words segs => exact takeDescriptor_keepsForm h leaf words segs
  | ragTailProbe leaf slot fault => exact ragTailProbe_keepsForm h leaf slot fault
  | sendArm leaf => exact sendArm_keepsForm h leaf
  | bisqueClear leaf => exact bisqueClear_keepsForm h leaf
  | bisqueLoad leaf r => exact bisqueLoad_keepsForm h leaf r
  | bisqueAddSum leaf x => exact bisqueAddSum_keepsForm h leaf x
  | bisqueAddSumsq leaf x => exact bisqueAddSumsq_keepsForm h leaf x
  | bisqueAddDot leaf x y => exact bisqueAddDot_keepsForm h leaf x y
  | bisqueAddSherd leaf r => exact bisqueAddSherd_keepsForm h leaf r
  | bisqueStore leaf bad => exact bisqueStore_keepsForm h leaf bad
  | chunkReadDone leaf slot area chunk r => exact chunkReadDone_keepsForm h leaf slot area chunk r
  | chunkWriteDone leaf slot chunk ok => exact chunkWriteDone_keepsForm h leaf slot chunk ok
  | armMerge node input => exact armMerge_keepsForm h node input
  | armAtKiln input => exact armAtKiln_keepsForm h input
  | grant => exact grant_keepsForm h
  | grantReceive leaf => exact grantReceive_keepsForm h leaf
  | redealGrantReceive leaf => exact redealGrantReceive_keepsForm h leaf
  | leafFlitSend leaf plane => exact leafFlitSend_keepsForm h leaf plane
  | nodeFlitArrive node dir input err x => exact nodeFlitArrive_keepsForm h node dir input err x
  | twinResidueFire node f => exact twinResidueFire_keepsForm h node f
  | bridgeFlitReceive key err => exact bridgeFlitReceive_keepsForm h key err
  | linkNakReceive key err => exact linkNakReceive_keepsForm h key err
  | linkNakRepeat key => exact linkNakRepeat_keepsForm h key
  | bridgeRetryExhausted key => exact bridgeRetryExhausted_keepsForm h key
  | stageConeExpiry x => exact stageConeExpiry_keepsForm h x
  | lossRegister => exact lossRegister_keepsForm h
  | redealResourceFree => exact redealResourceFree_keepsForm h
  | overflowReplay setter => exact overflowReplay_keepsForm h setter
  | firingEnd group seq => exact firingEnd_keepsForm h group seq
  | endReceive leaf => exact endReceive_keepsForm h leaf
  | resultFlitReceive leaf plane err => exact resultFlitReceive_keepsForm h leaf plane err
  | completionRecordWrite leaf slot w => exact completionRecordWrite_keepsForm h leaf slot w
  | setterRestEnd setter => exact setterRestEnd_keepsForm h setter
  | firingConeExpiry group seq => exact firingConeExpiry_keepsForm h group seq
  | barrierArrive group => exact barrierArrive_keepsForm h group
  | barrierRelease leaf ok => exact barrierRelease_keepsForm h leaf ok
  | leafFailureRegister leaf => exact leafFailureRegister_keepsForm h leaf
  | configWordUncorrectable w copy otherBad rewriteBad => exact configWordUncorrectable_keepsForm h w copy otherBad rewriteBad
  | memoryUncorrectable e => exact memoryUncorrectable_keepsForm h e
  | scrubPeriodic finds => exact scrubPeriodic_keepsForm h finds
  | pyroPassStart die => exact pyroPassStart_keepsForm h die
  | pyroPassComplete die echoes => exact pyroPassComplete_keepsForm h die echoes
  | pyroPassAbandon die => exact pyroPassAbandon_keepsForm h die
  | loadCorrection die => exact loadCorrection_keepsForm h die
  | trimEpochFlip die => exact trimEpochFlip_keepsForm h die
  | trimStaleSet die => exact trimStaleSet_keepsForm h die
  | tempSample die temp => exact tempSample_keepsForm h die temp
  | quietHoldStart die => exact quietHoldStart_keepsForm h die
  | quietHoldEnd die => exact quietHoldEnd_keepsForm h die
  | activityEstimate die tests => exact activityEstimate_keepsForm h die tests
  | governorSlot die v rLink => exact governorSlot_keepsForm h die v rLink
  | wakeSlot die => exact wakeSlot_keepsForm h die
  | wakeRampEnd die seg => exact wakeRampEnd_keepsForm h die seg
  | parkRampEnd die seg => exact parkRampEnd_keepsForm h die seg
  | parkDue die seg => exact parkDue_keepsForm h die seg
  | commitSwap => exact commitSwap_keepsForm h
  | saggarDestroyEffect saggar => exact saggarDestroyEffect_keepsForm h saggar
  | mbxRing port v => exact mbxRing_keepsForm h port v
  | mbxPortReset port v => exact mbxPortReset_keepsForm h port v
  | mbxIntStatusClear port v => exact mbxIntStatusClear_keepsForm h port v
  | hello p => exact command_keepsForm h p 0x0001 fun q _ ht => ht.runHello q
  | goodbye p => exact command_keepsForm h p 0x0002 fun q _ ht => ht.runGoodbye q
  | saggarCreate p => exact command_keepsForm h p 0x0101 fun q _ ht => ht.runSaggarCreate q
  | saggarDestroy p => exact command_keepsForm h p 0x0102 fun q _ ht => ht.runSaggarDestroy q
  | saggarList p => exact command_keepsForm h p 0x0103 fun _ _ ht => ht
  | shadowWrite p => exact command_keepsForm h p 0x0111 fun q _ ht => ht.runShadowWrite q
  | shadowRead p => exact command_keepsForm h p 0x0112 fun q _ ht => ht.runShadowRead q
  | commit p => exact command_keepsForm h p 0x0113 fun q _ ht => ht.runCommit q
  | discard p => exact command_keepsForm h p 0x0114 fun q _ ht => ht.runDiscard q
  | stateRead p => exact command_keepsForm h p 0x0201 fun q _ ht => ht.runStateRead q
  | snapshot p => exact command_keepsForm h p 0x0202 fun q _ ht => ht.runSnapshot q
  | snapshotRelease p => exact command_keepsForm h p 0x0203 fun q _ ht => ht.runSnapshotRelease q
  | firingQuery p => exact command_keepsForm h p 0x0301 fun q _ ht => ht.runFiringQuery q
  | firingAbort p => exact command_keepsForm h p 0x0302 fun q _ ht => ht.runFiringAbort q
  | counterRead p => exact command_keepsForm h p 0x0401 fun q _ ht => ht.runCounterRead q
  | digestOpen p => exact command_keepsForm h p 0x0501 fun q _ ht => ht.runDigestOpen q
  | digestRead p => exact command_keepsForm h p 0x0502 fun q _ ht => ht.runDigestRead q
  | digestClose p => exact command_keepsForm h p 0x0503 fun q _ ht => ht.runDigestClose q
  | keyRead p => exact command_keepsForm h p 0x0504 fun _ _ ht => ht
  | calibrate p => exact command_keepsForm h p 0x0601 fun q _ ht => ht.runCalibrate q
  | scrub p => exact command_keepsForm h p 0x0602 fun _ _ ht => ht.startReply _
  | selfTest p => exact command_keepsForm h p 0x0603 fun q _ ht => ht.runSelfTest q
  | nodeOffline p => exact command_keepsForm h p 0x0604 fun q _ ht => ht.runNodeOffline q
  | nodeOnline p => exact command_keepsForm h p 0x0605 fun q _ ht => ht.runNodeOnline q
  | planeOffline p => exact command_keepsForm h p 0x0606 fun q _ ht => ht.runPlaneOffline q
  | planeOnline p => exact command_keepsForm h p 0x0607 fun q _ ht => ht.runPlaneOnline q
  | leafOffline p => exact command_keepsForm h p 0x0608 fun q _ ht => ht.runOnLeaf 0x08 q
  | leafOnline p => exact command_keepsForm h p 0x0609 fun q _ ht => ht.runOnLeaf 0x09 q
  | maintStatus p => exact command_keepsForm h p 0x060A fun _ _ ht => ht
  | maintActivityEnd id found => exact maintActivityEnd_keepsForm h id found
  | fwStage p => exact command_keepsForm h p 0x0701 fun q _ ht => ht.runFwStage q
  | fwVerify p => exact command_keepsForm h p 0x0702 fun q _ ht => ht.runFwVerify q
  | backgroundCommandDone => exact backgroundCommandDone_keepsForm h
  | fwActivate p => exact command_keepsForm h p 0x0703 fun q _ ht => ht.runFwActivate q
  | fwActivationSwitch => exact fwActivationSwitch_keepsForm h
  | fwBankConfirm => exact fwBankConfirm_keepsForm h
  | fwFallback => exact fwFallback_keepsForm h
  | fwStatus p => exact command_keepsForm h p 0x0704 fun _ _ ht => ht
  | energyRead p => exact command_keepsForm h p 0x0801 fun q _ ht => ht.runEnergyRead q
  | eventSubscribe p => exact command_keepsForm h p 0x0802 fun q _ ht => ht.runEventSubscribe q
  | eventRead p => exact command_keepsForm h p 0x0803 fun q _ ht => ht.runEventRead q
  | faultLogRead p => exact command_keepsForm h p 0x0804 fun _ _ ht => ht
  | debugAccRead p => exact command_keepsForm h p 0x0805 fun q _ ht => ht.runDebugAccRead q
  | debugTablePoke p => exact command_keepsForm h p 0x0806 fun q _ ht => ht.runDebugTablePoke q
  | controllerLogRead p => exact command_keepsForm h p 0x0807 fun _ _ ht => ht
  | controllerException kind pc sp => exact controllerException_keepsForm h kind pc sp
  | watchdogExpiry pc sp => exact watchdogExpiry_keepsForm h pc sp
  | controllerRestartDone => exact controllerRestartDone_keepsForm h
  | smbBlkVersion => exact smbBlkVersion_keepsForm h
  | smbStatus => exact smbStatus_keepsForm h
  | smbNotifyCtrl data pec => exact smbNotifyCtrl_keepsForm h data pec
  | smbMbxWrite data pec => exact smbMbxWrite_keepsForm h data pec
  | smbMbxRead data count => exact smbMbxRead_keepsForm h data count
  | smbTimeout => exact .next (h.elsewhere (by rfl))
  | hostNotifyAttempt r => exact hostNotifyAttempt_keepsForm h r
  | hostNotifyRetry r => exact hostNotifyRetry_keepsForm h r
  | extest _ _ => exact .next (h.elsewhere (by rfl))
  | idcode => exact .next (h.elsewhere (by rfl))
  | samplePreload _ _ => exact .next (h.elsewhere (by rfl))
  | bypass => exact .next (h.elsewhere (by rfl))
  | cxVersion => exact .next (h.elsewhere (by rfl))
  | cxMbx din => exact cxMbx_keepsForm h din
  | cxReset din => exact cxReset_keepsForm h din
  | cxTraceCfg din => exact cxTraceCfg_keepsForm h din
  | cxStraps => exact .next (h.elsewhere (by rfl))
  | cxPortCnt _ => exact .next (h.elsewhere (by rfl))
  | testPortReset => exact .next (h.elsewhere (by rfl))
  | traceRecordSend => exact traceRecordSend_keepsForm h
  | gwPkgRankSample rank => exact gwPkgRankSample_keepsForm h rank
  | gwTxHdr who buf hdr => exact gwTxHdr_keepsForm h who buf hdr
  | transmitData who buf off data => exact transmitData_keepsForm h who buf off data
  | gwTxGo who buf v => exact gwTxGo_keepsForm h who buf v
  | gwTxFlitAccept buf => exact gwTxFlitAccept_keepsForm h buf
  | gwClaimExpire buf => exact gwClaimExpire_keepsForm h buf
  | gwRxFlit flit => exact gwRxFlit_keepsForm h flit
  | gwBoxStale box => exact gwBoxStale_keepsForm h box
  | gwCollideExpire => exact gwCollideExpire_keepsForm h
  | gwBoxFree who box v => exact gwBoxFree_keepsForm h who box v
  | depositResponse id code data => exact depositResponse_keepsForm h id code data
  | depositRequestAccept waited => exact depositRequestAccept_keepsForm h waited
  | gwPkgRankValidFall => exact gwPkgRankValidFall_keepsForm h
  | controlPathDownwardMessage node => exact controlPathDownwardMessage_keepsForm h node
  | leafPortFailureSignal leaf => exact leafPortFailureSignal_keepsForm h leaf

/-- Settles O60: a step runs the command at the front of the queue, and no command leaves the form; the queue is no part of it. -/
theorem stepKeepsCanonical : Obligations.StepKeepsCanonical := by
  unfold Obligations.StepKeepsCanonical
  intro s t h ht
  unfold step at ht
  split at ht
  · cases ht
    exact h
  · next c rest hq => exact exec_keepsForm (s := { s with pending := rest }) (h.elsewhere (by rfl)) c t ht

/-- Settles O59, by evaluating the check of the form. -/
theorem resetCanonical : Obligations.ResetCanonical := Laws.canonical_of_check (by decide +kernel)

/-- Settles O1, by the definition of a step. -/
theorem stepRunsFront : Obligations.StepRunsFront := by
  unfold Obligations.StepRunsFront
  constructor
  · intro c rest s hq
    rw [step, hq]
  · intro s hq
    rw [step, hq]

end Sys2Proof

/-! ### O4: the boot image -/

namespace Sys2Proof.Proofs
open Sys2Proof.Machine

theorem exec_imageCheck (img : List Byte) (s : State) : exec (.imageCheck img) s = execImageCheck img s := rfl

section
variable {s : State}

theorem execSramZeroed_ends (h : s.ctl.phase = .zeroing) :
    execSramZeroed s = .next { s with ctl := { s.ctl with phase := .readImage, tryB := s.ctl.activeB, triedBoth := false } } :=
  if_neg (by simp [h])

theorem execSramZeroed_idle (h : s.ctl.phase ≠ .zeroing) : execSramZeroed s = .next s := if_pos (by simp [h])

end

/-! The banks. -/

section
variable (c : Controller)

theorem bank_modBank (i : Bool) (f : Bank → Bank) : (c.modBank i f).bank i = f (c.bank i) := by
  cases i <;> rfl

theorem bank_modBank_of_ne {i j : Bool} (f : Bank → Bank) (h : j ≠ i) : (c.modBank i f).bank j = c.bank j := by
  cases i <;> cases j <;> simp_all [Controller.modBank, Controller.bank]

/-- A change of a bank leaves the rest of the controller alone. -/
theorem modBank_frame (i : Bool) (f : Bank → Bank) :
    c.modBank i f = { c with bankA := (c.modBank i f).bankA, bankB := (c.modBank i f).bankB } := by
  cases i <;> rfl

end

theorem fetched_of_bytes {b : Bank} (img : List Byte) (h : b.bytes ≠ []) : b.fetched img = b := by
  simp [Bank.fetched, h]

/-- The controller once the boot ROM has read the bank it tries. -/
def bankFetched (c : Controller) (img : List Byte) : Controller := c.modBank c.tryB (fun b => b.fetched img)

section
variable (c : Controller) (img : List Byte)

theorem bankFetched_frame : bankFetched c img = { c with bankA := (bankFetched c img).bankA, bankB := (bankFetched c img).bankB } :=
  modBank_frame c _ _

@[simp] theorem bankFetched_tryB : (bankFetched c img).tryB = c.tryB := by rw [bankFetched_frame]
@[simp] theorem bankFetched_activeB : (bankFetched c img).activeB = c.activeB := by rw [bankFetched_frame]
@[simp] theorem bankFetched_phase : (bankFetched c img).phase = c.phase := by rw [bankFetched_frame]
@[simp] theorem bankFetched_quietFallback : (bankFetched c img).quietFallback = c.quietFallback := by rw [bankFetched_frame]
@[simp] theorem bankFetched_bank : (bankFetched c img).bank c.tryB = (c.bank c.tryB).fetched img := bank_modBank ..
@[simp] theorem bankFetched_otherBank : (bankFetched c img).bank (!c.tryB) = c.bank (!c.tryB) :=
  bank_modBank_of_ne _ _ (by simp)

end

/-! A good image starts (R459, R561). -/

/-- The controller whose tried bank is the active one and runs, before the fallback is told. -/
def imageRuns (c : Controller) (now : Quad) : Controller :=
  ((c.modBank c.tryB (fun b => b.named .active)).modBank (!c.tryB) Bank.demoted).runs ((c.bank c.tryB).named .active) now

theorem imageStarts_eq (c : Controller) (now : Quad) : c.imageStarts now =
    { (if c.tryB != c.activeB then
        { (imageRuns c now).modBank c.activeB (fun b => { b with st := .failed }) with activeB := c.tryB, quietFallback := true }
      else imageRuns c now) with imageOk := true, onEmergency := c.onEmergency && c.phase == .restarting } := rfl

section
variable {c : Controller} (now : Quad)

theorem imageRuns_bank : (imageRuns c now).bank c.tryB = (c.bank c.tryB).named .active := by
  have hother := bank_modBank_of_ne (c.modBank c.tryB (fun b => b.named .active)) (i := !c.tryB) (j := c.tryB) Bank.demoted (by simp)
  exact hother.trans (bank_modBank ..)

theorem imageRuns_frame : imageRuns c now = { c with
    bankA := (imageRuns c now).bankA, bankB := (imageRuns c now).bankB
    runMajor := ((c.bank c.tryB).named .active).major, runMinor := ((c.bank c.tryB).named .active).minor
    runPatch := ((c.bank c.tryB).named .active).patch
    stackHigh := (imageRuns c now).stackHigh, stackLow := (imageRuns c now).stackLow, wdFrom := now } := by
  rw [imageRuns, modBank_frame (c.modBank _ _), modBank_frame c]
  rfl

/-- What the start of the tried bank's image leaves in the controller, be it the recorded active bank or the other. -/
theorem imageStarts_spec : (c.imageStarts now).imageOk = true ∧ (c.imageStarts now).activeB = c.tryB
    ∧ (c.imageStarts now).bank c.tryB = (c.bank c.tryB).named .active
    ∧ (c.imageStarts now).runMajor = ((c.bank c.tryB).named .active).major
    ∧ (c.imageStarts now).runMinor = ((c.bank c.tryB).named .active).minor
    ∧ (c.imageStarts now).runPatch = ((c.bank c.tryB).named .active).patch
    ∧ (c.tryB ≠ c.activeB → (c.imageStarts now).quietFallback = true)
    ∧ (c.tryB = c.activeB → (c.imageStarts now).quietFallback = c.quietFallback) := by
  rw [imageStarts_eq]
  by_cases hb : c.tryB = c.activeB
  · rw [if_neg (by simp [hb])]
    refine ⟨rfl, ?_, imageRuns_bank now, ?_, ?_, ?_, absurd hb, fun _ => ?_⟩
    · rw [imageRuns_frame]; exact hb.symm
    all_goals rw [imageRuns_frame]
  · rw [if_pos (by simp [hb])]
    refine ⟨rfl, rfl, (bank_modBank_of_ne _ _ hb).trans (imageRuns_bank now), ?_, ?_, ?_, fun _ => rfl, fun h => absurd h hb⟩
    all_goals rw [modBank_frame, imageRuns_frame]

end

/-! Safe mode (R466). -/

/-- The controller in safe mode. -/
def inSafeMode (c : Controller) : Controller := { c with phase := .safe, onEmergency := false }

theorem recordsOnly_safeMode (s : State) (cause : Nat) : recordsOnly { s with ctl := inSafeMode s.ctl } (s.safeMode cause) :=
  recordsOnly_controllerEvent ..

theorem safeMode_ctl (s : State) (cause : Nat) : (s.safeMode cause).ctl = inSafeMode s.ctl := by rw [(recordsOnly_safeMode s cause).eq]

/-! The outcomes of IMAGE_CHECK. -/

/-- The row has its moment: the start-up sequence reads an image, or a restart checks one outside the way of FW_FALLBACK. -/
def checksImage (c : Controller) : Prop := c.phase = .readImage ∨ (c.phase = .restarting ∧ c.imageOk = false ∧ c.confirm = none)

section
variable {s : State} {img : List Byte}

theorem execImageCheck_idle (h : s.ctl.phase ≠ .readImage)
    (h2 : s.ctl.phase ≠ .restarting ∨ s.ctl.imageOk = true ∨ s.ctl.confirm ≠ none) : execImageCheck img s = .next s := by
  refine if_pos ?_
  simpa [h, or_assoc, Option.isSome_iff_ne_none] using h2

theorem execImageCheck_eq (h : checksImage s.ctl) : execImageCheck img s =
    if imageValid ((s.ctl.bank s.ctl.tryB).fetched img).image = true then .next { s with ctl :=
      { (bankFetched s.ctl img).imageStarts s.time with phase := if s.ctl.phase == .readImage then .readConfig else .restarting } }
    else if s.ctl.triedBoth = true then .next (State.safeMode { s with ctl := bankFetched s.ctl img } 6)
    else .next { s with ctl := { bankFetched s.ctl img with tryB := !s.ctl.tryB, triedBoth := true } } := by
  have hdue : ¬ (s.ctl.phase != .readImage && (s.ctl.phase != .restarting || s.ctl.imageOk || s.ctl.confirm.isSome)) = true := by
    rcases h with h | ⟨hp, hi, hc⟩
    · simp [h]
    · simp [hp, hi, hc]
  have hbank : (bankFetched s.ctl img).bank (bankFetched s.ctl img).tryB = (s.ctl.bank s.ctl.tryB).fetched img := by simp
  rw [execImageCheck, if_neg hdue, ← hbank, ← bankFetched_phase s.ctl img, ← bankFetched_tryB s.ctl img]
  rfl

end

/-- Settles O4: the zeroing by its two cases, the check of an image by its three outcomes, of which the start of a good image is
`imageStarts_spec`. -/
theorem bootImage : Obligations.BootImage := by
  unfold Obligations.BootImage
  refine ⟨fun s => ⟨execSramZeroed_ends, execSramZeroed_idle⟩, fun img b s hb => ⟨fun h => ?_, execImageCheck_idle⟩⟩
  subst hb
  rw [exec_imageCheck, execImageCheck_eq h]
  refine ⟨fetched_of_bytes img, fun hv => ?good, fun hv ht => ?first, fun hv ht => ?second⟩
  case good =>
    obtain ⟨hok, hact, hbank, hma, hmi, hpa, hother, hsame⟩ := imageStarts_spec (c := bankFetched s.ctl img) s.time
    simp only [bankFetched_tryB, bankFetched_bank, bankFetched_activeB, bankFetched_quietFallback] at hact hbank hma hmi hpa hother hsame
    exact ⟨_, if_pos hv, rfl, by simp only [beq_iff_eq], hok, hact, hbank, hma, hmi, hpa, hother, hsame⟩
  case first =>
    refine ⟨_, (if_neg (by simp [hv])).trans (if_neg (by simp [ht])), rfl, rfl, rfl, bankFetched_phase .., bankFetched_activeB ..,
      bankFetched_bank .., bankFetched_otherBank ..⟩
  case second =>
    refine ⟨_, (if_neg (by simp [hv])).trans (if_pos ht), ?_, ?_, ?_⟩
    all_goals rw [safeMode_ctl]
    · rfl
    · exact bankFetched_activeB ..
    · exact recordsOnly_safeMode { s with ctl := bankFetched s.ctl img } 6

end Sys2Proof.Proofs

/-! ### O5: the configuration record and the start-up self-test -/

namespace Sys2Proof.Proofs
open Sys2Proof.Machine

theorem exec_configRecordLoad (r : List Byte) (s : State) : exec (.configRecordLoad r) s = execConfigRecordLoad r s := rfl
theorem exec_startupSelfTestDone (ps : List Part) (s : State) : exec (.startupSelfTestDone ps) s = execStartupSelfTestDone ps s := rfl

section
variable {s : State} {r : List Byte}

theorem execConfigRecordLoad_idle (h : s.ctl.phase ≠ .readConfig) : execConfigRecordLoad r s = .next s := if_pos (by simp [h])

/-- The configuration once the record has been read: its values or the defaults, and the bits of the failed leaves. -/
def recordLoaded (s : State) (r : List Byte) : Config :=
  { s.cfg with shadow := (if recordOk s.n r then s.cfg.shadow.ofRecord r else s.cfg.shadow.defaults).markFailed s.kiln.failedLeaves }

/-- The phase that follows a self-test. -/
def phaseAfterTest (s : State) : CtlPhase := if s.passesDone then .firstCommit else .firstPass

theorem recordLoaded_good (h : recordOk s.n r = true) :
    recordLoaded s r = { s.cfg with shadow := (s.cfg.shadow.ofRecord r).markFailed s.kiln.failedLeaves } := by
  rw [recordLoaded, if_pos h]

theorem recordLoaded_bad (h : recordOk s.n r = false) :
    recordLoaded s r = { s.cfg with shadow := s.cfg.shadow.defaults.markFailed s.kiln.failedLeaves } := by
  rw [recordLoaded, if_neg (by simp [h])]

/-- CONFIG_RECORD_LOAD goes on with the self-test, or where that has been done with what follows it. -/
theorem execConfigRecordLoad_loads (h : s.ctl.phase = .readConfig) : execConfigRecordLoad r s = .next { s with
    cfg := recordLoaded s r
    ctl := { s.ctl with
      noRecord := !recordOk s.n r, phase := if s.ctl.selfTested = true then phaseAfterTest s else .selfTest } } := by
  rw [execConfigRecordLoad, if_neg (by simp [h])]
  cases ht : s.ctl.selfTested
  · rfl
  · exact congrArg (fun b => Host.Outcome.next { s with cfg := recordLoaded s r, ctl := { s.ctl with
      noRecord := !recordOk s.n r, phase := phaseAfterTest s, selfTested := b } }) ht.symm

theorem execStartupSelfTestDone_idle {ps : List Part} (h : s.ctl.phase ≠ .selfTest) : execStartupSelfTestDone ps s = .next s :=
  if_pos (by simp [h])

theorem execStartupSelfTestDone_ends {ps : List Part} (h : s.ctl.phase = .selfTest) :
    execStartupSelfTestDone ps s = .next (ps.foldl State.partLostAtStart s).afterSelfTest := if_neg (by simp [h])

end

/-! What a part found failed at start-up leaves alone (R565). -/

/-- The controller, the commands that wait, block time and the active global set are those of `s`. -/
structure startKept (s t : State) : Prop where
  eq : (t.ctl, t.pending, t.time, t.cfg.active) = (s.ctl, s.pending, s.time, s.cfg.active)

theorem startKept.refl (s : State) : startKept s s := ⟨rfl⟩
theorem startKept.trans {s t u : State} (h : startKept s t) (k : startKept t u) : startKept s u := ⟨k.eq.trans h.eq⟩

theorem startKept.ite {s t u : State} {c : Prop} [Decidable c] (h : startKept s t) (k : startKept s u) :
    startKept s (if c then t else u) := by
  split
  · exact h
  · exact k

section
variable (s : State)

theorem startKept_fault (e : FaultEv) (sags : List Nat) : startKept s (s.fault e sags) := ⟨by rw [(faultsOnly_fault s e sags).eq]⟩

theorem startKept_modLeaf (l : Nat) (f : LeafPort → LeafPort) : startKept s (s.modLeaf l f) := ⟨rfl⟩
theorem startKept_modLink (key : Nat) (f : Link → Link) : startKept s (s.modLink key f) := ⟨rfl⟩
theorem startKept_modDie (d : Nat) (f : Die → Die) : startKept s (s.modDie d f) := ⟨rfl⟩
theorem startKept_modKiln (f : Kiln → Kiln) : startKept s (s.modKiln f) := ⟨rfl⟩

theorem startKept_disableLeaf (l : Nat) : startKept s (s.disableLeaf l) := ⟨by
  rw [State.disableLeaf, (recordsOnly_firingEvent ..).eq]
  rfl⟩

theorem startKept_modStat (ix : Nat) (f : NodeStat → NodeStat) : startKept s (s.modStat ix f) := by
  unfold State.modStat
  split <;> exact ⟨rfl⟩

theorem startKept_leafLostAtStart (l : Nat) : startKept s (s.leafLostAtStart l) := by
  unfold State.leafLostAtStart
  split
  · exact .refl s
  · exact .trans (.trans (.trans (startKept_modLeaf ..) (startKept_modKiln ..)) (startKept_disableLeaf _ l)) (startKept_fault ..)

theorem startKept_leavesLost (ls : List Nat) : startKept s (ls.foldl State.leafLostAtStart s) :=
  foldl_rel .refl .trans startKept_leafLostAtStart ls s

/-- The status of a node changes and a fault event says so. -/
theorem startKept_statEvent (ix : Nat) (f : NodeStat → NodeStat) (kind twin : Nat) :
    startKept s ((s.modStat ix f).nodeEvent ix kind twin 0) := .trans (startKept_modStat s ix f) (startKept_fault ..)

theorem startKept_pairLostAtStart (ix : Nat) : startKept s (s.pairLostAtStart ix) := by
  unfold State.pairLostAtStart
  split
  · refine .trans ?_ (startKept_leavesLost ..)
    dsimp only
    split
    · exact .trans (startKept_statEvent ..) (startKept_modKiln ..)
    · exact startKept_statEvent ..
  · exact startKept_statEvent ..

theorem startKept_partLostAtStart (p : Part) : startKept s (s.partLostAtStart p) := by
  unfold State.partLostAtStart
  cases p with
  | twin ix t =>
    refine startKept.ite (.refl s) (startKept.ite (startKept_pairLostAtStart s ix) (startKept_statEvent ..))
  | pair ix | ctrlLink ix => exact startKept.ite (.refl s) (startKept_pairLostAtStart s ix)
  | link key => exact startKept.ite (.refl s) (.trans (.trans (startKept_modLink ..) (startKept_modLink ..)) (startKept_fault ..))
  | leaf l => exact startKept_leafLostAtStart s l
  | dieSlice d =>
    refine .trans (.trans (startKept_modDie ..) (foldl_rel .refl .trans (fun a ix => ?_) _ _)) (startKept_leavesLost ..)
    exact startKept.ite (.refl a) (startKept_pairLostAtStart a ix)

end

/-! One leaf found failed. -/

section
variable {s : State} {l : Nat}

/-- The port of a leaf found failed at start-up. -/
def failedAtStart (p : LeafPort) : LeafPort := { p.fail with failReported := true, failCounted := true }

/-- A leaf found failed: its port, the kiln's list and its bit of the shadow map; the rest of the change is records. -/
theorem leafLostAtStart_frame (hl : s.leafExists l = true) (hf : (s.leaf l).failed = false) :
    (s.leafLostAtStart l).leaves = tset {} s.leaves l (failedAtStart (s.leaf l))
    ∧ (s.leafLostAtStart l).cfg.shadow.disabled = s.cfg.shadow.disabled ||| BitVec.ofNat 8192 (2 ^ l)
    ∧ (s.leafLostAtStart l).kiln.failedLeaves = insertRise l s.kiln.failedLeaves := by
  rw [State.leafLostAtStart, if_neg (by simp [hl, hf]), State.leafEvent, (faultsOnly_fault ..).eq, State.disableLeaf,
    (recordsOnly_firingEvent ..).eq]
  exact ⟨rfl, rfl, rfl⟩

end

/-- Settles O5: the record by the one equation of CONFIG_RECORD_LOAD, the self-test by what every lost part leaves alone. -/
theorem startupConfig : Obligations.StartupConfig := by
  unfold Obligations.StartupConfig
  refine ⟨fun r s h => ⟨_, (exec_configRecordLoad r s).trans (execConfigRecordLoad_loads h), rfl, rfl,
      recordLoaded_good, recordLoaded_bad⟩,
    fun r s h => (exec_configRecordLoad r s).trans (execConfigRecordLoad_idle h),
    fun ps s h => (exec_startupSelfTestDone ps s).trans (execStartupSelfTestDone_idle h), fun ps s h => ?tested, fun l s h hs hl hf => ?leaf⟩
  case tested =>
    have hkept : startKept s (ps.foldl State.partLostAtStart s) := foldl_rel .refl .trans startKept_partLostAtStart ps s
    obtain ⟨hctl, hpending, htime, hactive⟩ := by simpa only [Prod.mk.injEq] using hkept.eq
    refine ⟨_, (exec_startupSelfTestDone ps s).trans (execStartupSelfTestDone_ends h), ?_, hpending, htime, hactive⟩
    rw [← hctl]
    rfl
  case leaf =>
    obtain ⟨hleaves, hdisabled, hlist⟩ := leafLostAtStart_frame hl hf
    refine ⟨_, (exec_startupSelfTestDone [.leaf l] s).trans (execStartupSelfTestDone_ends h), ?_, fun k hk => ?_, hdisabled, hlist⟩
    · refine (congrArg (tget {} · l) hleaves).trans ((tget_tset_self hs.leaves ..).trans ?_)
      rw [failedAtStart, LeafPort.fail, if_neg (by simp [hf])]
      rfl
    · exact (congrArg (tget {} · k) hleaves).trans (tget_tset_ne _ _ _ hk)

end Sys2Proof.Proofs

/-! ### O38: uncorrectable words of the configuration tables -/

namespace Sys2Proof.Proofs
open Sys2Proof.Machine

section
variable {s : State}

theorem exec_configWordUncorrectable (h : s.awake = true) (w : CfgWord) (k : Copy) (o r : Bool) :
    exec (.configWordUncorrectable w k o r) s = .next (s.wordBad w k o r) := if_pos h

theorem exec_configWordUncorrectable_inReset (h : s.awake = false) (w : CfgWord) (k : Copy) (o r : Bool) :
    exec (.configWordUncorrectable w k o r) s = .next s := if_neg (by simp [h])

theorem exec_scrubPeriodic (h : s.awake = true) (fs : List ScrubFind) :
    exec (.scrubPeriodic fs) s = .next (fs.foldl State.scrubOne s) := if_pos h

theorem exec_scrubPeriodic_inReset (h : s.awake = false) (fs : List ScrubFind) : exec (.scrubPeriodic fs) s = .next s :=
  if_neg (by simp [h])

theorem scrubOne_uncorrectable {f : ScrubFind} (h : f.uncorrectable = true) :
    s.scrubOne f = s.wordBad f.word f.copy f.otherBad f.rewriteBad := if_pos h

theorem scrubOne_corrected {f : ScrubFind} (h : f.uncorrectable = false) :
    s.scrubOne f = s.modCfg (fun c => c.countCorr f.copy) := if_neg (by simp [h])

end

/-- The configuration once an uncorrectable word of a copy is counted. -/
def wordCounted (c : Config) (k : Copy) : Config :=
  { c with uncorrA := if k = .a then satInc c.uncorrA else c.uncorrA, uncorrB := if k = .b then satInc c.uncorrB else c.uncorrB }

theorem countUncorr_eq (c : Config) (k : Copy) : c.countUncorr k = wordCounted c k := by cases k <;> rfl

theorem countCorr_eq (c : Config) (k : Copy) : c.countCorr k =
    { c with corrA := if k = .a then satInc c.corrA else c.corrA, corrB := if k = .b then satInc c.corrB else c.corrB } := by
  cases k <;> rfl

theorem modCfg_countUncorr (s : State) (k : Copy) :
    s.modCfg (fun c => c.countUncorr k) = { s with cfg := wordCounted s.cfg k } := by rw [State.modCfg, countUncorr_eq]

/-- The configuration once neither copy gives the word. -/
def wordLost (c : Config) (w : CfgWord) (k : Copy) : Config :=
  { wordCounted c k with lost := addOnce c.lost w, badWords := c.badWords.filter (fun e => e.1 != w) }

/-- The configuration once the word has been taken from the other copy and rewritten; `r` says that the rewritten word failed again. -/
def wordRewritten (c : Config) (w : CfgWord) (k : Copy) (r : Bool) : Config :=
  { wordCounted c k with
    badWords := if r then addOnce c.badWords (w, k) else c.badWords.filter (fun e => e != (w, k))
    oneCopy := if r && k == .a then addOnce c.oneCopy w.bank else c.oneCopy }

/-- A group of the kiln whose active entry is lost. -/
def groupBroken (g : GroupRun) : GroupRun := { g with broken := true, reason := 3 }

/-- The kiln's table lists a broken group, whatever form it has. -/
theorem group_broken (s : State) (g : Nat) :
    tget {} (s.modGroup g groupBroken).kiln.groups g = groupBroken (tget {} s.kiln.groups g) := by
  have hlisted : groupBroken (tget {} s.kiln.groups g) ≠ {} := fun h => Bool.noConfusion (congrArg GroupRun.broken h)
  show tget {} (tset {} s.kiln.groups g (groupBroken (tget {} s.kiln.groups g))) g = _
  rw [tset, if_neg hlisted, tget_tinsert_self]

/-- The word is an entry of an active group table. -/
def activeGroupEntry (w : CfgWord) : Bool := w.set.isSome && !w.shadow && w.table == 1

/-- The state once a lost word has been reported, before its group breaks. -/
def lossReported (s : State) (w : CfgWord) (k : Copy) : State := ({ s with cfg := wordLost s.cfg w k } : State).wordEvent w 0x0E

section
variable {s : State} {w : CfgWord} {k : Copy}

/-- A word already lost, or one of copy A in a bank that rests on copy B, is counted alone. -/
theorem wordBad_known (h : w ∈ s.cfg.lost ∨ (w.bank ∈ s.cfg.oneCopy ∧ k = .a)) (o r : Bool) :
    s.wordBad w k o r = { s with cfg := wordCounted s.cfg k } := by
  rw [State.wordBad, modCfg_countUncorr]
  exact if_pos (by simpa using h)

theorem wordBad_rewritten {o : Bool} (hl : w ∉ s.cfg.lost) (hb : w.bank ∉ s.cfg.oneCopy) (ho : o = false)
    (hw : (w, k.other) ∉ s.cfg.badWords) (r : Bool) :
    s.wordBad w k o r = ({ s with cfg := wordRewritten s.cfg w k r } : State).wordEvent w 0x0D := by
  rw [State.wordBad, modCfg_countUncorr, if_neg (by simp [hl, hb]), if_neg (by simp [hb, ho, hw])]
  rfl

theorem wordBad_lost {o : Bool} (hl : w ∉ s.cfg.lost) (hb : ¬ (w.bank ∈ s.cfg.oneCopy ∧ k = .a))
    (hw : w.bank ∈ s.cfg.oneCopy ∨ o = true ∨ (w, k.other) ∈ s.cfg.badWords) (r : Bool) :
    s.wordBad w k o r =
      if activeGroupEntry w = true then (lossReported s w k).modGroup w.index groupBroken else lossReported s w k := by
  rw [State.wordBad, modCfg_countUncorr, if_neg (by simpa [hl] using hb), if_pos (by simpa [or_assoc] using hw)]
  rfl

theorem faultsOnly_lossReported : faultsOnly { s with cfg := wordLost s.cfg w k } (lossReported s w k) := faultsOnly_fault ..

/-- What a lost word leaves: its place in the list of lost words, its group broken where it was an active group entry. -/
theorem wordBad_lost_spec {o : Bool} (hl : w ∉ s.cfg.lost) (hb : ¬ (w.bank ∈ s.cfg.oneCopy ∧ k = .a))
    (hw : w.bank ∈ s.cfg.oneCopy ∨ o = true ∨ (w, k.other) ∈ s.cfg.badWords) (r : Bool) :
    (s.wordBad w k o r).cfg = wordLost s.cfg w k
    ∧ (activeGroupEntry w = true → tget {} (s.wordBad w k o r).kiln.groups w.index = groupBroken (tget {} s.kiln.groups w.index))
    ∧ s.wordBad w k o r = { s with
        cfg := (s.wordBad w k o r).cfg, kiln := (s.wordBad w k o r).kiln, faultLog := (s.wordBad w k o r).faultLog,
        ports := (s.wordBad w k o r).ports, smb := (s.wordBad w k o r).smb, trace := (s.wordBad w k o r).trace,
        counters := (s.wordBad w k o r).counters } := by
  rw [wordBad_lost hl hb hw r]
  have hrep := (faultsOnly_lossReported (s := s) (w := w) (k := k)).eq
  split
  · rw [hrep]
    exact ⟨rfl, fun _ => group_broken { s with cfg := wordLost s.cfg w k } w.index, rfl⟩
  · next h =>
    rw [hrep]
    exact ⟨rfl, fun he => absurd he h, rfl⟩

end

/-- Settles O38: an uncorrectable word by its three cases, a scrub's finding as that word or as one error of its copy. -/
theorem configWords : Obligations.ConfigWords := by
  unfold Obligations.ConfigWords
  refine ⟨fun w k o r fs s h => ⟨exec_configWordUncorrectable_inReset h w k o r, exec_scrubPeriodic_inReset h fs⟩,
    fun w k s h => ⟨fun hk o r => ?known, fun hl hb hw => ⟨?rewritten, ?again⟩, fun hl hb o r hw => ?lost⟩,
    fun s h => ⟨exec_scrubPeriodic h, fun f hf => ?bad, fun f hf => ?corrected⟩⟩
  case known => rw [exec_configWordUncorrectable h, wordBad_known hk o r, wordCounted]
  case rewritten => exact ⟨_, (exec_configWordUncorrectable h ..).trans (congrArg _ (wordBad_rewritten hl hb rfl hw false)), faultsOnly_fault ..⟩
  case again =>
    refine ⟨_, (exec_configWordUncorrectable h ..).trans (congrArg _ (wordBad_rewritten hl hb rfl hw true)), ?_⟩
    have hone : (if k = .a then addOnce s.cfg.oneCopy w.bank else s.cfg.oneCopy)
        = if (true && k == .a) = true then addOnce s.cfg.oneCopy w.bank else s.cfg.oneCopy := by cases k <;> rfl
    rw [hone]
    exact faultsOnly_fault ..
  case lost =>
    obtain ⟨hcfg, hgroup, hframe⟩ := wordBad_lost_spec hl hb hw r
    refine ⟨_, exec_configWordUncorrectable h w k o r, ?_, ?_, ?_, ?_, fun hset hact ht => ?_, hframe⟩
    · rw [hcfg]; exact mem_addOnce ..
    · rw [hcfg]; rfl
    · rw [hcfg]; rfl
    · rw [hcfg]; rfl
    · rw [hgroup (by simp [activeGroupEntry, hset, hact, ht])]
      exact ⟨rfl, rfl⟩
  case bad =>
    rw [exec_scrubPeriodic h, exec_configWordUncorrectable h, ← scrubOne_uncorrectable hf]
    rfl
  case corrected =>
    rw [exec_scrubPeriodic h, List.foldl_cons, List.foldl_nil, scrubOne_corrected hf, State.modCfg, countCorr_eq]

end Sys2Proof.Proofs

/-! ### O39: uncorrectable words of the other memories -/

namespace Sys2Proof.Proofs
open Sys2Proof.Machine

/-! Where the error is counted leaves the rest of the state alone. -/

section
variable (s : State)

theorem countUncorrected_frame (m : MemUnit) : s.countUncorrected m = { s with
    nodes := (s.countUncorrected m).nodes, ctls := (s.countUncorrected m).ctls, leaves := (s.countUncorrected m).leaves } := by
  unfold State.countUncorrected
  split
  · rw [modStat_frame]
  · rfl

theorem straps_countUncorrected (m : MemUnit) : (s.countUncorrected m).straps = s.straps := by rw [countUncorrected_frame]

theorem links_countUncorrected (m : MemUnit) : (s.countUncorrected m).links = s.links := by rw [countUncorrected_frame]

theorem hasMem_countUncorrected (m x : MemUnit) : (s.countUncorrected m).hasMem x = s.hasMem x := by
  have hn : (s.countUncorrected m).n = s.n := by rw [State.n, straps_countUncorrected, State.n]
  unfold State.hasMem
  split
  · rw [State.nodeBuilt, State.nodeBuilt, hn]
  · rw [State.leafExists, State.leafExists, hn]

theorem link_countUncorrected (m : MemUnit) (key : Nat) : (s.countUncorrected m).link key = s.link key := by
  simp only [State.link, links_countUncorrected]

end

section
variable {s : State} {m : MemUnit}

theorem counted_at_node {ix : Nat} (h : m.countedAt = .node ix) :
    s.countCorrected m = s.modStat ix (fun n => { n with sramCorr := satInc n.sramCorr })
    ∧ s.countUncorrected m = s.modStat ix (fun n => { n with sramUncorr := satInc n.sramUncorr }) := by
  rw [State.countCorrected, State.countUncorrected, h]
  exact ⟨rfl, rfl⟩

theorem counted_at_leaf {l : Nat} (h : m.countedAt = .leaf l) :
    s.countCorrected m = s.setLeaf l { s.leaf l with sramCorr := satInc (s.leaf l).sramCorr }
    ∧ s.countUncorrected m = s.setLeaf l { s.leaf l with sramUncorr := satInc (s.leaf l).sramUncorr } := by
  rw [State.countCorrected, State.countUncorrected, h]
  exact ⟨rfl, rfl⟩

theorem exec_memoryUncorrectable_none (h : s.awake = false ∨ s.hasMem m = false) (b : Bool) :
    exec (.memoryUncorrectable ⟨m, b⟩) s = .next s := if_pos (by simpa using h)

theorem exec_memoryUncorrectable_corrected (ha : s.awake = true) (hm : s.hasMem m = true) :
    exec (.memoryUncorrectable ⟨m, true⟩) s = .next (s.countCorrected m) := if_neg (by simp [ha, hm])

theorem exec_memoryUncorrectable (ha : s.awake = true) (hm : s.hasMem m = true) :
    exec (.memoryUncorrectable ⟨m, false⟩) s = (s.countUncorrected m).memoryBad m := if_neg (by simp [ha, hm])

end

/-! What each memory loses, once the error is counted. -/

section
variable {u : State}

theorem memoryBad_twin_out {node : Nat} (w : Twin) (h : (u.stat node).pairOut = true) : u.memoryBad (.twin node w) = .next u :=
  if_pos (by simp [h])

theorem memoryBad_twin {node : Nat} (w : Twin) (hb : u.hasMem (.twin node w) = true) (h : (u.stat node).pairOut = false) :
    u.memoryBad (.twin node w) = .next (State.noteKilnCtl ((u.modStat node (fun n => n.residue w)).twinFault node w)) :=
  if_neg (by simp [show u.nodeBuilt (qOf node) = true from hb, h])

theorem memoryBad_retry_bridge {key : Nat} (n : BitVec 16) (h : isBridge key = true) :
    u.memoryBad (.retry key n) = .next (u.setLink key ((u.link key).dropRetry n)) := if_pos h

theorem memoryBad_retry_other {key : Nat} (n : BitVec 16) (h : isBridge key = false) : u.memoryBad (.retry key n) = .next u :=
  if_neg (by simp [h])

theorem memoryBad_setter_none {x : Nat} (h : u.setterHolder x = none) : u.memoryBad (.setter x) = .next u := by
  simp only [State.memoryBad, h]

theorem memoryBad_setter {x : Nat} {f : Firing} (h : u.setterHolder x = some f) :
    ∃ v, u.memoryBad (.setter x) = .next (State.stateLost v f) ∧ faultsOnly u v :=
  ⟨_, by simp only [State.memoryBad, h]; rfl, faultsOnly_fault ..⟩

theorem memoryBad_kacc_none {k : Nat} (h : 256 ≤ k) : u.memoryBad (.kacc k) = .next u := if_neg (Nat.not_lt.mpr h)

theorem memoryBad_kacc {k : Nat} (h : k < 256) : u.memoryBad (.kacc k) = .next (u.kaccDamaged k) := if_pos h

theorem kaccDamaged_free {k : Nat} (h : u.kaccHolder k = none) :
    faultsOnly (u.modKacc k (fun a => { a with damaged := true })) (u.kaccDamaged k) := by
  simp only [State.kaccDamaged, h]
  exact faultsOnly_fault ..

theorem kaccDamaged_held {k : Nat} {f : Firing} (h : u.kaccHolder k = some f) :
    ∃ v, u.kaccDamaged k = State.stateLost v f ∧ faultsOnly u v :=
  ⟨_, by simp only [State.kaccDamaged, h]; rfl, faultsOnly_fault ..⟩

theorem memoryBad_bisque_none {l i : Nat} (h : 4 ≤ i) : u.memoryBad (.bisque l i) = .next u := if_pos (by simp [h])

theorem memoryBad_bisque {l i : Nat} (hb : u.hasMem (.bisque l i) = true) (h : i < 4) :
    ∃ v, u.memoryBad (.bisque l i) = .next v ∧ faultsOnly (u.setLeaf l { u.leaf l with
      bisque := tmod {} (u.leaf l).bisque i (fun b => { b with st := .neverWritten, val := {}, damaged := true }) }) v :=
  ⟨_, if_neg (by simp [show u.leafExists l = true from hb, h]), faultsOnly_fault ..⟩

theorem memoryBad_digest_closed {i : Nat}
    (h : ∀ a, u.kiln.digests.find? (fun e => e.1 == i) = some (i, a) → a.isOpen = false) : u.memoryBad (.digest i) = .next u := by
  unfold State.memoryBad
  dsimp only
  split
  · next j a hf =>
    have hj : j = i := by simpa using List.find?_some hf
    exact if_neg (by rw [h a (hj ▸ hf)]; exact Bool.noConfusion)
  · rfl

theorem memoryBad_digest {i : Nat} {a : DigestAcc} (hf : u.kiln.digests.find? (fun e => e.1 == i) = some (i, a)) (ho : a.isOpen = true) :
    ∃ v, u.memoryBad (.digest i) = .next v ∧ faultsOnly { u with kiln := { u.kiln with
      digests := tmod {} u.kiln.digests i (fun a => { a with sum := 0, fails := 0xFFFF, sat := true }) } } v := by
  simp only [State.memoryBad, hf, ho, if_true]
  exact ⟨_, rfl, faultsOnly_fault ..⟩

theorem memoryBad_leafStaging {l slot c : Nat} {area : Area} (hb : u.hasMem (.leafStaging l slot area c) = true) :
    u.memoryBad (.leafStaging l slot area c) = .next (u.setLeaf l ((u.leaf l).chunkDamaged slot area c)) :=
  if_neg (by simp [show u.leafExists l = true from hb])

theorem memoryBad_leafState_failed {l : Nat} (h : (u.leaf l).failed = true) : u.memoryBad (.leafState l) = .next u :=
  if_pos (by simp [h])

theorem memoryBad_leafState {l : Nat} (hb : u.hasMem (.leafState l) = true) (h : (u.leaf l).failed = false) :
    u.memoryBad (.leafState l) = .next (u.setLeaf l ((u.leaf l).fail.endAll u.time)) :=
  if_neg (by simp [show u.leafExists l = true from hb, h])

end

/-! A staged chunk of a leaf port (R282). -/

/-- The slot holds the chunk with its data. -/
def holdsChunk (t : Taken) (area : Area) (c : Nat) : Bool := t.chunks.any (fun y => y.ix == c && y.area == area && y.data.isSome)

section
variable {p : LeafPort} {slot c : Nat} {area : Area}

theorem chunkDamaged_unheld (h : ∀ t, p.inSlot slot = some t → holdsChunk t area c = false) : p.chunkDamaged slot area c = p := by
  unfold LeafPort.chunkDamaged
  split
  · rfl
  · next t ht => exact if_neg (by rw [show t.chunks.any _ = _ from h t ht]; exact Bool.noConfusion)

theorem chunkDamaged_held {t : Taken} (ht : p.inSlot slot = some t) (h : holdsChunk t area c = true) :
    ∃ f x addr, p.chunkDamaged slot area c = (p.chunkFault x clReadData addr c).modTaken x.cnt f :=
  ⟨_, _, _, by simp only [LeafPort.chunkDamaged, ht]; exact if_pos h⟩

/-- A damaged chunk is a matter of the descriptor's record and the port's fault log. -/
theorem chunkDamaged_frame : (p.chunkDamaged slot area c).scratch = p.scratch ∧ (p.chunkDamaged slot area c).bisque = p.bisque := by
  by_cases h : ∃ t, p.inSlot slot = some t ∧ holdsChunk t area c = true
  · obtain ⟨t, ht, hc⟩ := h
    obtain ⟨f, x, addr, he⟩ := chunkDamaged_held ht hc
    rw [he]
    exact ⟨rfl, rfl⟩
  · rw [chunkDamaged_unheld fun t ht => by simpa using fun hc => h ⟨t, ht, hc⟩]
    exact ⟨rfl, rfl⟩

end

/-- Settles O39: the place of the count first, then each memory by what `memoryBad` does with it. -/
theorem memoryFaults : Obligations.MemoryFaults := by
  unfold Obligations.MemoryFaults
  refine ⟨fun m b s h => exec_memoryUncorrectable_none h b,
    fun m s ha hm => ⟨exec_memoryUncorrectable_corrected ha hm, fun ix => counted_at_node, fun l => counted_at_leaf⟩,
    fun m u s ha hm hu => ?_⟩
  subst hu
  have hm' := (hasMem_countUncorrected s m m).trans hm
  rw [exec_memoryUncorrectable ha hm]
  refine ⟨fun node w e => ?twin, fun key n e => ?retry, fun x e => ?setter, fun k e => ?kacc, fun l i e => ?bisque, fun i e => ?digest,
    fun l slot area c e => ?staging, fun l e => ?leaf⟩
  all_goals subst e
  case twin => exact ⟨memoryBad_twin_out w, memoryBad_twin w hm'⟩
  case retry => exact ⟨fun h => (memoryBad_retry_bridge n h).trans (by rw [link_countUncorrected]), memoryBad_retry_other n⟩
  case setter => exact ⟨memoryBad_setter_none, fun f h => memoryBad_setter h⟩
  case kacc =>
    refine ⟨memoryBad_kacc_none, fun hk h => ⟨_, memoryBad_kacc hk, kaccDamaged_free h⟩, fun f hk h => ?_⟩
    rw [memoryBad_kacc hk]
    obtain ⟨v, hv, hf⟩ := kaccDamaged_held h
    exact ⟨v, congrArg _ hv, hf⟩
  case bisque => exact ⟨memoryBad_bisque_none, memoryBad_bisque hm'⟩
  case digest => exact ⟨memoryBad_digest_closed, fun a => memoryBad_digest⟩
  case staging =>
    refine ⟨_, memoryBad_leafStaging hm', chunkDamaged_frame.1, chunkDamaged_frame.2, fun x hx hy => ?_, fun h => chunkDamaged_unheld fun t ht => ?_⟩
    · obtain ⟨f, x, addr, he⟩ := chunkDamaged_held hx (show holdsChunk x area c = true by
        simpa [holdsChunk, Option.isSome_iff_ne_none, and_assoc] using hy)
      rw [he]
      rfl
    · simpa [holdsChunk] using h t ht
  case leaf => exact ⟨memoryBad_leafState_failed, fun h => ⟨_, memoryBad_leafState hm' h, by simp [LeafPort.endAll, LeafPort.fail, h, LeafPort.raise]⟩⟩

end Sys2Proof.Proofs

/-! ### O44: the wake sequencer -/

namespace Sys2Proof.Proofs
open Sys2Proof.Machine

theorem exec_wakeSlot (d : Nat) (s : State) : exec (.wakeSlot d) s = execWakeSlot d s := rfl

/-! What ramps that start may change (R498, R500). -/

/-- From `x` to `y` segments have only left their states for a ramp: a queued wake, or a park of the list. The lists only shrink. -/
structure rampsStarted (x y : Die) : Prop where
  waking  : ∀ i, y.seg i = .waking → x.seg i = .waking ∨ i ∈ x.wakeQ
  parking : ∀ i, y.seg i = .parking → x.seg i = .parking ∨ i ∈ x.parkQ
  awake   : ∀ i, y.seg i = .awake → x.seg i = .awake
  wakeQ   : y.wakeQ ⊆ x.wakeQ
  parkQ   : y.parkQ ⊆ x.parkQ
  rCap    : y.rCap = x.rCap
  slot    : y.wakeSlot = x.wakeSlot

theorem rampsStarted.refl (x : Die) : rampsStarted x x :=
  ⟨fun _ => .inl, fun _ => .inl, fun _ => id, fun _ => id, fun _ => id, rfl, rfl⟩

theorem rampsStarted.trans {x y z : Die} (h : rampsStarted x y) (k : rampsStarted y z) : rampsStarted x z where
  waking i hi := (k.waking i hi).elim (h.waking i) (fun hq => .inr (h.wakeQ hq))
  parking i hi := (k.parking i hi).elim (h.parking i) (fun hq => .inr (h.parkQ hq))
  awake i hi := h.awake i (k.awake i hi)
  wakeQ := fun _ hi => h.wakeQ (k.wakeQ hi)
  parkQ := fun _ hi => h.parkQ (k.parkQ hi)
  rCap := k.rCap.trans h.rCap
  slot := k.slot.trans h.slot

theorem seg_setSeg (x : Die) {st : SegState} (h : st ≠ .parked) (i j : Nat) : (x.setSeg i st).seg j = if j = i then st else x.seg j := by
  split
  · next e => rw [e, Die.seg, Die.setSeg, tset, if_neg h, tget_tinsert_self]
  · next e => exact tget_tset_ne _ _ _ e

section
variable {x y : Die} {i : Nat}

/-- A segment in a state that the ramp does not give stood in it before. -/
theorem seg_of_setSeg {st st' : SegState} {j : Nat} (hp : st ≠ .parked) (hne : st ≠ st') (hj : (y.setSeg i st).seg j = st') :
    y.seg j = st' := by
  rw [seg_setSeg y hp] at hj
  split at hj
  · exact absurd hj hne
  · exact hj

/-- A segment in the state that the ramp gives is the ramp's own or stood in it before. -/
theorem seg_of_setSeg_self {st : SegState} {j : Nat} (hp : st ≠ .parked) (hj : (y.setSeg i st).seg j = st) : y.seg j = st ∨ j = i := by
  rw [seg_setSeg y hp] at hj
  split at hj
  · next e => exact .inr e
  · exact .inl hj

theorem rampsStarted.wake (h : rampsStarted x y) (hi : i ∈ x.wakeQ) :
    rampsStarted x { y.setSeg i .waking with wakeQ := y.wakeQ.filter (· != i) } where
  waking j hj := (seg_of_setSeg_self (by decide) hj).elim (h.waking j) (fun e => .inr (e ▸ hi))
  parking j hj := h.parking j (seg_of_setSeg (st := .waking) (by decide) (by decide) hj)
  awake j hj := h.awake j (seg_of_setSeg (st := .waking) (by decide) (by decide) hj)
  wakeQ _ hj := h.wakeQ (List.mem_filter.mp hj).1
  parkQ := h.parkQ
  rCap := h.rCap
  slot := h.slot

theorem rampsStarted.park (h : rampsStarted x y) (hi : i ∈ x.parkQ) :
    rampsStarted x { y.setSeg i .parking with parkQ := y.parkQ.filter (· != i) } where
  waking j hj := h.waking j (seg_of_setSeg (st := .parking) (by decide) (by decide) hj)
  parking j hj := (seg_of_setSeg_self (by decide) hj).elim (h.parking j) (fun e => .inr (e ▸ hi))
  awake j hj := h.awake j (seg_of_setSeg (st := .parking) (by decide) (by decide) hj)
  wakeQ := h.wakeQ
  parkQ _ hj := h.parkQ (List.mem_filter.mp hj).1
  rCap := h.rCap
  slot := h.slot

theorem rampsStarted_startWakes {is : List Nat} (h : is ⊆ x.wakeQ) : rampsStarted x (x.startWakes is) :=
  List.foldlRecOn is _ (motive := rampsStarted x) (.refl x) fun _ hy _ hi => hy.wake (h hi)

theorem rampsStarted_startParks {is : List Nat} (h : is ⊆ x.parkQ) : rampsStarted x (x.startParks is) :=
  List.foldlRecOn is _ (motive := rampsStarted x) (.refl x) fun _ hy _ hi => hy.park (h hi)

/-- The first members of a list that have a property. -/
theorem take_filter_subset (xs : List Nat) (p : Nat → Bool) (n : Nat) : (xs.filter p).take n ⊆ xs :=
  fun _ hi => (List.mem_filter.mp (List.mem_of_mem_take hi)).1

theorem rampsStarted_island (lowering : Bool) (x : Die) (k : Nat) : rampsStarted x (Die.island lowering x k) := by
  unfold Die.island
  dsimp only
  split
  · exact rampsStarted_startWakes (take_filter_subset ..)
  · split
    · exact .refl x
    · exact rampsStarted_startParks (take_filter_subset ..)

end

/-! The rows. -/

section
variable {d : Nat} {s : State}

/-- The die slice once what is no longer due has left its park list (R501). -/
def parksPruned (s : State) (d : Nat) : Die := { s.die d with parkQ := (s.die d).parkQ.filter (s.parkable d) }

/-- The die slice that a slot of the wake sequencer leaves. -/
def wakesServed (s : State) (d : Nat) : Die :=
  (List.range 20).foldl (Die.island (s.loweringNow (parksPruned s d))) { parksPruned s d with wakeSlot := some s.time }

theorem rampsStarted_wakesServed (s : State) (d : Nat) :
    rampsStarted { parksPruned s d with wakeSlot := some s.time } (wakesServed s d) :=
  List.foldlRecOn _ _ (motive := rampsStarted { parksPruned s d with wakeSlot := some s.time }) (.refl _)
    fun y hy k _ => hy.trans (rampsStarted_island _ y k)

theorem execWakeSlot_serves (hs : canonical s) (hl : s.dieLive d = true) (ht : s.atSlot (s.die d).wakeSlot = true) :
    execWakeSlot d s = .next (State.offer (s.setDie d (wakesServed s d))) := by
  have hgo : ¬ (!s.dieLive d || !s.atSlot (s.die d).wakeSlot) = true := by simp [hl, ht]
  rw [execWakeSlot, if_neg hgo]
  simp only [State.pruneParks, modDie_eq, setDie_setDie hs.dies, die_setDie hs.dies]
  rfl

theorem execWakeSlot_idle (h : s.dieLive d = false ∨ s.atSlot (s.die d).wakeSlot = false) : execWakeSlot d s = .next s :=
  if_pos (by simpa using h)

end

/-- Settles O44: a slot by what each island may start, the ends of ramps and the park list by their conditions. -/
theorem wakeSequencer : Obligations.WakeSequencer := by
  unfold Obligations.WakeSequencer
  refine fun d s => ⟨fun hs hl ht => ?slot, fun h => (exec_wakeSlot d s).trans (execWakeSlot_idle h),
    fun i => ⟨fun h => if_pos (by simp [h]), fun h => if_neg (by simpa using h), fun h => if_pos (by simp [h]), fun h => if_neg (by simpa using h)⟩,
    fun i => ⟨fun hl hq hp => if_neg (by simp [hl, hq, hp]), fun h => if_pos (by simpa [or_assoc] using h)⟩⟩
  have hr := rampsStarted_wakesServed s d
  refine ⟨wakesServed s d, (exec_wakeSlot d s).trans (execWakeSlot_serves hs hl ht), hr.waking, fun i hi => (hr.parking i hi).imp_right fun hq => ?_,
    hr.awake, hr.rCap, hr.slot⟩
  exact List.mem_filter.mp hq

end Sys2Proof.Proofs

/-! ### O45: commits and destructions at an admission boundary -/

namespace Sys2Proof.Proofs
open Sys2Proof.Machine

theorem exec_commitSwap (s : State) : exec .commitSwap s = execCommitSwap s := rfl
theorem exec_saggarDestroyEffect (k : Nat) (s : State) : exec (.saggarDestroyEffect k) s = execSaggarDestroyEffect k s := rfl

/-! Groups that start again touch what the kiln and its nodes hold only (R484). -/

section
variable (s : State)

theorem kilnOnly_position {g ord uid : Nat} {t : State} (h : s.position g ord = some (t, uid)) : kilnOnly s t := by
  unfold State.position at h
  split at h
  · cases h
    exact .refl s
  · split at h
    · cases h
    · cases h
      exact ⟨rfl⟩

theorem kilnOnly_abortGroup (g : Nat) : kilnOnly s (s.abortGroup g) := by
  unfold State.abortGroup
  refine .trans (foldl_rel (R := kilnOnly) .refl .trans (fun a o => ?_) _ s)
    (foldl_rel (R := kilnOnly) .refl .trans (fun a uid => kilnOnly_decideEnd a uid ..) _ _)
  split
  · next h => exact kilnOnly_position a h
  · exact .refl a

theorem kilnOnly_modKiln (f : Kiln → Kiln) : kilnOnly s (s.modKiln f) := ⟨rfl⟩
theorem kilnOnly_modGroup (g : Nat) (f : GroupRun → GroupRun) : kilnOnly s (s.modGroup g f) := ⟨rfl⟩
theorem kilnOnly_setCtls (c : Table CtlNode) : kilnOnly s { s with ctls := c } := ⟨rfl⟩

theorem kilnOnly_restartGroup (g : Nat) (recreated : Bool) : kilnOnly s (s.restartGroup g recreated) := by
  unfold State.restartGroup
  extract_lets t u v w
  have hu : kilnOnly s u := .trans (kilnOnly_abortGroup s g) (kilnOnly_modKiln t _)
  have hw : kilnOnly s w := .trans (.trans hu (kilnOnly_setCtls u _)) (kilnOnly_modGroup v g _)
  exact .trans hw (kilnOnly_modKiln w _)

theorem kilnOnly_foldl {α : Type} {f : State → α → State} (h : ∀ a x, kilnOnly a (f a x)) (xs : List α) : kilnOnly s (xs.foldl f s) :=
  foldl_rel .refl .trans h xs s

theorem kilnOnly_applyChange (g : Nat) (c : GroupChange) : kilnOnly s (s.applyChange g c) := by
  cases c with
  | none => exact .refl s
  | created => exact kilnOnly_modGroup ..
  | deleted => exact kilnOnly_restartGroup s g false
  | recreated => exact kilnOnly_restartGroup s g true

theorem kilnOnly_breakGroup (k g : Nat) (rs : List Nat) : kilnOnly s (s.breakGroup k g rs) := by
  unfold State.breakGroup
  split
  · exact .refl s
  · exact kilnOnly_modGroup ..

theorem kilnOnly_newOwners (old : Config) : kilnOnly s (s.newOwners old) :=
  foldl_rel (R := kilnOnly) .refl .trans (fun a g => kilnOnly_modGroup a g _) _ s

theorem kilnOnly_invalidate (hit : Nat → Bool) : kilnOnly s (s.invalidate hit) := ⟨rfl⟩

end

theorem cfg_of_kilnOnly {s t : State} (h : kilnOnly s t) : t.cfg = s.cfg := by rw [h.eq]

/-! The swap of a saggar's set. -/

section
variable {s : State} {k : Nat}

/-- The configuration once a saggar's shadow set is active: words lost or damaged in its sets are rewritten (R413). -/
def saggarSwapped (c : Config) (k : Nat) : Config :=
  { c.modSag k Saggar.swapped with
    lost := c.lost.filter (fun w => w.set != some k), badWords := c.badWords.filter (fun w => w.1.set != some k) }

theorem swapSaggar_cfg (s : State) (k : Nat) : (s.swapSaggar k).cfg = saggarSwapped s.cfg k := by
  unfold State.swapSaggar
  extract_lets x gs changed t u
  have ht : t.cfg = s.cfg := cfg_of_kilnOnly (foldl_rel (R := kilnOnly) .refl .trans (fun a g => kilnOnly_applyChange a g _) gs s)
  rw [cfg_of_kilnOnly (kilnOnly_invalidate u _), ← ht]
  rfl

theorem sag_swapSaggar (hs : tableWf {} s.cfg.saggars = true) : (s.swapSaggar k).cfg.sag k = (s.cfg.sag k).swapped := by
  rw [swapSaggar_cfg]
  exact tget_tset_self hs ..

theorem sag_swapSaggar_ne {j : Nat} (h : j ≠ k) : (s.swapSaggar k).cfg.sag j = s.cfg.sag j := by
  rw [swapSaggar_cfg]
  exact tget_tset_ne _ _ _ h

end
/-! The swap of the global set. -/

section
variable (s : State)

theorem cfg_of_slicesOnly {P : Nat → Prop} {s t : State} (h : slicesOnly P s t) : t.cfg = s.cfg := by rw [h.eq]

theorem cfg_takeRanks : s.takeRanks.cfg = s.cfg := by
  have h : slicesOnly (fun _ => True) s s.takeRanks :=
    slicesOnly_onLeaves (List.range (256 * s.n)) (fun l p => p.takeRank (BitVec.ofNat 16 (s.cfg.rankOf l))) s fun _ _ => trivial
  rw [h.eq]

theorem swapGlobal_cfg (c : Config) (n : Nat) : (c.swapGlobal n).active = c.shadow ∧ (c.swapGlobal n).activeGen = c.shadowGen + 1
    ∧ (c.swapGlobal n).shadowGen = c.shadowGen + 1 ∧ (c.swapGlobal n).swaps = c.swaps ∧ (c.swapGlobal n).saggars = c.saggars :=
  ⟨rfl, rfl, rfl, rfl, rfl⟩

theorem cfg_notePace : s.notePace.cfg = s.cfg := rfl

theorem cfg_rekey_notePace (cause : Nat) : (s.rekey cause).notePace.cfg =
    { s.cfg with reproKey := crc64 (reproImage s), exactKey := crc64 exactImage } := by
  rw [cfg_notePace, cfg_of_kilnOnly (recordsOnly_rekey s cause).kilnOnly]

/-- The global shadow set becomes active under its generation plus 1, whatever else follows from the swap. -/
theorem swapGlobalSet_cfg : s.swapGlobalSet.cfg.active = s.cfg.shadow ∧ s.swapGlobalSet.cfg.activeGen = s.cfg.shadowGen + 1
    ∧ s.swapGlobalSet.cfg.shadowGen = s.cfg.shadowGen + 1 ∧ s.swapGlobalSet.cfg.swaps = s.cfg.swaps
    ∧ s.swapGlobalSet.cfg.saggars = s.cfg.saggars := by
  unfold State.swapGlobalSet
  extract_lets c' moved t clear u v w
  have hts : kilnOnly s t := by
    apply kilnOnly_foldl
    intro a e
    exact kilnOnly_restartGroup a e.2.1 true
  have ht := cfg_of_kilnOnly hts
  have hu : u.cfg = { s.cfg.swapGlobal s.n with depInit := t.cfg.depInit.filter (fun b => !clear b.1) } := by
    rw [← ht]
    exact (cfg_of_slicesOnly (slicesOnly_rebaseChanged _ _)).trans (cfg_takeRanks _)
  have huv : kilnOnly u v := kilnOnly_foldl (f := fun a e => a.breakGroup e.1 e.2.1 (memberRanks (s.cfg.sag e.1).active e.2.2)) u
    (fun a e => kilnOnly_breakGroup a ..) moved
  have hvw : kilnOnly v w := kilnOnly_ite (kilnOnly_invalidate v _) (.refl v)
  rw [cfg_rekey_notePace, cfg_of_kilnOnly (kilnOnly_newOwners w s.cfg), cfg_of_kilnOnly hvw, cfg_of_kilnOnly huv, hu]
  exact swapGlobal_cfg s.cfg s.n

end

/-! The rows. -/

theorem cfg_finishLate (s : State) (p code : Nat) (tag : BitVec 16) (err : Nat) (data : List Byte) (effect : Bool) :
    (s.finishLate p code tag err data effect).cfg = s.cfg := setPort_cfg ..

section
variable {s : State} {set : Option Nat} {p : Nat} {tag : BitVec 16} {rest : List (Option Nat × Nat × BitVec 16)}

/-- The state once the kiln has taken the first commit. -/
def commitTaken (s : State) (rest : List (Option Nat × Nat × BitVec 16)) : State := { s with cfg := { s.cfg with swaps := rest } }

/-- The set that a commit names is there. -/
def setStands (s : State) (set : Option Nat) : Prop := ∀ k, set = some k → (s.cfg.sag k).inUse = true

theorem execCommitSwap_idle (h : s.cfg.swaps = []) : execCommitSwap s = .next s := by
  unfold execCommitSwap
  rw [h]

/-- The answer of a commit that took effect. -/
def commitAnswered (t before : State) (set : Option Nat) (p : Nat) (tag : BitVec 16) : State :=
  t.finishLate p 0x0113 tag erOk (t.commitData before set) true

theorem not_gone_of_stands (hu : setStands s set) : ¬ set.any (fun k => !((commitTaken s rest).cfg.sag k).inUse) = true := by
  cases set with
  | none => exact Bool.noConfusion
  | some k => simpa [commitTaken, Config.sag] using hu k rfl

variable (h : s.cfg.swaps = (set, p, tag) :: rest)
include h

theorem execCommitSwap_gone {k : Nat} (hk : set = some k) (hu : (s.cfg.sag k).inUse = false) :
    execCommitSwap s = .next ((commitTaken s rest).finishLate p 0x0113 tag erNotFound [] false).nextRequest := by
  subst hk
  unfold execCommitSwap
  rw [h]
  exact if_pos (by simpa [State.modCfg, Config.sag] using hu)

theorem execCommitSwap_refused (hu : setStands s set) {e : Nat × Nat × Nat} (hb : (commitTaken s rest).badCommit set = some e) :
    execCommitSwap s = .next
      (((commitTaken s rest).finishLate p 0x0113 tag e.1 (badCommitData e.2.1 e.2.2) false).endCommit p tag 1).nextRequest := by
  have hstands := not_gone_of_stands (rest := rest) hu
  rw [commitTaken] at hb hstands ⊢
  simp only [execCommitSwap, h, State.modCfg, if_neg hstands, hb]

theorem execCommitSwap_global (hs : set = none) (hb : (commitTaken s rest).badCommit set = none) :
    execCommitSwap s = .next (State.offer ((commitAnswered (commitTaken s rest).swapGlobalSet (commitTaken s rest) set p tag).endCommit p tag 0)).nextRequest := by
  subst hs
  rw [commitTaken] at hb ⊢
  simp only [execCommitSwap, h, State.modCfg, hb]
  rfl

theorem execCommitSwap_saggar {k : Nat} (hs : set = some k) (hu : setStands s set) (hb : (commitTaken s rest).badCommit set = none) :
    execCommitSwap s = .next (State.offer (commitAnswered ((commitTaken s rest).swapSaggar k) (commitTaken s rest) set p tag)).nextRequest := by
  have hstands := not_gone_of_stands (rest := rest) hu
  subst hs
  rw [commitTaken] at hb hstands ⊢
  simp only [execCommitSwap, h, State.modCfg, if_neg hstands, hb]
  rfl

end

section
variable {k : Nat} {s : State}

theorem execSaggarDestroyEffect_idle (h : (s.cfg.sag k).dying = none) : execSaggarDestroyEffect k s = .next s := by
  unfold execSaggarDestroyEffect
  dsimp only
  rw [h]

/-- The groups that a saggar's active set holds. -/
def heldGroups (s : State) (k : Nat) : List Nat := ((s.cfg.sag k).active.groups.filter (fun e => gValid e.2)).map (·.1)

/-- The state once the groups of a dying saggar have started again. -/
def groupsGone (s : State) (k : Nat) : State := (heldGroups s k).foldl (fun a g => a.restartGroup g false) s

/-- The configuration once a saggar is gone (R473). -/
def saggarGone (c : Config) (k : Nat) : Config := { c.modSag k (fun y => { created := y.created }) with
  active := c.active.without k, shadow := c.shadow.without k, lost := c.lost.filter (fun w => w.set != some k),
  badWords := c.badWords.filter (fun w => w.1.set != some k) }

/-- The state once the kiln has let go of a saggar, before its owners and caches are told. -/
def saggarFreed (s : State) (k : Nat) : State :=
  ((groupsGone s k).modKiln (fun x => x.releaseAccs k)).modCfg (fun c => saggarGone c k)

/-- The state once the saggar's destruction has taken effect. -/
def saggarDestroyed (s : State) (k p : Nat) (tag : BitVec 16) : State :=
  (((saggarFreed s k).newOwners s.cfg).invalidate (heldGroups s k).contains).modPort p (fun y => y.effect tag)

theorem execSaggarDestroyEffect_takes {p : Nat} {tag : BitVec 16} (h : (s.cfg.sag k).dying = some (p, tag)) :
    execSaggarDestroyEffect k s = .next (State.offer (saggarDestroyed s k p tag)) := by
  unfold execSaggarDestroyEffect
  dsimp only
  rw [h]
  rfl

theorem cfg_saggarDestroyed (s : State) (k p : Nat) (tag : BitVec 16) : (saggarDestroyed s k p tag).cfg = saggarGone s.cfg k := by
  have hgone : kilnOnly s (groupsGone s k) := kilnOnly_foldl s (fun a g => kilnOnly_restartGroup a g false) _
  have hfreed : (saggarFreed s k).cfg = saggarGone s.cfg k := by rw [← cfg_of_kilnOnly hgone]; rfl
  have howned := kilnOnly_newOwners (saggarFreed s k) s.cfg
  rw [saggarDestroyed, modPort_eq, setPort_cfg, cfg_of_kilnOnly (kilnOnly_invalidate _ _), cfg_of_kilnOnly howned, hfreed]

theorem canonical_saggarFreed (hs : canonical s) : canonical (saggarFreed s k) := by
  have hgone : canonical (groupsGone s k) := hs.foldl (fun _ g ha => ha.restartGroup g false) _
  exact canonical.modCfg (hgone.withKiln (by rfl) (by rfl)) _ (saggars_modSag hgone.saggars k fun y => { created := y.created })

theorem lastEffect_saggarDestroyed (hs : canonical s) (p : Nat) (tag : BitVec 16) :
    ((saggarDestroyed s k p tag).port p).lastEffect = some tag := by
  have howned := ((canonical_saggarFreed (k := k) hs).newOwners s.cfg).invalidate (heldGroups s k).contains
  rw [saggarDestroyed, modPort_eq, port_setPort howned.ports]
  rfl

end

/-- Settles O45: the commit by its four outcomes, of which each swap is known by the configuration it leaves; the destruction by
the configuration without the saggar. -/
theorem commitBoundary : Obligations.CommitBoundary := by
  unfold Obligations.CommitBoundary
  refine ⟨fun s h => (exec_commitSwap s).trans (execCommitSwap_idle h), fun set p tag rest v s h hv => ?commit,
    fun k s => ⟨fun h => (exec_saggarDestroyEffect k s).trans (execSaggarDestroyEffect_idle h), fun p tag h hs => ?destroy⟩⟩
  case commit =>
    replace hv : v = commitTaken s rest := hv
    subst hv
    rw [exec_commitSwap]
    refine ⟨fun ⟨k, hk, hu⟩ => execCommitSwap_gone h hk hu, fun hu => ⟨fun e he => execCommitSwap_refused h hu he,
      fun hb => ⟨fun hset => ⟨_, execCommitSwap_global h hset hb, ?global⟩, fun k hk hs => ⟨_, execCommitSwap_saggar h hk hu hb, ?saggar⟩⟩⟩⟩
    case global =>
      rw [commitAnswered, cfg_finishLate]
      exact swapGlobalSet_cfg (commitTaken s rest)
    case saggar =>
      have hwf : tableWf {} (commitTaken s rest).cfg.saggars = true := hs.saggars
      rw [commitAnswered, cfg_finishLate, sag_swapSaggar hwf]
      refine ⟨rfl, rfl, ?_, ?_, fun j hj => sag_swapSaggar_ne hj⟩
      all_goals rw [swapSaggar_cfg]; rfl
  case destroy =>
    refine ⟨_, (exec_saggarDestroyEffect k s).trans (execSaggarDestroyEffect_takes h), ?_⟩
    have hsag : (saggarGone s.cfg k).sag k = { created := (s.cfg.sag k).created } := tget_tset_self hs.saggars ..
    rw [cfg_saggarDestroyed, hsag]
    exact ⟨rfl, rfl, fun j hj => tget_tset_ne _ _ _ hj, rfl, lastEffect_saggarDestroyed hs p tag, rfl, rfl⟩

end Sys2Proof.Proofs

/-! ### O46: the deposit port -/

namespace Sys2Proof.Proofs
open Sys2Proof.Machine

theorem exec_depositRequestAccept (w : Nat) (s : State) : exec (.depositRequestAccept w) s = execDepositRequestAccept w s := rfl
theorem exec_depositResponse (i : Nat) (code : DepCode) (x : BitVec 512) (s : State) :
    exec (.depositResponse i code x) s = execDepositResponse i code x s := rfl

/-! Requests (R542, R552). -/

section
variable {s : State} {r : DepReq} {rs : List DepReq} {i : Nat}

theorem execDepositRequestAccept_idle (w : Nat) (h : s.dep.queue = [] ∨ s.dep.freeId = none) : execDepositRequestAccept w s = .next s := by
  unfold execDepositRequestAccept
  split
  · next hq hi => simp [hq, hi] at h
  · rfl

/-- The deposit port once memory has taken its oldest request under a number. -/
def requestTaken (s : State) (r : DepReq) (rs : List DepReq) (i : Nat) : Deposit :=
  { s.dep with queue := rs, flying := s.dep.flying ++ [{ r with id := i }], since := if rs.isEmpty = true then none else some s.time }

/-- The state once a request is counted and its firing's wait too, before the firing goes on. -/
def requestAccepted (s : State) (r : DepReq) (rs : List DepReq) (i w : Nat) : State :=
  ((({ s with dep := requestTaken s r rs i }).bump 0x08).bumpBy 0x09 w).modFiring r.uid (fun f => { f with depWait := f.depWait + w })

theorem execDepositRequestAccept_takes (w : Nat) (hq : s.dep.queue = r :: rs) (hi : s.dep.freeId = some i) :
    execDepositRequestAccept w s = .next (State.kilnAdvance (requestAccepted s r rs i w) r.uid) := by
  simp only [execDepositRequestAccept, hq, hi]
  rfl

theorem accepts_requestAccepted (hs : canonical s) (w : Nat) :
    tget 0 (requestAccepted s r rs i w).counters 0x08 = satInc (tget 0 s.counters 0x08) :=
  (tget_tset_ne 0 _ _ (by decide)).trans (tget_tset_self hs.counters 0x08 _)

end

/-! Responses (R553). -/

/-- What an answer is counted as. -/
def responseCounted (s : State) (r : DepReq) (code : DepCode) : State :=
  match code with
  | .ok => s
  | .mappedOut => s.bumpBy 0x0A (s.mappedCount r)
  | .dataError => s.bump 0x0B

/-- The state once an answer is counted and its request is outstanding no more. -/
def requestAnswered (s : State) (i : Nat) (r : DepReq) (code : DepCode) : State :=
  { responseCounted s r code with dep := { s.dep with flying := s.dep.flying.filter (fun q => q.id != i) } }

/-- The firing of an answered request takes the answer where it still runs. -/
def answerGiven (u : State) (r : DepReq) (code : DepCode) (x : BitVec 512) : Host.Outcome State Fault Refusal :=
  match u.firing? r.uid with
  | none => .next u
  | some f => if f.st != .granted then .next u else .next ((u.depAnswer f r code x).kilnAdvance f.uid).driveKiln

section
variable {s : State} {r : DepReq} {i : Nat} {code : DepCode} {x : BitVec 512}

theorem firing?_requestAnswered (uid : Nat) : (requestAnswered s i r code).firing? uid = s.firing? uid := by cases code <;> rfl

theorem execDepositResponse_none (h : s.dep.flying.find? (fun q => q.id == i) = none) : execDepositResponse i code x s = .next s := by
  unfold execDepositResponse
  rw [h]

variable (h : s.dep.flying.find? (fun q => q.id == i) = some r)
include h

theorem execDepositResponse_some : execDepositResponse i code x s = answerGiven (requestAnswered s i r code) r code x := by
  cases code <;> simp only [execDepositResponse, h] <;> rfl

/-- The answer of a firing that no longer runs is counted alone. -/
theorem execDepositResponse_ended (hn : ∀ f, s.firing? r.uid = some f → f.st ≠ .granted) :
    execDepositResponse i code x s = .next (requestAnswered s i r code) := by
  rw [execDepositResponse_some h, answerGiven, firing?_requestAnswered]
  split
  · rfl
  · next f hf => exact if_pos (by simpa using hn f hf)

theorem execDepositResponse_running {f : Firing} (hf : s.firing? r.uid = some f) (hg : f.st = .granted) :
    execDepositResponse i code x s = .next (((requestAnswered s i r code).depAnswer f r code x).kilnAdvance f.uid).driveKiln := by
  rw [execDepositResponse_some h, answerGiven, firing?_requestAnswered, hf]
  exact if_neg (by simp [hg])

end

/-- Settles O46: a request by the state that memory's taking leaves, an answer by whether its firing still runs. -/
theorem depositPort : Obligations.DepositPort := by
  unfold Obligations.DepositPort
  refine ⟨fun w s h => (exec_depositRequestAccept w s).trans (execDepositRequestAccept_idle w h),
    fun r rs i w s hq hi => ⟨requestAccepted s r rs i w, (exec_depositRequestAccept w s).trans (execDepositRequestAccept_takes w hq hi),
      rfl, rfl, fun hs => accepts_requestAccepted hs w⟩,
    fun i code x s => ⟨fun h => (exec_depositResponse i code x s).trans (execDepositResponse_none h), fun r u h hu => ?_⟩⟩
  have hu' : u = requestAnswered s i r code := hu
  rw [exec_depositResponse, hu']
  exact ⟨execDepositResponse_ended h, fun f hf hg => execDepositResponse_running h hf hg⟩

end Sys2Proof.Proofs

/-! ### O47: the registers of a mailbox port -/

namespace Sys2Proof.Proofs
open Sys2Proof.Machine

/-! A write of a port that raises no interrupt starts no Host Notify sequence (R529). -/

theorem setPort_quiet (s : State) {p : Nat} {x : Port}
    (h : irqLine x.intStatus x.intEnable = true → irqLine (s.port p).intStatus (s.port p).intEnable = true) :
    s.setPort p x = { s with ports := tset {} s.ports p x } := by
  refine if_neg fun hstart => ?_
  simp only [Bool.and_eq_true, Bool.not_eq_true'] at hstart
  obtain ⟨⟨⟨⟨⟨-, hwas⟩, hnow⟩, -⟩, -⟩, -⟩ := hstart
  rw [h hnow] at hwas
  exact Bool.noConfusion hwas

theorem irqLine_zero (e : Word) : irqLine 0 e = false := by simp [irqLine]

/-- The end of a port's session: its session and its snapshot, with no interrupt. -/
theorem endSession_eq (s : State) (p : Nat) : s.endSession p = { s with
    ports := tset {} s.ports p { s.port p with session := none }
    ctl := { s.ctl with snaps := s.ctl.snaps.filter (fun x => x.port != p) } } := by
  rw [State.endSession, modPort_eq, setPort_quiet]
  · rfl
  · exact id

/-- A port reset of a port in form (R429). -/
theorem portReset_eq {s : State} (hs : canonical s) (p : Nat) : s.portReset p = State.nextRequest { s with
    ports := tset {} s.ports p { s.port p with session := none, req := [], resp := [], st := .idle, curTag := 0, intStatus := 0 }
    ctl := { s.ctl with snaps := s.ctl.snaps.filter (fun x => x.port != p) } } := by
  have hport : (s.endSession p).port p = { s.port p with session := none } := by
    rw [endSession_eq]
    exact tget_tset_self hs.ports ..
  have hquiet (x : Port) (hx : x.intStatus = 0) := setPort_quiet (s.endSession p) (p := p) (x := x)
    (fun h => by rw [hx, irqLine_zero] at h; exact Bool.noConfusion h)
  rw [State.portReset, modPort_eq, hquiet _ rfl, hport, endSession_eq]
  dsimp only
  rw [tset_tset hs.ports]

/-! The controller takes the next request (R426). -/

/-- With no request of a reserved code at the front nothing more happens. -/
theorem nextRequest_of_known {s : State} (h : ∀ q, s.takesNow = some q → (cmdSpec q.code).isSome = true) : s.nextRequest = s := by
  have hnone : s.takesNow.filter (fun q => (cmdSpec q.code).isNone) = none := by
    cases ht : s.takesNow with
    | none => rfl
    | some q => simpa [Option.isSome_iff_ne_none] using h q ht
  simp only [State.nextRequest, State.takeReserved, hnone]

/-! A ring (R425, R427, R562). -/

section
variable {s : State} {p : Nat}

theorem ring_taken (h : (s.port p).st = .pending ∨ (s.port p).st = .working) :
    s.ring p = s.setPort p { s.port p with intStatus := setBit (s.port p).intStatus mbRingErr } := if_pos (by simpa using h)

section
variable (h : (s.port p).st = .idle ∨ (s.port p).st = .done)
include h

theorem free_of_idle : ¬ ((s.port p).st == .pending || (s.port p).st == .working) = true := by
  rcases h with h | h <;> simp [h]

theorem ring_pending (hv : s.servesCommand p ((s.port p).request p).code = true) :
    s.ring p = (s.setPort p { s.port p with st := .pending }).nextRequest := (if_neg (free_of_idle h)).trans (if_neg (by simp [hv]))

theorem ring_busy (hv : s.servesCommand p ((s.port p).request p).code = false) : s.ring p = s.answerBusy p :=
  (if_neg (free_of_idle h)).trans (if_pos (by simp [hv]))

end

/-! The rows. -/

variable {v : Word}

theorem exec_mbx_outside (h : s.awake = false ∨ 18 ≤ p) :
    exec (.mbxRing p v) s = .next s ∧ exec (.mbxPortReset p v) s = .next s ∧ exec (.mbxIntStatusClear p v) s = .next s := by
  have hno : (s.awake && decide (p < 18)) = false := by
    rcases h with h | h
    · simp [h]
    · simp [Nat.not_lt.mpr h]
  exact ⟨if_neg (by simp [hno]), if_neg (by simp [hno]), if_neg (by simp [hno])⟩

theorem exec_mbxRing_other (h : bitOf v.toNat 0 = false ∨ bitOf v.toNat 1 = true) : exec (.mbxRing p v) s = .next s :=
  if_neg (by rcases h with h | h <;> simp [h])

theorem exec_mbxPortReset_other (h : bitOf v.toNat 1 = false) : exec (.mbxPortReset p v) s = .next s := if_neg (by simp [h])

section
variable (ha : s.awake = true) (hp : p < 18)
include ha hp

theorem exec_mbxRing (h0 : bitOf v.toNat 0 = true) (h1 : bitOf v.toNat 1 = false) : exec (.mbxRing p v) s = .next (s.ring p) := by
  have hrow : exec (.mbxRing p v) s = .next (s.mbxDoorbell p v) := if_pos (by simp [ha, hp, h0, h1])
  rw [hrow, State.mbxDoorbell, h0, h1]
  rfl

theorem exec_mbxPortReset (h0 : bitOf v.toNat 0 = false) (h1 : bitOf v.toNat 1 = true) :
    exec (.mbxPortReset p v) s = .next (s.portReset p) := by
  have hrow : exec (.mbxPortReset p v) s = .next (s.mbxDoorbell p v) := if_pos (by simp [ha, hp, h1])
  rw [hrow, State.mbxDoorbell, h0, h1]
  rfl

theorem exec_mbxPortReset_ring (h0 : bitOf v.toNat 0 = true) (h1 : bitOf v.toNat 1 = true) :
    exec (.mbxPortReset p v) s = .next ((s.portReset p).ring p) := by
  have hrow : exec (.mbxPortReset p v) s = .next (s.mbxDoorbell p v) := if_pos (by simp [ha, hp, h1])
  rw [hrow, State.mbxDoorbell, h0, h1]
  rfl

theorem exec_mbxIntStatusClear : exec (.mbxIntStatusClear p v) s
    = .next (s.setPort p { s.port p with intStatus := (s.port p).intStatus &&& ~~~v }) := if_pos (by simp [ha, hp])

end

end

/-- Settles O47: the doorbell by its bits, a ring by the state of its port, a reset by the port that it leaves. -/
theorem mailboxRegisters : Obligations.MailboxRegisters := by
  unfold Obligations.MailboxRegisters
  refine fun p v s => ⟨exec_mbx_outside, exec_mbxRing_other, exec_mbxPortReset_other, nextRequest_of_known, fun ha hp =>
    ⟨fun h0 h1 => ?ring, fun hs h1 h0 => ?reset, fun h1 h0 t ht => ?both, exec_mbxIntStatusClear ha hp⟩⟩
  case ring =>
    rw [exec_mbxRing ha hp h0 h1]
    exact ⟨fun h => congrArg _ (ring_taken h), fun h => ⟨fun hv => congrArg _ (ring_pending h hv), fun hv => congrArg _ (ring_busy h hv)⟩⟩
  case reset => rw [exec_mbxPortReset ha hp h0 h1, portReset_eq hs]
  case both =>
    rw [exec_mbxPortReset ha hp (by decide) (by decide)] at ht
    rw [exec_mbxPortReset_ring ha hp h0 h1, Host.Outcome.next.inj ht]

end Sys2Proof.Proofs

/-! ### O48: the checks of every mailbox request -/

namespace Sys2Proof.Proofs
open Sys2Proof.Machine

/-- The row of a command is that command, carried out by its own part. -/
theorem exec_commandRow {i : Instr} {p code : Nat} (h : commandRow i = some (p, code)) :
    ∃ run, ∀ s, exec i s = .next (s.command p code run) := by
  unfold commandRow at h
  split at h <;> cases h <;> exact ⟨_, fun _ => rfl⟩

section
variable {s : State} {p code : Nat} {q : Req} {run : State → Req → Reply}

theorem command_of_not_taken (h : s.taken? p code = none) : s.command p code run = s := by simp only [State.command, h]

section
variable (h : s.taken? p code = some q)
include h

/-- The request that a row takes is of its port and of its code. -/
theorem taken_port_code : q.port = p ∧ q.code = code := by
  have hq := (Option.filter_eq_some_iff.mp h).2
  simpa using hq

theorem command_of_taken : s.command p code run = (s.carryOut q run).nextRequest := by simp only [State.command, h]

/-- A request whose checks fail is answered with the error. -/
theorem command_fail {err d : Nat} {tagged : Bool} (hv : s.verdict q = .fail err d tagged) :
    s.command p code run = ((served s p).replyFail q (s.port p).version err d tagged).nextRequest := by
  obtain ⟨rfl, -⟩ := taken_port_code h
  have hverdict : (s.modCtlr (fun c => { c with lastPort := q.port })).verdict q = .fail err d tagged := hv
  rw [command_of_taken h, State.carryOut]
  simp only [hverdict]
  rfl

/-- A repeat gets the stored response again. -/
theorem command_again (hv : s.verdict q = .again) :
    s.command p code run = ((served s p).modPort p (fun x => x.show q.tag x.stored)).nextRequest := by
  obtain ⟨rfl, -⟩ := taken_port_code h
  have hverdict : (s.modCtlr (fun c => { c with lastPort := q.port })).verdict q = .again := hv
  rw [command_of_taken h, State.carryOut]
  simp only [hverdict]
  rfl

end

/-! The answer to a failed check. -/

variable (v : Byte × Byte) (err d : Nat)

theorem replyFail_shown (hc : q.code ≠ 1) : (s.replyFail q v err d false).nextRequest = shown s q v err d false [] := by
  simp only [State.replyFail, beq_eq_false_iff_ne.mpr hc, Bool.false_eq_true, if_false]
  rfl

theorem replyFail_answer (hc : q.code ≠ 1) : (s.replyFail q v err d true).nextRequest = answer s q v err d false [] false := by
  simp only [State.replyFail, beq_eq_false_iff_ne.mpr hc, Bool.false_eq_true, if_false, if_true]
  rfl

theorem replyFail_hello_shown (hc : q.code = 1) :
    (s.replyFail q v err d false).nextRequest = shown (s.endSession q.port) q (0, 0) err d false [] := by
  simp only [State.replyFail, hc, beq_self_eq_true, Bool.false_eq_true, if_false, if_true]
  rw [shown, hc]
  rfl

theorem replyFail_hello_answer (hc : q.code = 1) :
    (s.replyFail q v err d true).nextRequest = answer (s.endSession q.port) q (0, 0) err d false [] false := by
  simp only [State.replyFail, hc, beq_self_eq_true, if_true]
  rw [answer, hc]
  rfl

/-! Checks that the spec names (R431, R440, R442). -/

section
variable {err d} (hc : q.code ≠ 1)
include hc

theorem verdict_noSession (h : (s.port q.port).session = none) : s.verdict q = .fail erNoSession 0 false := by
  simp only [State.verdict, beq_eq_false_iff_ne.mpr hc, h, Bool.false_eq_true, if_false]

theorem verdict_otherVersion {w : Byte × Byte} (h : (s.port q.port).session = some w) (hw : w ≠ q.version) :
    s.verdict q = .fail erVersion 0 false := by
  simp [State.verdict, hc, h, hw]

theorem verdict_laterChecks {c : CmdSpec} (h : (s.port q.port).session = some q.version) (hspec : cmdSpec q.code = some c)
    (hm : c.minor ≤ q.version.2.toNat) : s.verdict q = s.laterChecks q c := by
  simp [State.verdict, hc, h, hspec, Nat.not_lt.mpr hm]

end

theorem laterChecks_unprivileged {c : CmdSpec} (hl : q.badLength c = none) (hr : q.badReserved c = none)
    (ht : (s.port q.port).tagCheck q = none) (hp : c.perm = .priv) (hn : s.privileged q.port = false) :
    s.laterChecks q c = .fail erDenied 3 true := by
  simp [State.laterChecks, hl, hr, ht, State.denied, hp, hn]

end

/-- Settles O48: every row is a command, whose answer to a failed check depends on the check and on HELLO alone. -/
theorem commandChecks : Obligations.CommandChecks := by
  unfold Obligations.CommandChecks
  intro i p code s hrow
  obtain ⟨run, hexec⟩ := exec_commandRow hrow
  simp only [hexec]
  refine ⟨fun h => congrArg _ (command_of_not_taken h), fun q h => ?_⟩
  obtain ⟨hport, hcode⟩ := taken_port_code h
  refine ⟨fun hc => ?other, fun hc hs t ht => ?hello⟩
  case other =>
    have hq : q.code ≠ 1 := hcode ▸ hc
    subst hport hcode
    refine ⟨fun err d hv => ?_, fun err d hv => ?_, fun hv => ?_, verdict_noSession hq, fun w hw hne => verdict_otherVersion hq hw hne,
      fun w c hw he hspec hm hl hr htag hperm hn => ?_⟩
    · rw [command_fail h hv, replyFail_shown _ _ _ hq]
    · rw [command_fail h hv, replyFail_answer _ _ _ hq]
    · rw [command_again h hv]
      rfl
    · subst he
      rw [verdict_laterChecks hq hw hspec hm, laterChecks_unprivileged hl hr htag hperm hn]
  case hello =>
    have hq : q.code = 1 := hcode.trans hc
    have hended : (served s p).endSession q.port = t := by
      rw [ht, endSession_eq, hport]
      rfl
    refine ⟨fun err d hv => ?_, fun err d hv => ?_⟩
    · rw [command_fail h hv, replyFail_hello_shown _ _ _ hq, hended]
    · rw [command_fail h hv, replyFail_hello_answer _ _ _ hq, hended]

end Sys2Proof.Proofs

/-! ### O49: sessions, events, logs and the governor's record -/

namespace Sys2Proof.Proofs
open Sys2Proof.Machine

theorem exec_hello (p : Nat) (s : State) : exec (.hello p) s = .next (s.command p 0x0001 runHello) := rfl
theorem exec_goodbye (p : Nat) (s : State) : exec (.goodbye p) s = .next (s.command p 0x0002 runGoodbye) := rfl
theorem exec_eventSubscribe (p : Nat) (s : State) : exec (.eventSubscribe p) s = .next (s.command p 0x0802 runEventSubscribe) := rfl
theorem exec_eventRead (p : Nat) (s : State) : exec (.eventRead p) s = .next (s.command p 0x0803 runEventRead) := rfl
theorem exec_faultLogRead (p : Nat) (s : State) : exec (.faultLogRead p) s = .next (s.command p 0x0804 runFaultLogRead) := rfl
theorem exec_energyRead (p : Nat) (s : State) : exec (.energyRead p) s = .next (s.command p 0x0801 runEnergyRead) := rfl
theorem exec_controllerLogRead (p : Nat) (s : State) :
    exec (.controllerLogRead p) s = .next (s.command p 0x0807 runControllerLogRead) := rfl

theorem ready_port {s : State} {p code : Nat} {q : Req} (hr : ready s p code q) : q.port = p := by
  obtain ⟨-, -, -, hreq, -, -⟩ := hr
  exact hreq ▸ rfl

theorem ready_code {s : State} {p code : Nat} {q : Req} (hr : ready s p code q) : q.code = code := by
  obtain ⟨-, -, -, -, hcode, -⟩ := hr
  exact hcode

/-! HELLO, whose answer carries the version that it has agreed (R437, R438). -/

section
variable {s : State} {p : Nat} {q : Req} {r : Reply}

/-- The row takes a HELLO that is ready and puts its reply under the session that stands then. -/
theorem hello_of_ready (hr : ready s p 0x0001 q) (hrun : runHello (served s p) q = r) (hl : r.later = false) (hf : r.effect = false) :
    exec (.hello p) s = .next (answer r.st q (r.st.port p).version r.err r.detail r.more r.data false) := by
  have hport := ready_port hr
  obtain ⟨hserves, hnext, hswaps, hreq, hcode, hpass⟩ := hr
  have htakes : s.takesNow = some q := by simp [State.takesNow, hnext, hreq, hswaps, hcode, hserves]
  have htaken : s.taken? p 1 = some q := by simp [State.taken?, htakes, hport, hcode]
  have hverdict : (s.modCtlr (fun c => { c with lastPort := q.port })).verdict q = .pass := hpass
  have hself : s.modCtlr (fun c => { c with lastPort := q.port }) = served s p := by rw [hport]; rfl
  rw [exec_hello, command_of_taken htaken, State.carryOut]
  simp only [hverdict]
  rw [hself, hrun]
  simp only [Reply.put, hcode, hl, hf, hport, answer, beq_self_eq_true, Bool.false_and, Bool.false_eq_true, if_true, if_false]
  rfl

variable (s p) in
/-- The state once the session of a port whose request the controller has taken has ended. -/
def sessionEnded : State := { s with
  ctl := { s.ctl with lastPort := p, snaps := s.ctl.snaps.filter (fun x => x.port != p) }
  ports := tset {} s.ports p { s.port p with session := none } }

theorem endSession_served : (served s p).endSession p = sessionEnded s p := endSession_eq _ _

theorem port_sessionEnded (hs : canonical s) : (sessionEnded s p).port p = { s.port p with session := none } := tget_tset_self hs.ports ..

variable (s p) in
/-- The state once a new session of a version stands at the port. -/
def sessionOpened (v : Byte × Byte) : State := { sessionEnded s p with ports := tset {} s.ports p { s.port p with session := some v } }

/-- A change of the port that raises no interrupt, after the end of its session. -/
theorem setPort_sessionEnded (hs : canonical s) {x : Port}
    (h : irqLine x.intStatus x.intEnable = true → irqLine (s.port p).intStatus (s.port p).intEnable = true) :
    (sessionEnded s p).setPort p x = { sessionEnded s p with ports := tset {} s.ports p x } := by
  rw [setPort_quiet _ (by rw [port_sessionEnded hs]; exact h), sessionEnded]
  dsimp only
  rw [tset_tset hs.ports]

theorem setPort_served {x : Port}
    (h : irqLine x.intStatus x.intEnable = true → irqLine (s.port p).intStatus (s.port p).intEnable = true) :
    (served s p).setPort p x = { served s p with ports := tset {} s.ports p x } := setPort_quiet _ h

section
variable (hs : canonical s) (hp : q.port = p)
include hp

theorem runHello_flags (h : 2 < q.num 4 1) : runHello (served s p) q = .refuse (sessionEnded s p) erInvalid 36 := by
  rw [runHello, hp, endSession_served]
  exact if_pos h

variable (h : q.num 4 1 ≤ 2)
include h

theorem runHello_noVersion (hv : helloVersion q = none) :
    runHello (served s p) q = { st := sessionEnded s p, err := erVersion, data := [1, 0, 1, 2] } := by
  rw [runHello, hp, endSession_served]
  simp only [if_neg (Nat.not_lt.mpr h), hv]

include hs

theorem runHello_opens {v : Byte × Byte} (hv : helloVersion q = some v) :
    runHello (served s p) q = .ok (sessionOpened s p v) ((sessionOpened s p v).helloData p v) false := by
  rw [runHello, hp, endSession_served]
  simp only [if_neg (Nat.not_lt.mpr h), hv, modPort_eq, port_sessionEnded hs]
  rw [setPort_sessionEnded hs]
  · rfl
  · exact id

end

theorem runGoodbye_ends (hs : canonical s) (hp : q.port = p) : runGoodbye (served s p) q = .ok { sessionEnded s p with
    ports := tset {} s.ports p { s.port p with session := none, mask := 0 } } [] true := by
  rw [runGoodbye, hp, endSession_served, modPort_eq, port_sessionEnded hs, setPort_sessionEnded hs]
  exact id

/-! Events (R452, R453). -/

theorem runEventSubscribe_writes (hp : q.port = p) : runEventSubscribe (served s p) q = .ok { served s p with
      ports := tset {} s.ports p { s.port p with mask := BitVec.ofNat 32 (q.num 0 4) &&& 0x7E } }
    (leBytes 4 (BitVec.ofNat 32 (q.num 0 4) &&& 0x7E#32).toNat) true := by
  rw [runEventSubscribe, hp, modPort_eq]
  exact congrArg (Reply.ok · _ true) (setPort_served id)

theorem runEventRead_number (h : q.num 0 1 < 1 ∨ 101 < q.num 0 1) : runEventRead s q = .refuse s erInvalid 32 :=
  if_pos (by simpa using h)

/-- The answer of EVENT_READ for the records asked for. -/
def eventsReply (s : State) (p : Nat) (q : Req) : Reply where
  st := { served s p with ports := tset {} s.ports p { s.port p with evq := (s.port p).evq.drop (q.num 0 1), evLost := 0 } }
  more := decide (q.num 0 1 < (s.port p).evq.length)
  effect := true
  data := leBytes 4 (s.port p).evLost.toNat ++ leBytes 4 ((s.port p).evq.take (q.num 0 1)).length
    ++ (((s.port p).evq.take (q.num 0 1)).map (fun r => leBytes 40 r.toNat)).flatten

theorem runEventRead_takes (hp : q.port = p) (h1 : 1 ≤ q.num 0 1) (h2 : q.num 0 1 ≤ 101) :
    runEventRead (served s p) q = eventsReply s p q := by
  have hn : ¬ (decide (q.num 0 1 < 1) || decide (101 < q.num 0 1)) = true := by simp; omega
  rw [runEventRead, if_neg hn, hp, modPort_eq, setPort_served]
  · rfl
  · exact id

/-! The fault log (R419). -/

/-- The answer of FAULT_LOG_READ from a state `t`. -/
def faultLogReply (t : State) (log : List (BitVec 256)) (q : Req) : Reply where
  st := t
  more := decide (126 < (log.drop (q.num 0 2)).length)
  data := leBytes 4 ((log.drop (q.num 0 2)).take 126).length ++ leBytes 4 log.length
    ++ (((log.drop (q.num 0 2)).take 126).map (fun r => leBytes 32 r.toNat)).flatten

theorem runFaultLogRead_reads : runFaultLogRead (served s p) q = faultLogReply (served s p) s.faultLog q := rfl

/-! The governor's record (R509). -/

theorem runEnergyRead_noSlot (h : 32 ≤ q.num 0 1) : runEnergyRead s q = .refuse s erInvalid 32 := if_pos h

theorem runEnergyRead_ok (h : q.num 0 1 < 32) : runEnergyRead s q = .ok s (leBytes 32 (s.governorRecord (q.num 0 1)).toNat) false :=
  if_neg (Nat.not_le.mpr h)

end

/-- Settles O49: each command by the reply of its own part; HELLO's under the session that its own part has left. -/
theorem sessionCommands : Obligations.SessionCommands := by
  unfold Obligations.SessionCommands
  refine ⟨fun p q s hs => ⟨fun hr t ht => ?hello, fun hr => ?goodbye, fun hr => ?subscribe, fun hr h1 h2 => ?events⟩,
    fun p q s => ⟨fun hr h => ?number, fun hr => ?faults, fun hr h => ?energy, fun hr h => ?noSlot, fun hr => ?log⟩⟩
  case hello =>
    have ht : t = sessionEnded s p := ht
    subst ht
    have hp := ready_port hr
    have hnone : ((sessionEnded s p).port p).version = (0, 0) := by rw [port_sessionEnded hs]; rfl
    refine ⟨fun h => ?_, fun h hv => ?_, fun h v hv => ⟨sessionOpened s p v, rfl, ?_⟩⟩
    · refine (hello_of_ready hr (runHello_flags hp h) rfl rfl).trans ?_
      rw [Reply.refuse, hnone]
    · refine (hello_of_ready hr (runHello_noVersion hp h hv) rfl rfl).trans ?_
      rw [hnone]
    · have hopen : ((sessionOpened s p v).port p).version = v := congrArg Port.version (tget_tset_self hs.ports ..)
      refine (hello_of_ready hr (runHello_opens hs hp h hv) rfl rfl).trans ?_
      rw [Reply.ok, hopen]
  case goodbye => exact exec_answers_ok (exec_goodbye p s) hr (by decide) (runGoodbye_ends hs (ready_port hr))
  case subscribe => exact exec_answers_ok (exec_eventSubscribe p s) hr (by decide) (runEventSubscribe_writes (ready_port hr))
  case events =>
    refine (exec_answers (exec_eventRead p s) hr (by decide) (runEventRead_takes (ready_port hr) h1 h2) rfl).trans ?_
    simp only [eventsReply, beq_self_eq_true, Bool.and_true]
  case number => exact refuses_of_run (exec_eventRead p s) hr (by decide) (runEventRead_number h)
  case faults =>
    refine (exec_answers (exec_faultLogRead p s) hr (by decide) runFaultLogRead_reads rfl).trans ?_
    simp only [faultLogReply, Bool.false_and]
  case energy => exact exec_answers_ok (exec_energyRead p s) hr (by decide) (runEnergyRead_ok h)
  case noSlot => exact refuses_of_run (exec_energyRead p s) hr (by decide) (runEnergyRead_noSlot h)
  case log => exact exec_answers_ok (exec_controllerLogRead p s) hr (by decide) rfl

end Sys2Proof.Proofs

/-! ### O51: STATE_READ, SNAPSHOT and SNAPSHOT_RELEASE -/

namespace Sys2Proof.Proofs
open Sys2Proof.Machine

theorem exec_stateRead (p : Nat) (s : State) : exec (.stateRead p) s = .next (s.command p 0x0201 runStateRead) := rfl
theorem exec_snapshot (p : Nat) (s : State) : exec (.snapshot p) s = .next (s.command p 0x0202 runSnapshot) := rfl
theorem exec_snapshotRelease (p : Nat) (s : State) : exec (.snapshotRelease p) s = .next (s.command p 0x0203 runSnapshotRelease) := rfl

/-- A command that lists entries and has no effect. -/
theorem exec_lists {i : Instr} {s t : State} {p code : Nat} {q : Req} {run : State → Req → Reply} {more : Bool} {data : List Byte}
    (hi : exec i s = .next (s.command p code run)) (hr : ready s p code q) (hc : code ≠ 1)
    (hrun : run (served s p) q = { st := t, more := more, data := data }) :
    exec i s = .next (answer t q (s.port p).version 0 0 more data false) := by
  rw [exec_answers hi hr hc hrun rfl]
  simp only [Bool.false_and]

/-! STATE_READ (R444, R446, R448). -/

theorem one_le_size {item size space : Nat} (h : itemShape item = some (size, space)) : 1 ≤ size := by
  unfold itemShape at h
  split at h <;> cases h <;> decide

/-- The snapshot that a request reads: none where it names none, else that of its port. -/
def readsFrom (s : State) (q : Req) (snap : Option Snapshot) : Prop :=
  (q.num 2 1 = 0 ∧ snap = none)
    ∨ (q.num 2 1 ≠ 0 ∧ snap.isSome = true ∧ s.ctl.snaps.find? (fun x => x.port == q.port && x.id == q.num 2 1) = snap)

section
variable {s : State} {q : Req}

theorem runStateRead_noSnapshot (h : q.num 2 1 ≠ 0) (hn : s.ctl.snaps.find? (fun x => x.port == q.port && x.id == q.num 2 1) = none) :
    runStateRead s q = .refuse s erNotFound 0 := by
  simp only [runStateRead, if_neg h, hn]
  exact if_pos (by simp [h])

variable {snap : Option Snapshot}

/-- The snapshot that STATE_READ finds is that of the request, and it is there. -/
theorem snapshot_found (h : readsFrom s q snap) :
    (if q.num 2 1 = 0 then none else s.ctl.snaps.find? (fun x => x.port == q.port && x.id == q.num 2 1)) = snap
    ∧ ¬ (q.num 2 1 != 0 && snap.isNone) = true := by
  rcases h with ⟨h0, rfl⟩ | ⟨h0, hs, hf⟩
  · exact ⟨if_pos h0, by simp [h0]⟩
  · exact ⟨(if_neg h0).trans hf, by cases snap <;> simp_all⟩

theorem item_here (h8 : q.num 0 2 = 0x08 → snap = none) (hF : q.num 0 2 = 0x0F → snap.isSome = true) :
    ¬ ((q.num 0 2 == 0x08 && snap.isSome) || (q.num 0 2 == 0x0F && snap.isNone)) = true := by
  rintro hb
  rcases (Bool.or_eq_true _ _).mp hb with hb | hb
  · obtain ⟨he, hs⟩ := by simpa only [Bool.and_eq_true, beq_iff_eq] using hb
    rw [h8 he] at hs
    exact Bool.noConfusion hs
  · obtain ⟨he, hs⟩ := by simpa only [Bool.and_eq_true, beq_iff_eq] using hb
    rw [Option.isNone_iff_eq_none.mp hs] at hF
    exact Bool.noConfusion (hF he)

theorem item_fresh (hs : ∀ x, snap = some x → s.staleItem x q.glob q.saggar (q.num 0 2) = false) :
    ¬ snap.any (fun x => s.staleItem x q.glob q.saggar (q.num 0 2)) = true := by
  cases snap with
  | none => exact Bool.noConfusion
  | some x => simpa using hs x rfl

variable (h : readsFrom s q snap)
include h

theorem runStateRead_noItem (hi : itemShape (q.num 0 2) = none) : runStateRead s q = .refuse s erInvalid 32 := by
  obtain ⟨hsnap, hthere⟩ := snapshot_found h
  simp only [runStateRead, hsnap, if_neg hthere, hi]

variable {size space : Nat}

theorem runStateRead_notHere (hi : itemShape (q.num 0 2) = some (size, space))
    (hb : (q.num 0 2 = 0x08 ∧ snap.isSome = true) ∨ (q.num 0 2 = 0x0F ∧ snap = none)) : runStateRead s q = .refuse s erInvalid 32 := by
  obtain ⟨hsnap, hthere⟩ := snapshot_found h
  simp only [runStateRead, hsnap, if_neg hthere, hi]
  exact if_pos (by simpa [Option.isNone_iff_eq_none] using hb)

variable (hi : itemShape (q.num 0 2) = some (size, space)) (h8 : q.num 0 2 = 0x08 → snap = none)
  (hF : q.num 0 2 = 0x0F → snap.isSome = true)
include hi h8 hF

theorem runStateRead_denied {err d : Nat} (hd : s.itemDenied q snap (q.num 0 2) = some (err, d)) : runStateRead s q = .refuse s err d := by
  obtain ⟨hsnap, hthere⟩ := snapshot_found h
  simp only [runStateRead, hsnap, if_neg hthere, hi, if_neg (item_here h8 hF), hd]

variable (hd : s.itemDenied q snap (q.num 0 2) = none)
include hd

theorem runStateRead_stale (hs : ∃ x, snap = some x ∧ s.staleItem x q.glob q.saggar (q.num 0 2) = true) :
    runStateRead s q = .refuse s erSnapshotStale 0 := by
  obtain ⟨hsnap, hthere⟩ := snapshot_found h
  simp only [runStateRead, hsnap, if_neg hthere, hi, if_neg (item_here h8 hF), hd]
  obtain ⟨x, rfl, hx⟩ := hs
  exact if_pos hx

variable (hs : ∀ x, snap = some x → s.staleItem x q.glob q.saggar (q.num 0 2) = false) {lo hi' : Nat}
  (hspan : s.itemSpan q snap (q.num 0 2) = (lo, hi'))
include hs hspan

theorem runStateRead_outside (ho : q.num 4 4 < lo ∨ (hi' ≤ q.num 4 4 ∧ ¬ (q.num 0 2 = 0x0F ∧ q.num 4 4 = 0))) :
    runStateRead s q = .refuse s erInvalid 36 := by
  obtain ⟨hsnap, hthere⟩ := snapshot_found h
  simp only [runStateRead, hsnap, if_neg hthere, hi, if_neg (item_here h8 hF), hd, hspan,
    if_neg (item_fresh hs)]
  rw [not_and_or] at ho
  exact if_pos (by simpa using ho)

/-- The entries of the item from the index asked for. -/
theorem runStateRead_reads (hlo : lo ≤ q.num 4 4) (hup : q.num 4 4 < hi' ∨ (q.num 0 2 = 0x0F ∧ q.num 4 4 = 0)) {entry : Nat → List Byte}
    (hlive : ∀ i, (snap = none ∨ q.num 0 2 = 0x09 ∨ q.num 0 2 = 0x0A) → entry i = s.item q.saggar (q.num 0 2) i)
    (hcopy : ∀ i x, snap = some x → q.num 0 2 ≠ 0x09 → q.num 0 2 ≠ 0x0A → entry i = x.item s (q.num 0 2) i) :
    runStateRead s q = listReply s (q.num 0 2) (q.num 4 4) (q.num 8 4) hi' size entry := by
  obtain ⟨hsnap, hthere⟩ := snapshot_found h
  have hin : ¬ (decide (q.num 4 4 < lo) || (decide (hi' ≤ q.num 4 4) && !(q.num 0 2 == 0x0F && q.num 4 4 == 0))) = true := by
    rcases hup with hup | ⟨hF, h0⟩
    · simp [Nat.not_lt.mpr hlo, Nat.not_le.mpr hup]
    · simp [show lo = 0 by omega, hF, h0]
  simp only [runStateRead, hsnap, if_neg hthere, hi, if_neg (item_here h8 hF), hd, hspan,
    if_neg (item_fresh hs), if_neg hin]
  congr 1
  funext i
  cases snap with
  | none => exact (hlive i (.inl rfl)).symm
  | some x =>
    by_cases hg : q.num 0 2 = 0x09 ∨ q.num 0 2 = 0x0A
    · exact (if_pos (by simpa using hg)).trans (hlive i (.inr hg)).symm
    · obtain ⟨h9, hA⟩ := not_or.mp hg
      exact (if_neg (by simpa using ⟨h9, hA⟩)).trans (hcopy i x rfl h9 hA).symm

end

/-- The list that STATE_READ answers with, its entries as many as are asked for, are there and fit the answer. -/
theorem listReply_item {s : State} {item first most hi size n : Nat} (hn : n = min (min most (hi - first)) (4048 / size)) (hsize : 1 ≤ size)
    (entry : Nat → List Byte) : listReply s item first most hi size entry
      = { st := s, more := decide (first + n < hi)
          data := leBytes 4 item ++ leBytes 4 n ++ leBytes 8 (first + n) ++ ((upFrom first n).map entry).flatten } := by
  simp only [listReply, runOf, Nat.max_eq_right hsize, ← hn]

/-! SNAPSHOT and SNAPSHOT_RELEASE (R447). -/

section
variable {s : State} {q : Req}

/-- The scope of a snapshot. -/
def cutScope (q : Req) : Option Nat := if q.glob then none else some q.saggar

/-- The snapshots of the other ports. -/
def otherSnaps (s : State) (p : Nat) : List Snapshot := s.ctl.snaps.filter (fun x => x.port != p)

/-- The number of a new snapshot. -/
def snapshotId (others : List Snapshot) : Nat := (((List.range 4).map (· + 1)).find? (fun i => !others.any (fun x => x.id == i))).getD 1

theorem snapshotId_spec {others : List Snapshot} (h : others.length < 2) :
    1 ≤ snapshotId others ∧ snapshotId others ≤ 3 ∧ ∀ y ∈ others, y.id ≠ snapshotId others := by
  match others, h with
  | [], _ => exact ⟨by decide, by decide, fun y hy => absurd hy List.not_mem_nil⟩
  | [y], _ =>
    have hid : snapshotId [y] = if y.id = 1 then 2 else 1 := by
      by_cases h1 : y.id = 1 <;> simp [snapshotId, List.range_succ, h1]
    rw [hid]
    split
    · next h1 => exact ⟨by decide, by decide, fun z hz => by rw [List.mem_singleton.mp hz, h1]; decide⟩
    · next h1 => exact ⟨by decide, by decide, fun z hz => by rw [List.mem_singleton.mp hz]; exact h1⟩

theorem runSnapshot_busy (h : 2 ≤ (otherSnaps s q.port).length) : runSnapshot s q = .refuse s erBusy 6 := if_pos h

/-- The snapshot that a request takes. -/
def snapshotTaken (s : State) (q : Req) : Snapshot := s.cut (snapshotId (otherSnaps s q.port)) q.port (cutScope q)

theorem runSnapshot_takes (h : (otherSnaps s q.port).length < 2) : runSnapshot s q = .ok
    (s.modCtlr (fun c => { c with snaps := otherSnaps s q.port ++ [snapshotTaken s q] }))
    (leBytes 8 (snapshotTaken s q).id ++ leBytes 8 s.time.toNat ++ leBytes 4 s.cfg.activeGen.toNat
      ++ leBytes 4 (if q.glob then 0 else (s.cfg.sag q.saggar).activeGen.toNat) ++ leBytes 4 (snapshotTaken s q).entries.length
      ++ leBytes 1 (b2n (decide (2048 < (s.kiln.firings.filter (fun f => q.glob || f.saggar == q.saggar)).length)))) true := by
  refine (if_neg (Nat.not_le.mpr h)).trans ?_
  have hall : (fun f : Firing => (cutScope q).all (fun k => f.saggar == k)) = fun f => q.glob || f.saggar == q.saggar := by
    funext f
    cases hg : q.glob <;> simp [cutScope, hg]
  have hgen : (cutScope q).elim 0 (fun k => (s.cfg.sag k).activeGen.toNat) = if q.glob then 0 else (s.cfg.sag q.saggar).activeGen.toNat := by
    cases hg : q.glob <;> simp [cutScope, hg]
  rw [← hall, ← hgen]
  rfl

end

/-- Settles O51: STATE_READ check by check, SNAPSHOT and SNAPSHOT_RELEASE by the snapshots that they leave. -/
theorem stateReads : Obligations.StateReads := by
  unfold Obligations.StateReads
  refine fun p q s => ⟨fun hr h hn => ?none, fun hr snap item hitem hsnap => ?read, fun hr others ho => ?snapshot, fun hr => ?release⟩
  all_goals have hp : q.port = p := ready_port hr
  case none =>
    subst hp
    exact refuses_of_run (exec_stateRead q.port s) hr (by decide) (runStateRead_noSnapshot h hn)
  case read =>
    subst hp hitem
    have hexec := exec_stateRead q.port s
    have hfrom : readsFrom (served s q.port) q snap := hsnap
    refine ⟨fun hi => refuses_of_run hexec hr (by decide) (runStateRead_noItem hfrom hi), fun h8 hs => ?_, fun hF hs => ?_,
      fun size space lo hi n hi' h8 hF hspan hn => ⟨fun err d hd => ?_, fun hd hs => ?_, fun hd hs => ⟨fun h => ?_, fun hlo hup entry hlive hcopy => ?_⟩⟩⟩
    · have hi : itemShape (q.num 0 2) = some (2, 8192) := by rw [h8]; rfl
      exact refuses_of_run hexec hr (by decide) (runStateRead_notHere hfrom hi (.inl ⟨h8, hs⟩))
    · have hi : itemShape (q.num 0 2) = some (48, 0) := by rw [hF]; rfl
      exact refuses_of_run hexec hr (by decide) (runStateRead_notHere hfrom hi (.inr ⟨hF, hs⟩))
    · exact refuses_of_run hexec hr (by decide) (runStateRead_denied hfrom hi' h8 hF hd)
    · exact refuses_of_run hexec hr (by decide) (runStateRead_stale hfrom hi' h8 hF hd hs)
    · exact refuses_of_run hexec hr (by decide) (runStateRead_outside hfrom hi' h8 hF hd hs hspan h)
    · have hrun := runStateRead_reads hfrom hi' h8 hF hd hs hspan hlo hup hlive hcopy
      rw [listReply_item hn (one_le_size hi')] at hrun
      exact exec_lists hexec hr (by decide) hrun
  case snapshot =>
    subst hp
    have ho : others = otherSnaps s q.port := ho
    subst ho
    refine ⟨fun h => refuses_of_run (exec_snapshot q.port s) hr (by decide) (runSnapshot_busy h), fun h => ?_⟩
    exact ⟨snapshotTaken s q, _, exec_answers_ok (exec_snapshot q.port s) hr (by decide) (runSnapshot_takes h), rfl, rfl, snapshotId_spec h⟩
  case release =>
    subst hp
    exact ⟨fun h => exec_answers_ok (exec_snapshotRelease q.port s) hr (by decide) (if_pos h),
      fun h => refuses_of_run (exec_snapshotRelease q.port s) hr (by decide) (if_neg (by rw [show (served s q.port).ctl.snaps = s.ctl.snaps from rfl, h]; decide))⟩

end Sys2Proof.Proofs

/-! ### O50: saggar commands, shadow sets, COMMIT, DISCARD and pokes -/

namespace Sys2Proof.Proofs
open Sys2Proof.Machine

theorem exec_saggarCreate (p : Nat) (s : State) : exec (.saggarCreate p) s = .next (s.command p 0x0101 runSaggarCreate) := rfl
theorem exec_saggarDestroy (p : Nat) (s : State) : exec (.saggarDestroy p) s = .next (s.command p 0x0102 runSaggarDestroy) := rfl
theorem exec_saggarList (p : Nat) (s : State) : exec (.saggarList p) s = .next (s.command p 0x0103 runSaggarList) := rfl
theorem exec_shadowWrite (p : Nat) (s : State) : exec (.shadowWrite p) s = .next (s.command p 0x0111 runShadowWrite) := rfl
theorem exec_shadowRead (p : Nat) (s : State) : exec (.shadowRead p) s = .next (s.command p 0x0112 runShadowRead) := rfl
theorem exec_commit (p : Nat) (s : State) : exec (.commit p) s = .next (s.command p 0x0113 runCommit) := rfl
theorem exec_discard (p : Nat) (s : State) : exec (.discard p) s = .next (s.command p 0x0114 runDiscard) := rfl
theorem exec_debugTablePoke (p : Nat) (s : State) : exec (.debugTablePoke p) s = .next (s.command p 0x0806 runDebugTablePoke) := rfl

/-! A command whose answer comes later (R426). -/

section
variable {s : State} {p code : Nat} {q : Req} {run : State → Req → Reply} {r : Reply} {i : Instr}

theorem put_later (h : q.code ≠ 1) (hl : r.later = true) (v : Byte × Byte) :
    (r.put q v).nextRequest = working r.st q (r.effect && r.err == 0) := by
  have hcode : (q.code == 1) = false := beq_eq_false_iff_ne.mpr h
  simp only [Reply.put, hcode, hl, Bool.false_eq_true, if_false, if_true, modPort_eq]
  cases r.effect && r.err == 0 <;> rfl

theorem exec_works (hi : exec i s = .next (s.command p code run)) (hr : ready s p code q) (hc : code ≠ 1)
    (hrun : run (served s p) q = r) (hl : r.later = true) :
    exec i s = .next (working r.st q (r.effect && r.err == 0)) := by
  have hport := ready_port hr
  obtain ⟨hserves, hnext, hswaps, hreq, hcode, hpass⟩ := hr
  have htakes : s.takesNow = some q := by simp [State.takesNow, hnext, hreq, hswaps, hcode, hserves]
  have htaken : s.taken? p code = some q := by simp [State.taken?, htakes, hport, hcode]
  have hverdict : (s.modCtlr (fun c => { c with lastPort := q.port })).verdict q = .pass := hpass
  rw [hi, command_of_taken htaken, State.carryOut]
  simp only [hverdict]
  rw [hport]
  change Host.Outcome.next (Reply.put (run (served s p) q) q (s.port p).version).nextRequest = _
  rw [hrun, put_later (hcode ▸ hc) hl]

/-- A command without an effect of its own whose answer comes later. -/
theorem exec_works_silently (hi : exec i s = .next (s.command p code run)) (hr : ready s p code q) (hc : code ≠ 1) {t : State}
    (hrun : run (served s p) q = { st := t, later := true }) : exec i s = .next (working t q false) := by
  rw [exec_works hi hr hc hrun rfl]
  simp only [Bool.false_and]

end

/-! Saggars (R471, R473). -/

section
variable {s : State} {q : Req}

theorem runSaggarCreate_owner (h : 17 < q.num 0 1) : runSaggarCreate s q = .refuse s erInvalid 32 := by
  simp only [runSaggarCreate, if_pos h]

theorem quotaOf_eq (owner : Nat) : quotaOf owner = BitVec.ofNat 128 (owner * 2 ^ 50) := rfl

/-- The saggar number that SAGGAR_CREATE gives: the lowest that is free. -/
def freeSaggar (s : State) : Option Nat := (List.range 4096).find? (fun k => !(s.cfg.sag k).inUse)

theorem freeSaggar_eq_none (h : ∀ j, j < 4096 → (s.cfg.sag j).inUse = true) : freeSaggar s = none :=
  List.find?_range_eq_none.mpr fun j hj => by rw [h j hj]; rfl

theorem freeSaggar_eq_some {k : Nat} (hk : k < 4096) (hf : (s.cfg.sag k).inUse = false)
    (h : ∀ j, j < k → (s.cfg.sag j).inUse = true) : freeSaggar s = some k :=
  List.find?_range_eq_some.mpr ⟨by rw [hf]; rfl, List.mem_range.mpr hk, fun j hj => by rw [h j hj]; rfl⟩

theorem runSaggarCreate_full (h : q.num 0 1 ≤ 17) (hf : freeSaggar s = none) : runSaggarCreate s q = .refuse s erLimit 0 := by
  unfold freeSaggar at hf
  simp only [runSaggarCreate, if_neg (Nat.not_lt.mpr h), hf]

variable (s q) in
/-- The configuration with a new saggar `k` under handle `h`. -/
def saggarCreated (k : Nat) (h : BitVec 64) : Config := { s.cfg with
  active := { s.cfg.active with quota := tset 0 s.cfg.active.quota k (BitVec.ofNat 128 (q.num 0 1 * 2 ^ 50)) }
  shadow := { s.cfg.shadow with quota := tset 0 s.cfg.shadow.quota k (BitVec.ofNat 128 (q.num 0 1 * 2 ^ 50)) }
  saggars := tset {} s.cfg.saggars k { inUse := true, handle := h, created := (s.cfg.sag k).created + 1 } }

theorem runSaggarCreate_creates (h : q.num 0 1 ≤ 17) {k : Nat} (hf : freeSaggar s = some k) {hd : BitVec 64}
    (hh : hd = Config.handleOf k (BitVec.ofNat 64 s.handles)) :
    runSaggarCreate s q = .ok { s with handles := s.handles + 1, cfg := saggarCreated s q k hd }
      (leBytes 2 k ++ leBytes 6 0 ++ leBytes 8 hd.toNat) true := by
  unfold freeSaggar at hf
  simp only [runSaggarCreate, if_neg (Nat.not_lt.mpr h), hf, ← hh, State.modCfg, Config.modSag, saggarCreated, quotaOf_eq]
  rfl

theorem runSaggarDestroy_global (h : q.glob = true) : runSaggarDestroy s q = .refuse s erInvalid 10 := if_pos h

theorem runSaggarDestroy_unknown (hg : q.glob = false) (h : (s.cfg.sag q.saggar).inUse = false) :
    runSaggarDestroy s q = .refuse s erNotFound 0 := by
  simp only [runSaggarDestroy, hg, h, Bool.false_eq_true, if_false, Bool.not_false, if_true]

theorem runSaggarDestroy_waits (hg : q.glob = false) (h : (s.cfg.sag q.saggar).inUse = true) :
    runSaggarDestroy s q = .ok { s with cfg := { s.cfg with
      saggars := tset {} s.cfg.saggars q.saggar { s.cfg.sag q.saggar with dying := some (q.port, q.tag) } } } [] false := by
  rw [runSaggarDestroy, hg, h]
  rfl

theorem runSaggarList_lists {p : Nat} (hp : q.port = p) {all : List Nat}
    (ha : all = (s.cfg.saggars.filter (fun e => e.2.inUse && decide (q.num 0 2 ≤ e.1))).map (·.1)) :
    runSaggarList s q = { st := s, more := decide (253 < all.length)
                          data := leBytes 2 (all.take 253).length ++ ((all.take 253).map (fun k => leBytes 2 k ++ leBytes 6 (s.cfg.owner k)
          ++ leBytes 8 (if s.cfg.owner k = p ∨ s.privileged p = true then (s.cfg.sag k).handle.toNat else 0))).flatten } := by
  subst hp
  simp only [runSaggarList, ← ha, Bool.or_eq_true, beq_iff_eq]

end

/-! Shadow sets (R467, R477 to R479). -/

section
variable {s : State} {q : Req}

theorem runShadowWrite_conflict (h : s.conflicts q = true) : runShadowWrite s q = .refuse s erConflict 0 := if_pos h

section
variable (h : s.conflicts q = false)
include h

theorem runShadowWrite_bad {d : Nat} (hb : s.badWrite q = some d) : runShadowWrite s q = .refuse s erInvalid d := by
  simp only [runShadowWrite, h, Bool.false_eq_true, if_false, hb]

variable (hb : s.badWrite q = none)
include hb

theorem runShadowWrite_global (hg : q.glob = true) : runShadowWrite s q = .ok { s with
      cfg := { s.cfg with shadow := q.putAll GlobalSet.put s.cfg.shadow, shadowGen := s.cfg.shadowGen + 1 }.mendShadow q }
    (leBytes 4 (s.cfg.shadowGen + 1).toNat) true := by
  simp only [runShadowWrite, h, Bool.false_eq_true, if_false, hb, hg, if_true, State.shadowGenOf]
  rfl

variable (s q) in
/-- The configuration once SHADOW_WRITE has written a saggar's shadow set. -/
def saggarWritten : Config := { s.cfg with saggars := tset {} s.cfg.saggars q.saggar { s.cfg.sag q.saggar with
  shadow := q.putAll SaggarSet.put (s.cfg.sag q.saggar).shadow, shadowGen := (s.cfg.sag q.saggar).shadowGen + 1 } }

theorem runShadowWrite_saggar (hs : canonical s) (hg : q.glob = false) :
    runShadowWrite s q = .ok { s with cfg := (saggarWritten s q).mendShadow q }
      (leBytes 4 ((s.cfg.sag q.saggar).shadowGen + 1).toNat) true := by
  have hgen : (((saggarWritten s q).mendShadow q).sag q.saggar).shadowGen = (s.cfg.sag q.saggar).shadowGen + 1 :=
    congrArg Saggar.shadowGen (tget_tset_self hs.saggars ..)
  rw [← hgen]
  simp only [runShadowWrite, h, Bool.false_eq_true, if_false, hb, hg, State.shadowGenOf]
  rfl

end

section
variable (hg : q.glob = true ∨ (s.cfg.sag q.saggar).inUse = true)

theorem runShadowRead_noSaggar (hg : q.glob = false) (h : (s.cfg.sag q.saggar).inUse = false) :
    runShadowRead s q = .refuse s erNotFound 0 := if_pos (by simp [hg, h])

include hg

theorem saggar_there : ¬ (!q.glob && !(s.cfg.sag q.saggar).inUse) = true := by
  rcases hg with hg | hg <;> simp [hg]

theorem runShadowRead_table (hf : tableFits q.glob (q.num 0 1) = false) : runShadowRead s q = .refuse s erInvalid 32 :=
  (if_neg (saggar_there hg)).trans (if_pos (by rw [hf]; rfl))

variable (hf : tableFits q.glob (q.num 0 1) = true)
include hf

theorem runShadowRead_bank (h : 1 < q.num 1 1) : runShadowRead s q = .refuse s erInvalid 33 :=
  (if_neg (saggar_there hg)).trans ((if_neg (by rw [hf]; decide)).trans (if_pos h))

variable (h1 : q.num 1 1 ≤ 1) {r : Nat × Nat} (hr : r = s.cfg.tableRange q.saggar (q.num 0 1))
include h1 hr

theorem runShadowRead_outside (h : q.num 4 4 < r.1 ∨ r.1 + r.2 ≤ q.num 4 4) : runShadowRead s q = .refuse s erInvalid 36 := by
  subst hr
  exact (if_neg (saggar_there hg)).trans ((if_neg (by rw [hf]; decide)).trans ((if_neg (Nat.not_lt.mpr h1)).trans (if_pos (by simpa using h))))

/-- The entries of SHADOW_READ. -/
theorem runShadowRead_reads (hlo : r.1 ≤ q.num 4 4) (hup : q.num 4 4 < r.1 + r.2) {size left n : Nat} (hsize : entrySize (q.num 0 1) = some size)
    (hl : left = r.1 + r.2 - q.num 4 4) (hn : n = min (min (q.num 8 2) left) (4056 / size)) :
    runShadowRead s q = { st := s, more := decide (n < left)
                          data := leBytes 4 (if q.glob then (if q.num 1 1 = 1 then s.cfg.activeGen else s.cfg.shadowGen)
                  else if q.num 1 1 = 1 then (s.cfg.sag q.saggar).activeGen else (s.cfg.sag q.saggar).shadowGen).toNat
                ++ leBytes 4 n
                ++ ((upFrom (q.num 4 4) n).map (fun i => leBytes size (s.entry (q.num 1 1 == 1) q.saggar (q.num 0 1) i))).flatten } := by
  subst hr
  have hin : ¬ (decide (q.num 4 4 < (s.cfg.tableRange q.saggar (q.num 0 1)).1)
      || decide ((s.cfg.tableRange q.saggar (q.num 0 1)).1 + (s.cfg.tableRange q.saggar (q.num 0 1)).2 ≤ q.num 4 4)) = true := by
    simp; omega
  simp only [runShadowRead, if_neg (saggar_there hg), hf, Bool.not_true, Bool.false_eq_true, if_false, if_neg (Nat.not_lt.mpr h1), if_neg hin,
    hsize, Option.getD_some, ← hl, ← hn, beq_iff_eq]

end

theorem runDiscard_conflict (h : s.conflicts q = true) : runDiscard s q = .refuse s erConflict 0 := if_pos h

variable (s q) in
/-- The configuration once DISCARD has made a saggar's shadow set equal to the active one. -/
def saggarDiscarded (own : CfgWord → Bool) : Config := { s.cfg with
  saggars := tset {} s.cfg.saggars q.saggar { s.cfg.sag q.saggar with
    shadow := (s.cfg.sag q.saggar).active, shadowGen := (s.cfg.sag q.saggar).shadowGen + 1 }
  lost := s.cfg.lost.filter (fun w => !own w), badWords := s.cfg.badWords.filter (fun w => !own w.1) }

section
variable (h : s.conflicts q = false) {own : CfgWord → Bool} (ho : own = (fun w => w.shadow && w.set == q.set))
include h ho

theorem runDiscard_global (hg : q.glob = true) : runDiscard s q = .ok { s with cfg := { s.cfg with
      shadow := s.cfg.active.markFailed (s.kiln.failedLeaves.filter (fun l => !bitOf s.cfg.active.disabled.toNat l))
      shadowGen := s.cfg.shadowGen + 1
      lost := s.cfg.lost.filter (fun w => !own w), badWords := s.cfg.badWords.filter (fun w => !own w.1) } }
    (leBytes 4 (s.cfg.shadowGen + 1).toNat) true := by
  subst ho
  simp only [runDiscard, h, Bool.false_eq_true, if_false, hg, if_true, State.shadowGenOf, Req.set]
  rfl

theorem runDiscard_saggar (hs : canonical s) (hg : q.glob = false) : runDiscard s q = .ok { s with cfg := saggarDiscarded s q own }
    (leBytes 4 ((s.cfg.sag q.saggar).shadowGen + 1).toNat) true := by
  have hgen : ((saggarDiscarded s q own).sag q.saggar).shadowGen = (s.cfg.sag q.saggar).shadowGen + 1 :=
    congrArg Saggar.shadowGen (tget_tset_self hs.saggars ..)
  rw [← hgen]
  subst ho
  simp only [runDiscard, h, Bool.false_eq_true, if_false, hg, State.shadowGenOf, Req.set]
  rfl

end

end

/-! COMMIT (R445, R480, R481, R569). -/

section
variable {s : State} {q : Req}

theorem runCommit_conflict (h : s.conflicts q = true) : runCommit s q = .refuse s erConflict 0 := if_pos h

variable (h : s.conflicts q = false)
include h

theorem runCommit_bad {err table k : Nat} (hb : s.badCommit q.set = some (err, table, k)) :
    runCommit s q = { st := s, err := err, data := badCommitData table k } := by
  simp only [runCommit, h, Bool.false_eq_true, if_false, hb]

variable (hb : s.badCommit q.set = none)
include hb

theorem runCommit_saggar (hw : s.cfg.swaps = []) (hg : q.glob = false) :
    runCommit s q = { st := { s with cfg := { s.cfg with swaps := [(some q.saggar, q.port, q.tag)] } }, later := true } := by
  simp only [runCommit, h, Bool.false_eq_true, if_false, hb, hg, State.modCfg, hw, List.nil_append]

/-- A global commit is an activity of the maintenance matrix. -/
theorem runCommit_global (hg : q.glob = true) : runCommit s q
    = (s.admitAct (q.act 0x0B 0 0 [] false)).elim (.refuse s erBusy 4) (fun x => { st := x.1, later := true }) := by
  simp only [runCommit, h, Bool.false_eq_true, if_false, hb, hg, if_true, Req.act]
  cases s.admitAct _ <;> rfl

end

/-! DEBUG_TABLE_POKE (R487). -/

section
variable {s : State} {q : Req}

theorem runDebugTablePoke_table (h : q.num 0 1 = 0x11 ∨ q.num 0 1 = 0x12 ∨ entrySize (q.num 0 1) = none) :
    runDebugTablePoke s q = .refuse s erInvalid 32 := if_pos (by simpa [or_assoc] using h)

/-- The tables that can be poked: the global ones from 0x10 on, the saggar ones below it. -/
theorem pokable_global : ∀ t ∈ [0x10, 0x13, 0x14, 0x15], ¬ (t == 0x11 || t == 0x12 || (entrySize t).isNone) = true ∧ 0x10 ≤ t := by decide
theorem pokable_saggar : ∀ t ∈ [0x01, 0x02], ¬ (t == 0x11 || t == 0x12 || (entrySize t).isNone) = true ∧ ¬ 0x10 ≤ t := by decide

section
variable (h : q.num 0 1 ∈ [0x10, 0x13, 0x14, 0x15])
include h

theorem runDebugTablePoke_badGlobal {d : Nat} (hb : s.badWrite q = some d) : runDebugTablePoke s q = .refuse s erInvalid d := by
  obtain ⟨ht, hge⟩ := pokable_global _ h
  simp only [runDebugTablePoke, if_neg ht, if_pos hge, hb]

theorem runDebugTablePoke_global (hb : s.badWrite q = none) : runDebugTablePoke s q = .ok { s with
    cfg := { s.cfg with active := q.putAll GlobalSet.put s.cfg.active, poked := true } } [] true := by
  obtain ⟨ht, hge⟩ := pokable_global _ h
  simp only [runDebugTablePoke, if_neg ht, if_pos hge, hb]
  rfl

end

section
variable (h : q.num 0 1 = 0x01 ∨ q.num 0 1 = 0x02)
include h

theorem runDebugTablePoke_noTarget (hk : s.pokeTarget q = none) : runDebugTablePoke s q = .refuse s erInvalid 36 := by
  obtain ⟨ht, hlt⟩ := pokable_saggar _ (by simpa using h)
  simp only [runDebugTablePoke, if_neg ht, if_neg hlt, hk]

variable {k : Nat} (hk : s.pokeTarget q = some k)
include hk

theorem runDebugTablePoke_badSaggar {d : Nat} (hb : s.badWrite { q with glob := false, saggar := k } = some d) :
    runDebugTablePoke s q = .refuse s erInvalid d := by
  obtain ⟨ht, hlt⟩ := pokable_saggar _ (by simpa using h)
  simp only [runDebugTablePoke, if_neg ht, if_neg hlt, hk, hb]

theorem runDebugTablePoke_saggar (hb : s.badWrite { q with glob := false, saggar := k } = none) :
    runDebugTablePoke s q = .ok { s with cfg := { s.cfg with saggars := tset {} s.cfg.saggars k { s.cfg.sag k with
      active := (q.putAll SaggarSet.put (s.cfg.sag k).active).clean, poked := true } } } [] true := by
  obtain ⟨ht, hlt⟩ := pokable_saggar _ (by simpa using h)
  simp only [runDebugTablePoke, if_neg ht, if_neg hlt, hk, hb]
  rfl

end

end

/-- Settles O50: each command by the reply of its own part; a COMMIT that passes leaves its port WORKING, for its answer comes with the
swap. -/
theorem configurationCommands : Obligations.ConfigurationCommands := by
  unfold Obligations.ConfigurationCommands
  refine fun p q s => ⟨fun hr => ?create, fun hr => ?destroy, fun hr all hall => ?list, fun hr => ?write, fun hr table r htable hrange => ?read,
    fun hr => ?commit, fun hr own hown => ?discard, fun hr => ?poke⟩
  case create =>
    have hexec := exec_saggarCreate p s
    refine ⟨fun h => refuses_of_run hexec hr (by decide) (runSaggarCreate_owner h), fun k h hk hf hlow hd hh => ?_,
      fun h hall => refuses_of_run hexec hr (by decide) (runSaggarCreate_full h (freeSaggar_eq_none hall))⟩
    have hrun := runSaggarCreate_creates (s := served s p) h (freeSaggar_eq_some hk hf hlow) hh
    exact exec_answers_ok hexec hr (by decide) hrun
  case destroy =>
    have hexec := exec_saggarDestroy p s
    refine ⟨fun h => refuses_of_run hexec hr (by decide) (runSaggarDestroy_global h),
      fun hg h => refuses_of_run hexec hr (by decide) (runSaggarDestroy_unknown hg h), fun hg h => ?_⟩
    rw [← ready_port hr]
    rw [← ready_port hr] at hexec hr
    exact exec_answers_ok hexec hr (by decide) (runSaggarDestroy_waits hg h)
  case list =>
    have hrun := runSaggarList_lists (s := served s p) (ready_port hr) hall
    exact exec_lists (exec_saggarList p s) hr (by decide) hrun
  case write =>
    have hexec := exec_shadowWrite p s
    refine ⟨fun h => refuses_of_run hexec hr (by decide) (runShadowWrite_conflict h),
      fun h d hb => refuses_of_run hexec hr (by decide) (runShadowWrite_bad (s := served s p) h hb),
      fun h hb hg => ?_, fun h hb hg hs => ?_⟩
    · have hrun := runShadowWrite_global (s := served s p) h hb hg
      exact exec_answers_ok hexec hr (by decide) hrun
    have hrun := runShadowWrite_saggar (s := served s p) h hb { hs with } hg
    exact exec_answers_ok hexec hr (by decide) hrun
  case read =>
    subst htable
    have hexec := exec_shadowRead p s
    refine ⟨fun hg h => refuses_of_run hexec hr (by decide) (runShadowRead_noSaggar hg h), fun hg => ⟨fun hf => ?_, fun hf h => ?_,
      fun hf h1 h => ?_, fun hf h1 hlo hup size left n hsize hl hn => ?_⟩⟩
    · exact refuses_of_run hexec hr (by decide) (runShadowRead_table hg hf)
    · exact refuses_of_run hexec hr (by decide) (runShadowRead_bank hg hf h)
    · exact refuses_of_run hexec hr (by decide) (runShadowRead_outside hg hf h1 hrange h)
    · have hrun := runShadowRead_reads (s := served s p) hg hf h1 hrange hlo hup hsize hl hn
      exact exec_lists hexec hr (by decide) hrun
  case commit =>
    have hexec := exec_commit p s
    have hp := ready_port hr
    have hswaps : s.cfg.swaps = [] := hr.2.2.1
    refine ⟨fun h => refuses_of_run hexec hr (by decide) (runCommit_conflict h), fun h err table k hb => ?_, fun h hb hg => ?_,
      fun h hb hg a ha => ?_⟩
    · rw [exec_answers hexec hr (by decide) (runCommit_bad (s := served s p) h hb) rfl]
      simp only [Bool.false_and]
      rfl
    · have hrun := runCommit_saggar (s := served s p) h hb hswaps hg
      rw [hp] at hrun
      exact exec_works_silently hexec hr (by decide) hrun
    · subst ha
      have hrun := runCommit_global (s := served s p) h hb hg
      refine ⟨fun t queued hadmit => ?_, fun hadmit => ?_⟩ <;> rw [hadmit] at hrun
      · exact exec_works_silently hexec hr (by decide) hrun
      · exact refuses_of_run hexec hr (by decide) hrun
  case discard =>
    have hexec := exec_discard p s
    refine ⟨fun h => refuses_of_run hexec hr (by decide) (runDiscard_conflict h), fun h hg => ?_, fun h hg hs => ?_⟩
    · have hrun := runDiscard_global (s := served s p) h hown hg
      exact exec_answers_ok hexec hr (by decide) hrun
    have hrun := runDiscard_saggar (s := served s p) h hown { hs with } hg
    exact exec_answers_ok hexec hr (by decide) hrun
  case poke =>
    have hexec := exec_debugTablePoke p s
    refine ⟨fun h => refuses_of_run hexec hr (by decide) (runDebugTablePoke_table h), fun h => ⟨fun d hb => ?_, fun hb => ?_⟩,
      fun h => ⟨fun hk => ?_, fun k hk => ⟨fun d hb => ?_, fun hb => ?_⟩⟩⟩
    · exact refuses_of_run hexec hr (by decide) (runDebugTablePoke_badGlobal (s := served s p) h hb)
    · exact exec_answers_ok hexec hr (by decide) (runDebugTablePoke_global h hb)
    · exact refuses_of_run hexec hr (by decide) (runDebugTablePoke_noTarget h hk)
    · exact refuses_of_run hexec hr (by decide) (runDebugTablePoke_badSaggar (s := served s p) h hk hb)
    · exact exec_answers_ok hexec hr (by decide) (runDebugTablePoke_saggar h hk hb)

end Sys2Proof.Proofs

/-! ### O54: the maintenance commands and the end of an activity -/

namespace Sys2Proof.Proofs
open Sys2Proof.Machine

theorem exec_calibrate (p : Nat) (s : State) : exec (.calibrate p) s = .next (s.command p 0x0601 runCalibrate) := rfl
theorem exec_scrub (p : Nat) (s : State) : exec (.scrub p) s = .next (s.command p 0x0602 runScrub) := rfl
theorem exec_selfTest (p : Nat) (s : State) : exec (.selfTest p) s = .next (s.command p 0x0603 runSelfTest) := rfl
theorem exec_nodeOffline (p : Nat) (s : State) : exec (.nodeOffline p) s = .next (s.command p 0x0604 runNodeOffline) := rfl
theorem exec_nodeOnline (p : Nat) (s : State) : exec (.nodeOnline p) s = .next (s.command p 0x0605 runNodeOnline) := rfl
theorem exec_planeOffline (p : Nat) (s : State) : exec (.planeOffline p) s = .next (s.command p 0x0606 runPlaneOffline) := rfl
theorem exec_planeOnline (p : Nat) (s : State) : exec (.planeOnline p) s = .next (s.command p 0x0607 runPlaneOnline) := rfl
theorem exec_leafOffline (p : Nat) (s : State) : exec (.leafOffline p) s = .next (s.command p 0x0608 (runOnLeaf 0x08)) := rfl
theorem exec_leafOnline (p : Nat) (s : State) : exec (.leafOnline p) s = .next (s.command p 0x0609 (runOnLeaf 0x09)) := rfl
theorem exec_maintStatus (p : Nat) (s : State) : exec (.maintStatus p) s = .next (s.command p 0x060A runMaintStatus) := rfl

/-! The maintenance matrix admits, queues or refuses (R569). -/

section
variable {s : State} {a : Activity}

theorem admitAct_refuse (h : s.ctl.judge { a with id := s.ctl.nextAct } = .refuse) : s.admitAct a = none := by
  simp only [State.admitAct, h]

theorem admitAct_queue (h : s.ctl.judge { a with id := s.ctl.nextAct } = .queue) : s.admitAct a = some ({ s with ctl := { s.ctl with
    acts := s.ctl.acts ++ [{ a with id := s.ctl.nextAct, queued := true }], nextAct := s.ctl.nextAct + 1 } }, true) := by
  simp only [State.admitAct, h, State.modCtlr]

theorem admitAct_start (h : s.ctl.judge { a with id := s.ctl.nextAct } = .start) : s.admitAct a = some (({ s with ctl := { s.ctl with
    acts := s.ctl.acts ++ [{ a with id := s.ctl.nextAct, queued := false }], nextAct := s.ctl.nextAct + 1 } } : State).startAct
      { a with id := s.ctl.nextAct }, false) := by
  simp only [State.admitAct, h, State.modCtlr]

theorem startReply_admitted {t : State} {queued : Bool} (h : s.admitAct a = some (t, queued)) :
    s.startReply a = .ok t.offer (leBytes 1 (b2n queued)) true := by
  simp only [State.startReply, h]

theorem startReply_refused (h : s.admitAct a = none) : s.startReply a = .refuse s erBusy 4 := by
  simp only [State.startReply, h]

/-- A command whose own part asks for an activity. -/
theorem starts_of_run {p code : Nat} {q : Req} {run : State → Req → Reply} {i : Instr} (hi : exec i s = .next (s.command p code run))
    (hr : ready s p code q) (hc : code ≠ 1) (hrun : run (served s p) q = (served s p).startReply a) : starts s p q i a :=
  ⟨fun _ _ h => exec_answers_ok hi hr hc (hrun.trans (startReply_admitted h)),
    fun h => refuses_of_run hi hr hc (hrun.trans (startReply_refused h))⟩

end

/-! What each command refuses by itself, and the activity that it asks for. -/

section
variable {s : State} {q : Req}

theorem runCalibrate_mask (h : s.maskOk (q.num 0 4) = false) : runCalibrate s q = .refuse s erInvalid 32 := if_pos (by rw [h]; rfl)

/-- CALIBRATE asks for one activity for each die slot. -/
theorem runCalibrate_asks (h : s.maskOk (q.num 0 4) = true) {as : List Activity}
    (ha : as = (maskDies (q.num 0 4)).map (fun d => q.act 0x01 d 0 [d] false)) :
    runCalibrate s q = (s.admitAll as).elim (.refuse s erBusy 4) (fun x => .ok x.1 (leBytes 1 (b2n x.2)) true) := by
  rw [runCalibrate, h, ← ha]
  cases s.admitAll as <;> rfl

theorem runSelfTest_bad {d : Nat} (h : s.badNode q = some d) : runSelfTest s q = .refuse s erInvalid d := by simp only [runSelfTest, h]
theorem runNodeOffline_bad {d : Nat} (h : s.badNode q = some d) : runNodeOffline s q = .refuse s erInvalid d := by simp only [runNodeOffline, h]
theorem runNodeOnline_bad {d : Nat} (h : s.badNode q = some d) : runNodeOnline s q = .refuse s erInvalid d := by simp only [runNodeOnline, h]

section
variable (h : s.badNode q = none)
include h

theorem runSelfTest_sibling (ho : s.siblingOut (q.num 0 4) (q.num 4 1) = true ∨ (q.num 4 1 = 3 ∧ (s.stat (q.num 0 4)).pairOut = false)) :
    runSelfTest s q = .refuse s erInvalid 36 := by
  simp only [runSelfTest, h]
  exact if_pos (by simpa using ho)

theorem runSelfTest_starts (ho : s.siblingOut (q.num 0 4) (q.num 4 1) = false) (hp : q.num 4 1 = 3 → (s.stat (q.num 0 4)).pairOut = true) :
    runSelfTest s q = s.startReply (q.nodeAct 0x03) := by
  simp only [runSelfTest, h]
  exact if_neg (by simpa [ho] using hp)

theorem runNodeOffline_sibling (ho : s.siblingOut (q.num 0 4) (q.num 4 1) = true ∨ (q.num 4 1 = 3 ∧ q.num 0 4 / 4 % 2 = 1)) :
    runNodeOffline s q = .refuse s erInvalid 36 := by
  simp only [runNodeOffline, h]
  exact if_pos (by simpa using ho)

theorem runNodeOffline_starts (ho : s.siblingOut (q.num 0 4) (q.num 4 1) = false) (hp : q.num 4 1 = 3 → q.num 0 4 / 4 % 2 = 0) :
    runNodeOffline s q = s.startReply (q.nodeAct 0x04) := by
  simp only [runNodeOffline, h]
  exact if_neg (by simpa [ho] using hp)

theorem runNodeOnline_starts : runNodeOnline s q = s.startReply (q.nodeAct 0x05) := by simp only [runNodeOnline, h]

end

theorem runPlaneOffline_bad {d : Nat} (h : s.badPlane q = some d) : runPlaneOffline s q = .refuse s erInvalid d := by
  simp only [runPlaneOffline, h]

theorem runPlaneOnline_bad {d : Nat} (h : s.badPlane q = some d) : runPlaneOnline s q = .refuse s erInvalid d := by
  simp only [runPlaneOnline, h]

section
variable (h : s.badPlane q = none)
include h

theorem runPlaneOffline_only (ho : s.onlyPlane (q.num 0 1) (maskDies (q.num 4 4)) = true) : runPlaneOffline s q = .refuse s erInvalid 32 := by
  simp only [runPlaneOffline, h, if_pos ho]

theorem runPlaneOffline_starts (ho : s.onlyPlane (q.num 0 1) (maskDies (q.num 4 4)) = false) :
    runPlaneOffline s q = s.startReply (s.planeAct q 0x06) := by
  simp only [runPlaneOffline, h, ho, Bool.false_eq_true, if_false]

theorem runPlaneOnline_starts : runPlaneOnline s q = s.startReply (s.planeAct q 0x07) := by simp only [runPlaneOnline, h]

end

theorem runOnLeaf_unknown (code : Nat) (h : s.leafExists (q.num 0 2) = false) : runOnLeaf code s q = .refuse s erInvalid 32 :=
  if_pos (by rw [h]; rfl)

theorem runOnLeaf_starts (code : Nat) (h : s.leafExists (q.num 0 2) = true) :
    runOnLeaf code s q = s.startReply (q.act code (q.num 0 2) 0 [q.num 0 2 / 256] false) := if_neg (by rw [h]; decide)

end

/-! The end of an activity (R571, R578, R580). -/

section
variable {id : Nat} {failed : List Part} {finds : List ScrubFind} {s : State} {a : Activity}

theorem exec_maintActivityEnd_unknown (h : s.ctl.acts.find? (fun x => x.id == id && !x.queued) = none) :
    exec (.maintActivityEnd id ⟨failed, finds⟩) s = .next s := by
  simp only [exec, execMaintActivityEnd, h]

/-- The row ends a running activity where it can end. -/
theorem exec_maintActivityEnd_running (h : s.ctl.acts.find? (fun x => x.id == id && !x.queued) = some a) :
    exec (.maintActivityEnd id ⟨failed, finds⟩) s = (s.actEnds a failed finds).elim (.next s) (fun x => .next (x.1.endAct x.2.1 x.2.2).offer) := by
  simp only [exec, execMaintActivityEnd, h]
  cases s.actEnds a failed finds <;> rfl

theorem actEnds_unregistered (h : (s.outParts a).all s.lossKnown = false) : s.actEnds a failed finds = none := if_pos (by rw [h]; rfl)

theorem outParts_scrub (h : a.code = 0x02) : s.outParts a = [] := by simp only [State.outParts, h]

theorem actEnds_scrub (h : a.code = 0x02) : s.actEnds a failed finds = some (finds.foldl State.scrubOne s, a, 0) := by
  simp only [State.actEnds, outParts_scrub h, List.all_nil, Bool.not_true, Bool.false_eq_true, if_false, h]

section
variable (h : a.code = 0x09) (hk : (s.outParts a).all s.lossKnown = true)
include h hk

/-- The end of a leaf's online, whose loss the kiln knows. -/
theorem actEnds_leafOnline : s.actEnds a failed finds
    = if s.leafTestFailed a.target failed || !(s.lostSince a).isEmpty then some (s, a, 1) else some (s.leafBack a.target, a, 0) := by
  simp only [State.actEnds, hk, Bool.not_true, Bool.false_eq_true, if_false, h]

theorem actEnds_leafStays (hf : s.leafTestFailed a.target failed = true ∨ s.lostSince a ≠ []) :
    s.actEnds a failed finds = some (s, a, 1) := by
  rw [actEnds_leafOnline h hk, if_pos (by simpa using hf)]

theorem actEnds_leafBack (hf : s.leafTestFailed a.target failed = false) (hl : s.lostSince a = []) :
    s.actEnds a failed finds = some (s.leafBack a.target, a, 0) := by
  rw [actEnds_leafOnline h hk, if_neg (by simp [hf, hl])]

end

end

/-- Settles O54: each command by the activity that its own part asks for, which the matrix admits or refuses; the end of an activity by
what it does when it can end. -/
theorem maintenanceCommands : Obligations.MaintenanceCommands := by
  unfold Obligations.MaintenanceCommands
  refine ⟨fun p q s => ⟨fun hr => ?calibrate, fun hr => ?scrub, fun hr => ?selfTest, fun hr => ?nodeOff, fun hr => ?nodeOn, fun hr => ?planeOff,
    fun hr => ?planeOn, fun hr => ?leafOff, fun hr => ?leafOn, fun hr => ?status⟩,
    fun a s => ⟨admitAct_refuse, admitAct_queue, admitAct_start⟩, fun id failed finds s => ⟨exec_maintActivityEnd_unknown, fun a ha => ?ends⟩⟩
  case calibrate =>
    have hexec := exec_calibrate p s
    refine ⟨fun h => refuses_of_run hexec hr (by decide) (runCalibrate_mask h), fun h as has => ?_⟩
    have hrun := runCalibrate_asks (s := served s p) h has
    refine ⟨fun t queued hadmit => ?_, fun hadmit => ?_⟩ <;> rw [hadmit] at hrun
    · exact exec_answers_ok hexec hr (by decide) hrun
    · exact refuses_of_run hexec hr (by decide) hrun
  case scrub => exact starts_of_run (exec_scrub p s) hr (by decide) rfl
  case selfTest =>
    have hexec := exec_selfTest p s
    exact ⟨fun d h => refuses_of_run hexec hr (by decide) (runSelfTest_bad (s := served s p) h),
      fun h ho => refuses_of_run hexec hr (by decide) (runSelfTest_sibling (s := served s p) h ho),
      fun h ho hp => starts_of_run hexec hr (by decide) (runSelfTest_starts (s := served s p) h ho hp)⟩
  case nodeOff =>
    have hexec := exec_nodeOffline p s
    exact ⟨fun d h => refuses_of_run hexec hr (by decide) (runNodeOffline_bad (s := served s p) h),
      fun h ho => refuses_of_run hexec hr (by decide) (runNodeOffline_sibling (s := served s p) h ho),
      fun h ho hp => starts_of_run hexec hr (by decide) (runNodeOffline_starts (s := served s p) h ho hp)⟩
  case nodeOn =>
    have hexec := exec_nodeOnline p s
    exact ⟨fun d h => refuses_of_run hexec hr (by decide) (runNodeOnline_bad (s := served s p) h),
      fun h => starts_of_run hexec hr (by decide) (runNodeOnline_starts (s := served s p) h)⟩
  case planeOff =>
    have hexec := exec_planeOffline p s
    exact ⟨fun d h => refuses_of_run hexec hr (by decide) (runPlaneOffline_bad (s := served s p) h),
      fun h ho => refuses_of_run hexec hr (by decide) (runPlaneOffline_only (s := served s p) h ho),
      fun h ho => starts_of_run hexec hr (by decide) (runPlaneOffline_starts (s := served s p) h ho)⟩
  case planeOn =>
    have hexec := exec_planeOnline p s
    exact ⟨fun d h => refuses_of_run hexec hr (by decide) (runPlaneOnline_bad (s := served s p) h),
      fun h => starts_of_run hexec hr (by decide) (runPlaneOnline_starts (s := served s p) h)⟩
  case leafOff =>
    have hexec := exec_leafOffline p s
    exact ⟨fun h => refuses_of_run hexec hr (by decide) (runOnLeaf_unknown 0x08 h),
      fun h => starts_of_run hexec hr (by decide) (runOnLeaf_starts 0x08 h)⟩
  case leafOn =>
    have hexec := exec_leafOnline p s
    exact ⟨fun h => refuses_of_run hexec hr (by decide) (runOnLeaf_unknown 0x09 h),
      fun h => starts_of_run hexec hr (by decide) (runOnLeaf_starts 0x09 h)⟩
  case status => exact exec_lists (exec_maintStatus p s) hr (by decide) rfl
  case ends =>
    have hend := exec_maintActivityEnd_running (failed := failed) (finds := finds) ha
    exact ⟨fun h => by rw [hend, h, Option.elim_none], fun t b o h => by rw [hend, h, Option.elim_some], actEnds_unregistered, actEnds_scrub,
      fun hc hk => ⟨actEnds_leafStays hc hk, actEnds_leafBack hc hk⟩⟩

end Sys2Proof.Proofs

/-! ### O55: firmware update, activation, exceptions and restart -/

namespace Sys2Proof.Proofs
open Sys2Proof.Machine

theorem exec_fwStatus (p : Nat) (s : State) : exec (.fwStatus p) s = .next (s.command p 0x0704 runFwStatus) := rfl
theorem exec_fwStage (p : Nat) (s : State) : exec (.fwStage p) s = .next (s.command p 0x0701 runFwStage) := rfl
theorem exec_fwVerify (p : Nat) (s : State) : exec (.fwVerify p) s = .next (s.command p 0x0702 runFwVerify) := rfl
theorem exec_fwActivate (p : Nat) (s : State) : exec (.fwActivate p) s = .next (s.command p 0x0703 runFwActivate) := rfl
theorem exec_backgroundCommandDone (s : State) : exec .backgroundCommandDone s = execBackgroundCommandDone s := rfl
theorem exec_fwActivationSwitch (s : State) : exec .fwActivationSwitch s = execFwActivationSwitch s := rfl
theorem exec_fwBankConfirm (s : State) : exec .fwBankConfirm s = execFwBankConfirm s := rfl
theorem exec_fwFallback (s : State) : exec .fwFallback s = execFwFallback s := rfl
theorem exec_controllerException (k : ExcKind) (pc sp : Word) (s : State) :
    exec (.controllerException k pc sp) s = execControllerException k pc sp s := rfl
theorem exec_watchdogExpiry (pc sp : Word) (s : State) : exec (.watchdogExpiry pc sp) s = execWatchdogExpiry pc sp s := rfl

/-! Staging and verifying (R426, R457). -/

section
variable {s : State} {q : Req}

theorem runFwStage_busy (h : s.ctl.background ≠ none) : runFwStage s q = .refuse s erBusy 7 :=
  if_pos (Option.isSome_iff_ne_none.mpr h)

theorem runFwVerify_busy (h : s.ctl.background ≠ none) : runFwVerify s q = .refuse s erBusy 7 :=
  if_pos (Option.isSome_iff_ne_none.mpr h)

section
variable (h : s.ctl.background = none)
include h

theorem runFwStage_empty (h0 : q.num 4 2 = 0) : runFwStage s q = .refuse s erInvalid 36 := by
  simp only [runFwStage, h, Option.isSome_none, Bool.false_eq_true, if_false, h0, beq_self_eq_true, if_true]

theorem runFwStage_beyond (h0 : q.num 4 2 ≠ 0) (hb : 0x80000 < q.num 0 4 + q.num 4 2) : runFwStage s q = .refuse s erInvalid 32 := by
  simp only [runFwStage, h, Option.isSome_none, Bool.false_eq_true, if_false, beq_iff_eq, if_neg h0]
  exact if_pos hb

/-- The controller whose inactive bank holds the bytes of a FW_STAGE. -/
def bankStaged (c : Controller) (q : Req) : Controller :=
  c.modSpare (fun b => { b with st := .staged, bytes := tsetRun 0 b.bytes (q.num 0 4) (bytesAt q.data 16 (q.num 4 2)) })

theorem runFwStage_stages (h0 : q.num 4 2 ≠ 0) (hb : q.num 0 4 + q.num 4 2 ≤ 0x80000) :
    runFwStage s q = .background { s with ctl := bankStaged s.ctl q } q 0 0 [] := by
  simp only [runFwStage, h, Option.isSome_none, Bool.false_eq_true, if_false, beq_iff_eq, if_neg h0]
  exact if_neg (Nat.not_lt.mpr hb)

theorem runFwVerify_fails {d : Nat} (hv : s.ctl.verifyFails = some d) : runFwVerify s q
    = .background { s with ctl := s.ctl.modSpare (fun b => { b with st := .failed }) } q erSignature d [] := by
  simp only [runFwVerify, h, Option.isSome_none, Bool.false_eq_true, if_false, hv]
  rfl

/-- The version of a bank, as FW_VERIFY answers it. -/
def bankVersion (b : Bank) : List Byte := [b.major, b.minor] ++ leBytes 2 b.patch.toNat ++ leBytes 2 b.secVer.toNat

theorem runFwVerify_passes (hv : s.ctl.verifyFails = none) {c : Controller} (hc : c = s.ctl.modSpare (fun b => b.named .verified)) :
    runFwVerify s q = .background { s with ctl := c } q 0 0 (bankVersion c.spare) := by
  simp only [runFwVerify, h, Option.isSome_none, Bool.false_eq_true, if_false, hv, hc]
  rfl

end

/-- A background command leaves its port WORKING, its answer kept for BACKGROUND_COMMAND_DONE. -/
theorem exec_background {p code : Nat} {run : State → Req → Reply} {i : Instr} (hi : exec i s = .next (s.command p code run))
    (hr : ready s p code q) (hc : code ≠ 1) {c : Controller} {err d : Nat} {data : List Byte}
    (hrun : run (served s p) q = .background { s with ctl := c } q err d data) :
    exec i s = .next (working { s with ctl := { c with
      background := some (p, q.tag, responseBytes (s.port p).version code q.tag err d false data) } } q (err == 0)) := by
  rw [exec_works hi hr hc hrun rfl, Reply.background, ready_port hr, ready_code hr]
  rfl

end

/-! Activation (R458). -/

section
variable {s : State} {q : Req}

theorem runFwActivate_notVerified (h : s.ctl.spare.st ≠ .verified) : runFwActivate s q = .refuse s erNotVerified 0 :=
  if_pos (by simpa using h)

variable (h : s.ctl.spare.st = .verified)
include h

theorem runFwActivate_version (hv : s.ctl.spare.major.toNat ≠ q.num 0 1 ∨ s.ctl.spare.minor.toNat ≠ q.num 1 1
    ∨ s.ctl.spare.patch.toNat ≠ q.num 2 2) : runFwActivate s q = .refuse s erInvalid 32 :=
  (if_neg (by simp [h])).trans (if_pos (by simpa [or_assoc] using hv))

variable (h1 : s.ctl.spare.major.toNat = q.num 0 1) (h2 : s.ctl.spare.minor.toNat = q.num 1 1) (h3 : s.ctl.spare.patch.toNat = q.num 2 2)
include h1 h2 h3

/-- FW_ACTIVATE of the version that the verified bank holds. -/
theorem runFwActivate_named : runFwActivate s q = if s.ctl.background.isSome then .refuse s erBusy 7
    else (s.admitAct (q.act 0x0A 0 0 [] false)).elim (.refuse s erBusy 4)
      (fun x => .ok (State.busyPending { x.1 with ctl := { x.1.ctl with phase := .switching } } (some q.port)) [] true) := by
  refine (if_neg (by simp [h])).trans ((if_neg (by simp [h1, h2, h3])).trans ?_)
  cases s.admitAct (q.act 0x0A 0 0 [] false) <;> rfl

theorem runFwActivate_busy (hb : s.ctl.background ≠ none) : runFwActivate s q = .refuse s erBusy 7 := by
  rw [runFwActivate_named h h1 h2 h3, if_pos (Option.isSome_iff_ne_none.mpr hb)]

variable (hb : s.ctl.background = none)
include hb

theorem runFwActivate_refused (ha : s.admitAct (q.act 0x0A 0 0 [] false) = none) : runFwActivate s q = .refuse s erBusy 4 := by
  rw [runFwActivate_named h h1 h2 h3, hb, ha]
  rfl

theorem runFwActivate_activates {t : State} {queued : Bool} (ha : s.admitAct (q.act 0x0A 0 0 [] false) = some (t, queued)) :
    runFwActivate s q = .ok (State.busyPending { t with ctl := { t.ctl with phase := .switching } } (some q.port)) [] true := by
  rw [runFwActivate_named h h1 h2 h3, hb, ha]
  rfl

end

/-! BACKGROUND_COMMAND_DONE (R426, R434). -/

section
variable {x : Port} {tag : BitVec 16}

theorem finish_awaited (hw : x.st = .working) (hc : x.curTag = tag) (hl : x.lastTag = some tag) (bytes : List Byte) :
    x.finish tag bytes = { x with
      stored := bytes, resp := tsetRun 0 x.resp 0 bytes, st := .done, intStatus := setBit x.intStatus mbDone } := by
  subst hc
  simp only [Port.finish, hl, beq_self_eq_true, if_true, hw, Bool.and_true, Port.show]

theorem finish_forgotten (hw : x.st ≠ .working) (hl : x.lastTag ≠ some tag) (bytes : List Byte) : x.finish tag bytes = x := by
  have hst : (x.st == .working) = false := beq_eq_false_iff_ne.mpr hw
  have htag : (x.lastTag == some tag) = false := beq_eq_false_iff_ne.mpr hl
  simp only [Port.finish, htag, Bool.false_eq_true, if_false, hst, Bool.false_and]

end

/-! Changes of the ports. -/

/-- `t` is `s` but for the ports, and the Host Notify sequence that an interrupt starts. -/
structure portsOnly (s t : State) : Prop where
  eq : t = { s with ports := t.ports, smb := t.smb }

theorem portsOnly.refl (s : State) : portsOnly s s := ⟨rfl⟩
theorem portsOnly.trans {s t u : State} (h : portsOnly s t) (k : portsOnly t u) : portsOnly s u := ⟨by rw [k.eq, h.eq]⟩

theorem portsOnly_modPort (s : State) (p : Nat) (f : Port → Port) : portsOnly s (s.modPort p f) := ⟨by rw [modPort_eq, setPort_eq]⟩

/-- Changing some ports, each in its own way. -/
def onPorts (ps : List Nat) (f : Nat → Port → Port) (s : State) : State := ps.foldl (fun a p => a.modPort p (f p)) s

section
variable (ps : List Nat) (f : Nat → Port → Port) (s : State)

theorem portsOnly_onPorts : portsOnly s (onPorts ps f s) := foldl_rel .refl .trans (fun a p => portsOnly_modPort a p _) ps s

theorem onPorts_ports : (onPorts ps f s).ports = ps.foldl (fun t p => tmod {} t p (f p)) s.ports :=
  (List.foldl_hom State.ports (fun a p => (setPort_ports a p _).symm)).symm

variable {ps f s}

theorem port_onPorts (hs : tableWf {} s.ports = true) (hn : ps.Nodup) {p : Nat} (hp : p ∈ ps) :
    (onPorts ps f s).port p = f p (s.port p) := by
  rw [State.port, onPorts_ports]
  exact tget_foldl_tmod (key := id) ps hs (by rwa [List.map_id]) hp

/-- A change of a port that clears no interrupt cause. -/
theorem keepsCauses_modPort (s : State) (p : Nat) {g : Port → Port}
    (h : ∀ x i, bitOf x.intStatus.toNat i = true → bitOf (g x).intStatus.toNat i = true) : keepsCauses s (s.modPort p g) := by
  refine fun w => ⟨by rw [modPort_eq, setPort_ports]; exact tableWf_tset w _ _, fun k i hi => ?_⟩
  rw [modPort_eq]
  by_cases hk : k = p
  · subst hk
    rw [port_setPort w]
    exact h _ i hi
  · rwa [port_setPort_ne s _ hk]

theorem keepsCauses_onPorts (h : ∀ p x i, bitOf x.intStatus.toNat i = true → bitOf (f p x).intStatus.toNat i = true) :
    keepsCauses s (onPorts ps f s) := foldl_rel .refl .trans (fun a p => keepsCauses_modPort a p (h p)) ps s

/-- A response shown clears no interrupt cause. -/
theorem causes_show {x : Port} {i : Nat} (h : bitOf x.intStatus.toNat i = true) (tag : BitVec 16) (bytes : List Byte) :
    bitOf (x.show tag bytes).intStatus.toNat i = true := bitOf_setBit_of_bitOf h mbDone

end

section
variable (s : State)

theorem portsOnly_answerBusy (p : Nat) : portsOnly s (s.answerBusy p) := portsOnly_modPort ..

theorem portsOnly_busyPending (but : Option Nat) : portsOnly s (s.busyPending but) := by
  refine foldl_rel .refl .trans (fun a p => ?_) _ s
  split
  · exact portsOnly_answerBusy a p
  · exact .refl a

theorem keepsCauses_busyPending (but : Option Nat) : keepsCauses s (s.busyPending but) := by
  refine foldl_rel .refl .trans (fun a p => ?_) _ s
  split
  · exact keepsCauses_modPort a p fun _ _ h => causes_show h _ _
  · exact .refl a

/-- What answerWorking shows in a port. -/
def workingAnswered (p : Nat) (x : Port) : Port :=
  if x.st == .working && !s.cfg.swaps.any (fun w => w.2.1 == p && w.2.2 == x.curTag) then
    x.show x.curTag (responseBytes x.version (x.request p).code x.curTag erMcRestarted (b2n (x.lastEffect == some x.curTag)) false [])
  else x

theorem answerWorking_eq : s.answerWorking = onPorts (List.range 18) (workingAnswered s) s := rfl

theorem keepsCauses_answerWorking : keepsCauses s s.answerWorking := by
  rw [answerWorking_eq]
  refine keepsCauses_onPorts fun p x i h => ?_
  unfold workingAnswered
  split
  · exact causes_show h _ _
  · exact h

/-- What a restart leaves of a port: its session where the image supports it. -/
def portRestarted (c : Controller) (x : Port) : Port := { x with
  lastTag := none, stored := []
  session := x.session.filter (fun v => (c.runMajor == 2 && c.runMinor == 4) || Config.imageSupports c.runMajor c.runMinor c.runPatch v) }

theorem afterRestart_eq : s.afterRestart
    = onPorts (List.range 18) (fun _ => portRestarted s.ctl) { s with ctl := { s.ctl with snaps := [] } } := rfl

theorem afterRestart_frame : s.afterRestart = { s with
    ctl := { s.ctl with snaps := [] }, ports := s.afterRestart.ports, smb := s.afterRestart.smb } := by
  rw [afterRestart_eq, (portsOnly_onPorts ..).eq]

theorem keepsCauses_afterRestart : keepsCauses s s.afterRestart := by
  have hports : keepsCauses { s with ctl := { s.ctl with snaps := [] } } s.afterRestart := by
    rw [afterRestart_eq]
    exact keepsCauses_onPorts fun _ _ _ h => h
  exact hports

theorem lastTag_afterRestart (hs : tableWf {} s.ports = true) {p : Nat} (hp : p < 18) : (s.afterRestart.port p).lastTag = none := by
  rw [afterRestart_eq, port_onPorts _ List.nodup_range (List.mem_range.mpr hp)]
  · rfl
  · exact hs

end

/-! A new image takes over (R366, R459, R460, R561). -/

section
variable (s : State) (b : Bank)

/-- The controller whose image is that of a bank. -/
def imageRunning : State := { s with ctl := { s.ctl.runs b s.time with imageOk := true } }

theorem imageTakesOver_booted (h : s.ctl.booted = true) : s.imageTakesOver b = (imageRunning s b).afterRestart.rekey 2 := if_pos h

theorem imageTakesOver_starting (h : s.ctl.booted = false) : s.imageTakesOver b = { (imageRunning s b).afterRestart with
    ctl := { (imageRunning s b).afterRestart.ctl with phase := .readConfig } } := if_neg (by rw [h]; decide)

/-- What a new image takes over as it stands. -/
structure takenOver (t : State) : Prop where
  snaps  : t.ctl.snaps = []
  active : t.cfg.active = s.cfg.active
  shadow : t.cfg.shadow = s.cfg.shadow
  major  : t.ctl.runMajor = b.major
  minor  : t.ctl.runMinor = b.minor
  bank   : t.ctl.activeB = s.ctl.activeB
  leaves : t.leaves = s.leaves
  links  : t.links = s.links
  nodes  : t.nodes = s.nodes
  kiln   : t.kiln = s.kiln

theorem takenOver_imageTakesOver : takenOver s b (s.imageTakesOver b) := by
  cases h : s.ctl.booted with
  | true =>
    rw [imageTakesOver_booted s b h, (recordsOnly_rekey _ 2).eq, afterRestart_frame]
    exact ⟨rfl, rfl, rfl, rfl, rfl, rfl, rfl, rfl, rfl, rfl⟩
  | false =>
    rw [imageTakesOver_starting s b h, afterRestart_frame]
    exact ⟨rfl, rfl, rfl, rfl, rfl, rfl, rfl, rfl, rfl, rfl⟩

end

section
variable {s : State}

theorem execFwActivationSwitch_idle (h : s.ctl.phase ≠ .switching ∨ imageValid s.ctl.spare.image = false) :
    execFwActivationSwitch s = .next s := if_pos (by simpa using h)

theorem execFwActivationSwitch_switches (h : s.ctl.phase = .switching) (hv : imageValid s.ctl.spare.image = true) {u : State}
    (hu : u = ({ s with ctl := { s.ctl with confirm := some (!s.ctl.activeB, s.time) } } : State).imageTakesOver s.ctl.spare) :
    execFwActivationSwitch s = .next (if s.ctl.booted then u.servesAgain 3 0 0 else u) := by
  subst hu
  exact if_neg (by simp [h, hv])

/-! The boot store records a bank (R459). -/

theorem execFwBankConfirm_none (h : s.ctl.confirm = none) : execFwBankConfirm s = .next s := by simp only [execFwBankConfirm, h]

theorem execFwBankConfirm_eq {b : Bool} {since : Quad} (h : s.ctl.confirm = some (b, since)) : execFwBankConfirm s
    = .next (if s.ctl.phase == .serving && s.passed since 100000000 then { s with ctl := s.ctl.records b } else s) := by
  simp only [execFwBankConfirm, h]
  rfl

/-- Once a bank is recorded it is the only active one. -/
theorem records_spec (c : Controller) (b : Bool) : ((c.records b).bank b).st = .active ∧ ((c.records b).bank (!b)).st ≠ .active := by
  have hmine : (c.records b).bank b = { c.bank b with st := .active } := by cases b <;> rfl
  have hother : (c.records b).bank (!b) = (c.bank (!b)).demoted := by cases b <;> rfl
  rw [hmine, hother]
  refine ⟨rfl, ?_⟩
  unfold Bank.demoted
  split
  · exact BankState.noConfusion
  · next h => exact fun he => h (by rw [he]; rfl)

/-! FW_FALLBACK (R459, R466). -/

theorem execFwFallback_idle (h : s.ctl.fallsBack = false) : execFwFallback s = .next s := if_pos (by rw [h]; rfl)

variable (h : s.ctl.fallsBack = true) {c : Controller}
  (hc : c = { s.ctl.modSpare (fun x => { x with st := .failed }) with confirm := none })
include h hc

theorem execFwFallback_safe (hv : imageValid (s.ctl.bank s.ctl.activeB).image = false) :
    execFwFallback s = .next (({ s with ctl := c } : State).safeMode 6) := by
  subst hc
  exact (if_neg (by rw [h]; decide)).trans (if_pos (by rw [hv]; rfl))

theorem execFwFallback_starts (hv : imageValid (s.ctl.bank s.ctl.activeB).image = true) {u : State}
    (hu : u = ({ s with ctl := { c with quietFallback := true } } : State).imageTakesOver (s.ctl.bank s.ctl.activeB)) :
    execFwFallback s = .next (if s.ctl.booted then u.servesAgain 4 s.ctl.fallCause 1
      else (u.controllerEvent 4 s.ctl.fallCause).endActivation 1) := by
  subst hu hc
  exact (if_neg (by rw [h]; decide)).trans (if_neg (by rw [hv]; decide))

end

/-! Which exceptions take the hardware path (R461, R464). -/

section
variable {s : State} {pc sp : Word}

theorem execControllerException_handled {k : ExcKind} (h : s.ctl.excCause k sp = none) : execControllerException k pc sp s = .next s := by
  simp only [execControllerException, h]

theorem execControllerException_faults {k : ExcKind} {c : ExcCause} (h : s.ctl.excCause k sp = some c) :
    execControllerException k pc sp s = .next (s.controllerFaults c pc sp) := by
  simp only [execControllerException, h]

theorem excCause_onEmergency {c : Controller} (h : c.onEmergency = true) : c.excCause .core sp = some .onEmergency := if_pos h

theorem excCause_core {c : Controller} (h : c.onEmergency = false) : c.excCause .core sp = if c.stackBad sp then some .badStack else none :=
  if_neg (by rw [h]; decide)

theorem excCause_badStack {c : Controller} (h : c.onEmergency = false)
    (hb : sp.toNat % 8 ≠ 0 ∨ c.stackHigh.toNat < sp.toNat ∨ sp.toNat < c.stackLow.toNat + Config.excFrame) :
    c.excCause .core sp = some .badStack := by
  rw [excCause_core h, if_pos]
  simpa [Controller.stackBad, or_assoc] using hb

theorem excCause_handled {c : Controller} (h : c.onEmergency = false) (h8 : sp.toNat % 8 = 0) (hhi : sp.toNat ≤ c.stackHigh.toNat)
    (hlo : c.stackLow.toNat + Config.excFrame ≤ sp.toNat) : c.excCause .core sp = none := by
  rw [excCause_core h, if_neg]
  simp [Controller.stackBad, h8, Nat.not_lt.mpr hhi, Nat.not_lt.mpr hlo]

end

/-! The hardware path (R462, R463). -/

/-- `t` is `s` but for the controller, the ports, the status of nodes and records. -/
structure controllerOnly (s t : State) : Prop where
  eq : t = { s with ctl := t.ctl, nodes := t.nodes, ctls := t.ctls, ports := t.ports, smb := t.smb, trace := t.trace, counters := t.counters }

theorem controllerOnly.refl (s : State) : controllerOnly s s := ⟨rfl⟩
theorem controllerOnly.trans {s t u : State} (h : controllerOnly s t) (k : controllerOnly t u) : controllerOnly s u := ⟨by rw [k.eq, h.eq]⟩
theorem portsOnly.controllerOnly {s t : State} (h : portsOnly s t) : controllerOnly s t := ⟨by rw [h.eq]⟩
theorem controllerOnly_of_recordsOnly {s t : State} (h : recordsOnly s t) : controllerOnly s t := ⟨by rw [h.eq]⟩

section
variable (s : State)

/-- The state under another controller. -/
def withCtl (c : Controller) : State := { s with ctl := c }

theorem ports_withCtl (c : Controller) : (withCtl s c).ports = s.ports := rfl
theorem port_withCtl (c : Controller) (p : Nat) : (withCtl s c).port p = s.port p := rfl
theorem controllerOnly_withCtl (c : Controller) : controllerOnly s (withCtl s c) := ⟨rfl⟩

/-- The state whose controller raises MC_FAULT, before the ports show it. -/
def faultRaised : State := withCtl s { s.ctl with mcFault := true, onEmergency := true }

/-- MC_FAULT raised in the controller and at every port. -/
def faultShown : State := onPorts (List.range 18) (fun _ x => { x with intStatus := setBit x.intStatus mbMcFault }) (faultRaised s)

theorem portsOnly_faultShown : portsOnly (faultRaised s) (faultShown s) := portsOnly_onPorts ..

theorem recordsOnly_raiseFault (cause : Nat) : recordsOnly (faultShown s) (s.raiseFault cause) := recordsOnly_controllerEvent ..

theorem raiseFault_ctl (cause : Nat) : (s.raiseFault cause).ctl = { s.ctl with mcFault := true, onEmergency := true } := by
  rw [(recordsOnly_raiseFault s cause).eq, (portsOnly_faultShown s).eq]
  rfl

theorem controllerOnly_raiseFault (cause : Nat) : controllerOnly s (s.raiseFault cause) := by
  have hraised : controllerOnly s (faultRaised s) := controllerOnly_withCtl ..
  have hshown : controllerOnly s (faultShown s) := hraised.trans (portsOnly_faultShown s).controllerOnly
  exact hshown.trans (controllerOnly_of_recordsOnly (recordsOnly_raiseFault s cause))

theorem keepsCauses_faultShown : keepsCauses (faultRaised s) (faultShown s) :=
  keepsCauses_onPorts fun _ _ _ h => bitOf_setBit_of_bitOf h _

/-- After the fault is raised, every port's interrupt cause of it stands. -/
theorem mcFault_raiseFault (hs : tableWf {} s.ports = true) (cause : Nat) {p : Nat} (hp : p < 18) :
    tableWf {} (s.raiseFault cause).ports = true ∧ bitOf ((s.raiseFault cause).port p).intStatus.toNat mbMcFault = true := by
  have hshown : bitOf ((faultShown s).port p).intStatus.toNat mbMcFault = true := by
    rw [faultShown, port_onPorts _ List.nodup_range (List.mem_range.mpr hp)]
    · exact bitOf_setBit _ (by decide)
    · exact hs
  have hwf : tableWf {} (faultShown s).ports = true := (keepsCauses_faultShown s hs).1
  exact ((keepsCauses_event (faultShown s) _ _ _ hwf).imp id fun h => h p _ hshown)

/-- The tests of abandoned activities are over. -/
def testsOver : State := (s.ctl.acts.flatMap (fun a =>
  if a.queued then [] else if a.code = 5 then [a.target] else if a.code = 7 then a.testNodes else [])).foldl (fun b ix => b.testing ix false) s

theorem testsOver_frame : testsOver s = { s with nodes := (testsOver s).nodes, ctls := (testsOver s).ctls } :=
  foldl_rel (R := fun a b => b = { a with nodes := b.nodes, ctls := b.ctls }) (fun _ => rfl) (fun h k => by rw [k, h])
    (fun a ix => by rw [State.testing, modStat_frame]) _ s

theorem abandonActs_eq : s.abandonActs = { testsOver s with ctl := { (testsOver s).ctl with
    acts := (testsOver s).ctl.acts.filter (fun a => !(a.queued || a.stepped))
    abandoned := (testsOver s).ctl.abandoned ++ (testsOver s).ctl.acts.filter (fun a => a.queued || a.stepped) } } := rfl

theorem abandonActs_frame : s.abandonActs = { s with
    ctl := { s.ctl with
      acts := s.ctl.acts.filter (fun a => !(a.queued || a.stepped))
      abandoned := s.ctl.abandoned ++ s.ctl.acts.filter (fun a => a.queued || a.stepped) }
    nodes := s.abandonActs.nodes, ctls := s.abandonActs.ctls } := by
  rw [abandonActs_eq, testsOver_frame]

variable (cause : ExcCause) (pc sp : Word)

/-- The restarts of the last 10 s, with the one that begins. -/
def recentRestarts : List Quad := s.ctl.restarts.filter (fun t => !s.passed t 10000000000) ++ [s.time]

/-- The state once the exception's record is written and MC_FAULT is raised. -/
def faultTold : State :=
  (withCtl s { s.ctl with log := logAdd s.ctl.log (s.excRecord cause pc sp) }).raiseFault cause.code

/-- The controller as its image is reloaded. -/
def pathReloads (c : Controller) (now : Quad) (recent : List Quad) : Controller := { c.reloads now with
  phase := c.phase.afterFault, restarts := recent, background := none,
  confirm := if c.phase.afterFault == .readImage then none else c.confirm }

/-- The state in which the reload has begun. -/
def reloading : State := withCtl (faultTold s cause pc sp) (pathReloads (faultTold s cause pc sp).ctl s.time (recentRestarts s))

/-- The state in which the controller has stopped: requests answered, activities abandoned, nothing kept. -/
def controllerStopped : State := ((reloading s cause pc sp).abandonActs.answerWorking.busyPending none).afterRestart

theorem hardwarePath_eq : s.hardwarePath cause pc sp = if 3 ≤ (recentRestarts s).length
    then (controllerStopped s cause pc sp).safeMode cause.code else controllerStopped s cause pc sp := rfl

theorem reloading_ctl : (reloading s cause pc sp).ctl = pathReloads
    { s.ctl with log := logAdd s.ctl.log (s.excRecord cause pc sp), mcFault := true, onEmergency := true } s.time (recentRestarts s) := by
  rw [reloading, faultTold, raiseFault_ctl]
  rfl

theorem controllerStopped_ctl : (controllerStopped s cause pc sp).ctl = { (reloading s cause pc sp).ctl with
    acts := (reloading s cause pc sp).ctl.acts.filter (fun a => !(a.queued || a.stepped))
    abandoned := (reloading s cause pc sp).ctl.abandoned ++ (reloading s cause pc sp).ctl.acts.filter (fun a => a.queued || a.stepped)
    snaps := [] } := by
  rw [controllerStopped, afterRestart_frame, (portsOnly_busyPending ..).eq, answerWorking_eq, (portsOnly_onPorts ..).eq, abandonActs_frame]

theorem controllerOnly_afterRestart : controllerOnly s s.afterRestart := ⟨by rw [afterRestart_frame]⟩

theorem controllerOnly_controllerStopped : controllerOnly s (controllerStopped s cause pc sp) := by
  have htold : controllerOnly s (faultTold s cause pc sp) := (controllerOnly_withCtl s _).trans (controllerOnly_raiseFault ..)
  have hreload : controllerOnly s (reloading s cause pc sp) := htold.trans (controllerOnly_withCtl ..)
  have habandon : controllerOnly (reloading s cause pc sp) (reloading s cause pc sp).abandonActs := ⟨by rw [abandonActs_frame]⟩
  have hanswer : portsOnly (reloading s cause pc sp).abandonActs ((reloading s cause pc sp).abandonActs.answerWorking.busyPending none) :=
    .trans (portsOnly_onPorts ..) (portsOnly_busyPending ..)
  refine hreload.trans (habandon.trans (hanswer.controllerOnly.trans (controllerOnly_afterRestart _)))

theorem keepsCauses_abandonActs : keepsCauses s s.abandonActs := by
  rw [abandonActs_frame]
  exact fun w => ⟨w, fun _ _ h => h⟩

theorem mcFault_reloading (hs : tableWf {} s.ports = true) {p : Nat} (hp : p < 18) : tableWf {} (reloading s cause pc sp).ports = true
    ∧ bitOf ((reloading s cause pc sp).port p).intStatus.toNat mbMcFault = true := by
  rw [reloading, ports_withCtl, port_withCtl, faultTold]
  exact mcFault_raiseFault _ (ports_withCtl s _ ▸ hs) cause.code hp

/-- Every port of the stopped controller has lost its last tag, and shows the fault. -/
theorem port_controllerStopped (hs : tableWf {} s.ports = true) {p : Nat} (hp : p < 18) :
    tableWf {} (controllerStopped s cause pc sp).ports = true ∧ ((controllerStopped s cause pc sp).port p).lastTag = none
      ∧ bitOf ((controllerStopped s cause pc sp).port p).intStatus.toNat mbMcFault = true := by
  obtain ⟨hwf, hfault⟩ := mcFault_reloading s cause pc sp hs hp
  have hanswered : keepsCauses (reloading s cause pc sp) ((reloading s cause pc sp).abandonActs.answerWorking.busyPending none) :=
    (keepsCauses_abandonActs _).trans ((keepsCauses_answerWorking _).trans (keepsCauses_busyPending _ none))
  obtain ⟨hwf', hkept⟩ := hanswered.trans (keepsCauses_afterRestart _) hwf
  exact ⟨hwf', lastTag_afterRestart _ (hanswered hwf).1 hp, hkept p _ hfault⟩

theorem hardwarePath_ctl : (s.hardwarePath cause pc sp).ctl = if 3 ≤ (recentRestarts s).length
    then inSafeMode (controllerStopped s cause pc sp).ctl else (controllerStopped s cause pc sp).ctl := by
  rw [hardwarePath_eq]
  split
  · exact safeMode_ctl ..
  · rfl

theorem controllerOnly_safeMode (k : Nat) : controllerOnly s (s.safeMode k) :=
  .trans (controllerOnly_withCtl s (inSafeMode s.ctl)) (controllerOnly_of_recordsOnly (recordsOnly_safeMode s k))

theorem controllerOnly_hardwarePath : controllerOnly s (s.hardwarePath cause pc sp) := by
  have hstopped := controllerOnly_controllerStopped s cause pc sp
  rw [hardwarePath_eq]
  split
  · exact hstopped.trans (controllerOnly_safeMode ..)
  · exact hstopped

theorem lastTag_of_samePort {x y : Port} (h : samePort x y) : y.lastTag = x.lastTag := by rw [h]

theorem keepsCauses_safeMode (k : Nat) : keepsCauses s (s.safeMode k) := by
  have h : keepsCauses (withCtl s (inSafeMode s.ctl)) (s.safeMode k) := keepsCauses_event _ _ _ _
  exact h

theorem port_hardwarePath (hs : tableWf {} s.ports = true) {p : Nat} (hp : p < 18) :
    ((s.hardwarePath cause pc sp).port p).lastTag = none
      ∧ bitOf ((s.hardwarePath cause pc sp).port p).intStatus.toNat mbMcFault = true := by
  obtain ⟨hwf, htag, hfault⟩ := port_controllerStopped s cause pc sp hs hp
  rw [hardwarePath_eq]
  split
  · obtain ⟨-, hsame⟩ := (recordsOnly_safeMode (controllerStopped s cause pc sp) cause.code).ports hwf
    exact ⟨(lastTag_of_samePort (hsame p)).trans htag, (keepsCauses_safeMode _ _ hwf).2 p _ hfault⟩
  · exact ⟨htag, hfault⟩

/-- What the hardware path leaves of the controller. -/
structure onPath (c : Controller) : Prop where
  mcFault  : c.mcFault = true
  imageOk  : c.imageOk = false
  snaps    : c.snaps = []
  log      : c.log = (s.ctl.log ++ [s.excRecord cause pc sp]).drop (s.ctl.log.length - 7)
  restarts : c.restarts = recentRestarts s

theorem onPath_controllerStopped : onPath s cause pc sp (controllerStopped s cause pc sp).ctl := by
  rw [controllerStopped_ctl, reloading_ctl]
  exact ⟨rfl, rfl, rfl, congrArg (List.drop · _) (Nat.add_sub_add_right _ 1 7), rfl⟩

theorem onPath_hardwarePath : onPath s cause pc sp (s.hardwarePath cause pc sp).ctl := by
  have h := onPath_controllerStopped s cause pc sp
  rw [hardwarePath_ctl]
  split
  · exact { h with }
  · exact h

theorem hardwarePath_phase : (s.hardwarePath cause pc sp).ctl.phase
    = if 3 ≤ (recentRestarts s).length then .safe else s.ctl.phase.afterFault := by
  have h : (controllerStopped s cause pc sp).ctl.phase = s.ctl.phase.afterFault := by
    rw [controllerStopped_ctl, reloading_ctl]
    rfl
  rw [hardwarePath_ctl]
  split
  · rfl
  · exact h

end

section
variable {s : State} {c : ExcCause} {pc sp : Word}

theorem controllerFaults_inReset (h : s.ctl.phase = .inReset ∨ s.ctl.phase = .zeroing) : s.controllerFaults c pc sp = s := by
  rcases h with h | h <;> simp only [State.controllerFaults, h]

theorem controllerFaults_awake (h1 : s.ctl.phase ≠ .inReset) (h2 : s.ctl.phase ≠ .zeroing) : s.controllerFaults c pc sp
    = if s.ctl.onEmergency then s.modCtlr (fun x => { x.reloads s.time with log := logFold x.log }) else s.hardwarePath c pc sp := by
  unfold State.controllerFaults
  split
  · next h => exact absurd h h1
  · next h => exact absurd h h2
  · rfl

end

/-! CONTROLLER_RESTART_DONE (R366, R463). -/

section
variable {s : State}

theorem execControllerRestartDone_serves (h : s.ctl.phase = .restarting) (hi : s.ctl.imageOk = true) (hc : s.ctl.confirm = none) :
    execControllerRestartDone s = .next ((s.afterRestart.rekey 2).servesAgain 2 0 2) := if_neg (by simp [h, hi, hc])

theorem execControllerRestartDone_idle (h : s.ctl.phase ≠ .restarting ∨ s.ctl.imageOk = false ∨ s.ctl.confirm ≠ none) :
    execControllerRestartDone s = .next s := by
  refine if_pos ?_
  simpa [or_assoc, Option.isSome_iff_ne_none] using h

end

/-- Settles O55: the commands by the reply of their own part; the new image by `takenOver_imageTakesOver`, the stop of the controller by
the parts of the hardware path, of which each leaves all but the controller, the ports and the nodes' status alone. -/
theorem firmwareAndExceptions : Obligations.FirmwareAndExceptions := by
  unfold Obligations.FirmwareAndExceptions
  refine ⟨fun p q s => ⟨fun hr => ?status, fun hr => ?stage, fun hr => ?verify, fun hr b hb => ?activate⟩, fun s h => ?noBackground,
    fun p tag bytes s h => ?background, fun s => ⟨execFwActivationSwitch_idle, fun h hv u hu => ?switch⟩, fun s => ⟨execFwBankConfirm_none, fun b since h => ?confirm⟩,
    fun s => ⟨execFwFallback_idle, fun h c hc => ?fallback⟩, fun k pc sp s => ?exceptions, fun c pc sp s => ?path,
    fun s => ⟨execControllerRestartDone_serves, execControllerRestartDone_idle, fun kind cause outcome => ?serves⟩⟩
  case status => exact exec_answers_ok (exec_fwStatus p s) hr (by decide) rfl
  case stage =>
    have hexec := exec_fwStage p s
    refine ⟨fun h => refuses_of_run hexec hr (by decide) (runFwStage_busy h), fun h h0 => ?_, fun h h0 hb => ?_, fun h h0 hb => ?_⟩
    · exact refuses_of_run hexec hr (by decide) (runFwStage_empty (s := served s p) h h0)
    · exact refuses_of_run hexec hr (by decide) (runFwStage_beyond (s := served s p) h h0 hb)
    · exact exec_background hexec hr (by decide) (runFwStage_stages (s := served s p) h h0 hb)
  case verify =>
    have hexec := exec_fwVerify p s
    refine ⟨fun h => refuses_of_run hexec hr (by decide) (runFwVerify_busy h), fun h hv => ?_, fun h d hv => ?_⟩
    · exact ⟨_, exec_background hexec hr (by decide) (runFwVerify_passes (s := served s p) h hv rfl), rfl⟩
    · exact exec_background hexec hr (by decide) (runFwVerify_fails (s := served s p) h hv)
  case activate =>
    subst hb
    have hexec := exec_fwActivate p s
    refine ⟨fun h => refuses_of_run hexec hr (by decide) (runFwActivate_notVerified h),
      fun h hv => refuses_of_run hexec hr (by decide) (runFwActivate_version (s := served s p) h hv),
      fun h h1 h2 h3 => ⟨fun hb => ?_, fun hb => ⟨fun ha => ?_, fun t queued ha => ?_⟩⟩⟩
    · exact refuses_of_run hexec hr (by decide) (runFwActivate_busy (s := served s p) h h1 h2 h3 hb)
    · exact refuses_of_run hexec hr (by decide) (runFwActivate_refused (s := served s p) h h1 h2 h3 hb ha)
    · have hrun := runFwActivate_activates (s := served s p) h h1 h2 h3 hb ha
      rw [ready_port hr] at hrun
      exact exec_answers_ok hexec hr (by decide) hrun
  case noBackground => rw [exec_backgroundCommandDone, execBackgroundCommandDone, h]
  case background =>
    refine ⟨?_, fun hw hc hl => finish_awaited hw hc hl bytes, fun hw hl => finish_forgotten hw hl bytes⟩
    rw [exec_backgroundCommandDone, execBackgroundCommandDone, h]
    rfl
  case switch =>
    have hexec := (exec_fwActivationSwitch s).trans (execFwActivationSwitch_switches h hv hu)
    obtain ⟨hsnaps, hactive, hshadow, hmajor, hminor, hbank, hleaves, hlinks, hnodes, hkiln⟩ : takenOver
      { s with ctl := { s.ctl with confirm := some (!s.ctl.activeB, s.time) } } s.ctl.spare u := hu ▸ takenOver_imageTakesOver ..
    refine ⟨fun hb => by rw [hexec, if_pos hb], fun hb => ⟨by rw [hexec, if_neg (by rw [hb]; decide)], ?_⟩,
      hsnaps, hactive, hshadow, hmajor, hminor, hbank, hleaves, hlinks, hnodes, hkiln⟩
    rw [hu, imageTakesOver_starting]
    exact hb
  case confirm =>
    have hexec := (exec_fwBankConfirm s).trans (execFwBankConfirm_eq h)
    refine ⟨fun hp ht => ?_, fun hno => ?_⟩
    · obtain ⟨hb, hother⟩ := records_spec s.ctl b
      exact ⟨_, by rw [hexec, if_pos (by simp [hp, ht])], rfl, rfl, rfl, hb, hother⟩
    · rw [hexec, if_neg]
      rcases hno with hno | hno <;> simp [hno]
  case fallback =>
    refine ⟨fun hv => (exec_fwFallback s).trans (execFwFallback_safe h hc hv), fun hv u hu => ?_⟩
    have hexec := (exec_fwFallback s).trans (execFwFallback_starts h hc hv hu)
    exact ⟨fun hb => by rw [hexec, if_pos hb], fun hb => by rw [hexec, if_neg (by rw [hb]; decide)]⟩
  case exceptions =>
    refine ⟨fun h => (exec_controllerException ..).trans (execControllerException_handled h),
      fun c h => (exec_controllerException ..).trans (execControllerException_faults h), fun h => ?_, fun h => ?_,
      excCause_badStack, excCause_handled, excCause_onEmergency⟩
    all_goals rw [exec_watchdogExpiry, execWatchdogExpiry, h]
    all_goals rfl
  case path =>
    refine ⟨controllerFaults_inReset, fun h1 h2 he => ?_, fun h1 h2 he t ht => ?_⟩
    · rw [controllerFaults_awake h1 h2, if_pos he]
      rfl
    · rw [controllerFaults_awake h1 h2, he] at ht
      have ht : t = s.hardwarePath c pc sp := ht
      subst ht
      obtain ⟨hfault, himage, hsnaps, hlog, hrestarts⟩ := onPath_hardwarePath s c pc sp
      have hframe := (controllerOnly_hardwarePath s c pc sp).eq
      refine ⟨hfault, himage, hsnaps, hlog, hrestarts, ?_, ?_, ?_, ?_, ?_, ?_, ?_, fun hs p hp => port_hardwarePath s c pc sp hs.ports hp⟩
      · rw [hrestarts]
        exact hardwarePath_phase s c pc sp
      all_goals rw [hframe]
  case serves =>
    refine ⟨s.serves kind cause, _, rfl, rfl, rfl, ?_⟩
    rw [serves_frame]
    exact ⟨rfl, rfl, rfl, rfl, rfl, rfl, rfl, rfl⟩

end Sys2Proof.Proofs

/-! ### O56: the SMBus target and Host Notify -/

namespace Sys2Proof.Proofs
open Sys2Proof.Machine

theorem exec_hostNotifyAttempt (r : NotifyResult) (s : State) : exec (.hostNotifyAttempt r) s = execHostNotifyAttempt r s := rfl
theorem exec_hostNotifyRetry (r : NotifyResult) (s : State) : exec (.hostNotifyRetry r) s = execHostNotifyRetry r s := rfl

/-! Little-endian numbers. -/

theorem ofLe_leBytes (n : Nat) : ∀ v, ofLe (leBytes n v) = v % 256 ^ n := by
  induction n with
  | zero => exact fun v => (Nat.mod_one v).symm
  | succ n ih =>
    intro v
    have hpow : 256 ^ (n + 1) = 256 * 256 ^ n := Nat.pow_succ'
    rw [leBytes, ofLe, ih, BitVec.toNat_ofNat, hpow]
    exact (Nat.mod_mul ..).symm

theorem length_leBytes (n : Nat) : ∀ v, (leBytes n v).length = n := by
  induction n with
  | zero => exact fun _ => rfl
  | succ n ih => exact fun v => congrArg (· + 1) (ih (v / 256))

/-- The first two bytes of a block that begins with an offset. -/
theorem numAt_leBytes_two {o : Nat} (h : o < 2 ^ 16) (bs : List Byte) : numAt (leBytes 2 o ++ bs) 0 2 = o :=
  (ofLe_leBytes 2 o).trans (Nat.mod_eq_of_lt h)

/-! The PEC (R528). -/

section
variable (s : State)

theorem smbAddress_toNat : s.smbAddress.toNat = 0x58 + s.straps.smbAddr.toNat := by
  have h : s.straps.smbAddr.toNat < 8 := s.straps.smbAddr.isLt
  rw [State.smbAddress, BitVec.toNat_ofNat]
  omega

theorem smbAddr_write : s.smbAddr false = BitVec.ofNat 8 (2 * (0x58 + s.straps.smbAddr.toNat)) := by
  rw [State.smbAddr, smbAddress_toNat]
  rfl

theorem smbAddr_read : s.smbAddr true = BitVec.ofNat 8 (2 * (0x58 + s.straps.smbAddr.toNat)) + 1 := by
  rw [State.smbAddr, smbAddress_toNat]
  exact BitVec.ofNat_add ..

variable {s}

theorem pecOk_iff {pec : Option Byte} {bytes : List Byte} :
    s.pecOk pec bytes = true ↔ pec = none ∨ pec = some (pecOf (s.smbAddr false :: bytes)) := by
  cases pec <;> simp [State.pecOk]

end

/-! The rows while the block is in reset, and the ones that have no effect (R514, R528). -/

section
variable {s : State}

theorem exec_smb_inReset (h : s.awake = false) {i : Instr} (hi : i = .smbBlkVersion ∨ i = .smbStatus ∨ (∃ d x, i = .smbNotifyCtrl d x)
    ∨ (∃ d x, i = .smbMbxWrite d x) ∨ ∃ d n, i = .smbMbxRead d n) : exec i s = .next s.smbNack := by
  rcases hi with rfl | rfl | ⟨d, x, rfl⟩ | ⟨d, x, rfl⟩ | ⟨d, n, rfl⟩
  · exact if_neg (by rw [h]; decide)
  · exact if_neg (by rw [h]; decide)
  all_goals exact if_pos (by rw [h]; rfl)

theorem smbRow_unlisted {c : Byte} (h : c.toNat ∉ [0x00, 0x01, 0x02, 0x10, 0x11]) (data : List Byte) (pec : Option Byte) :
    smbRow c data pec = none := by
  unfold smbRow
  split
  case h_6 => rfl
  all_goals
    next hc => exact absurd (hc ▸ h) (by decide)

end

/-! The five transactions (Table 16.6). -/

section
variable {s : State} (h : s.awake = true)

/-- The bits of the status byte. -/
theorem smbStatusByte_bits (s : State) : bitOf s.smbStatusByte.toNat 0 = (s.ctl.phase == .serving) ∧ bitOf s.smbStatusByte.toNat 1 = s.ctl.mcFault
    ∧ bitOf s.smbStatusByte.toNat 2 = (s.ctl.phase == .safe) ∧ bitOf s.smbStatusByte.toNat 3 = s.smb.notifyFailed
    ∧ bitOf s.smbStatusByte.toNat 4 = s.smb.notifyEn ∧ bitOf s.smbStatusByte.toNat 5 = s.straps.debug
    ∧ bitOf s.smbStatusByte.toNat 6 = false ∧ bitOf s.smbStatusByte.toNat 7 = false := by
  unfold State.smbStatusByte
  generalize (s.ctl.phase == .serving) = a, s.ctl.mcFault = b, (s.ctl.phase == .safe) = c, s.smb.notifyFailed = d, s.smb.notifyEn = e,
    s.straps.debug = f
  revert a b c d e f
  decide

include h

theorem execSmbBlkVersion_reads : execSmbBlkVersion s = .next (s.smbRead [0x00] [4] (leBytes 4 s.blkVersion.toNat)) := if_pos h
theorem execSmbStatus_reads : execSmbStatus s = .next (s.smbRead [0x01] [] [s.smbStatusByte]) := if_pos h

section
variable {d : Byte} {pec : Option Byte}

theorem execSmbNotifyCtrl_writes (hd : d.toNat &&& 0xF6 = 0) (hp : s.pecOk pec [0x02, d] = true) : execSmbNotifyCtrl d pec s
    = .next { s with smb := { s.smb with
        reply := some [], notifyEn := bitOf d.toNat 0, notifyFailed := s.smb.notifyFailed && !bitOf d.toNat 3 } } :=
  if_neg (by rw [h, hd, hp]; decide)

omit h in
theorem execSmbNotifyCtrl_nacks (hd : d.toNat &&& 0xF6 ≠ 0 ∨ s.pecOk pec [0x02, d] = false) :
    execSmbNotifyCtrl d pec s = .next s.smbNack := by
  refine if_pos ?_
  rcases hd with hd | hd
  · exact (Bool.or_eq_true ..).mpr (.inr (bne_iff_ne.mpr hd))
  · simp only [hd, Bool.not_false, Bool.or_true, Bool.true_or]

end

section
variable {data : List Byte} {pec : Option Byte}

theorem execSmbMbxWrite_writes (hd : mbxWriteOk data = true) (hp : s.pecOk pec (0x10 :: BitVec.ofNat 8 data.length :: data) = true) :
    execSmbMbxWrite data pec s = .next ((mbxWords data).foldl (fun a e => a.windowWrite 16 e.1 e.2) (s.smbReply (some []))) :=
  if_neg (by rw [h, hd, hp]; decide)

omit h in
theorem execSmbMbxWrite_nacks (hd : mbxWriteOk data = false ∨ s.pecOk pec (0x10 :: BitVec.ofNat 8 data.length :: data) = false) :
    execSmbMbxWrite data pec s = .next s.smbNack := by
  refine if_pos ?_
  rcases hd with hd | hd <;> simp only [hd, Bool.not_false, Bool.or_true, Bool.true_or]

end

section
variable {data : List Byte} {n : Nat}

omit h in
theorem execSmbMbxRead_nacks (hd : mbxReadOk data = false ∨ n ≠ data.length) : execSmbMbxRead data n s = .next s.smbNack := by
  refine if_pos ?_
  rcases hd with hd | hd <;> simp [hd]

omit h in
theorem length_of_mbxReadOk (hd : mbxReadOk data = true) : data.length = 3 := by
  simp only [mbxReadOk, Bool.and_eq_true, beq_iff_eq] at hd
  obtain ⟨⟨⟨⟨hl, -⟩, -⟩, -⟩, -⟩ := hd
  exact hl

theorem execSmbMbxRead_reads (hd : mbxReadOk data = true) : execSmbMbxRead data 3 s = .next (s.smbRead (0x11 :: 3 :: data)
    [BitVec.ofNat 8 (numAt data 2 1)]
    ((List.range (numAt data 2 1 / 4)).map (fun i => leBytes 4 (s.windowRead 16 (numAt data 0 2 + 4 * i)).toNat)).flatten) :=
  if_neg (by simp [h, hd, length_of_mbxReadOk hd])

end

end

/-! One 32-bit access by MBX_WRITE and by MBX_READ. -/

/-- The size that the write part of an MBX_READ asks for. -/
theorem numAt_size (o : Nat) : numAt (leBytes 2 o ++ [4]) 2 1 = 4 := rfl

section
variable {o : Nat} (h4 : o % 4 = 0) (ho : o < 2 ^ 16) (v : Word)
include h4 ho

theorem mbxWriteOk_word : mbxWriteOk (leBytes 2 o ++ leBytes 4 v.toNat) = true := by
  simp [mbxWriteOk, length_leBytes, numAt_leBytes_two ho, h4]

omit h4 in
theorem mbxWords_word : mbxWords (leBytes 2 o ++ leBytes 4 v.toNat) = [(o, v)] := by
  have hv : numAt (leBytes 2 o ++ leBytes 4 v.toNat) 2 4 = v.toNat :=
    (ofLe_leBytes 4 v.toNat).trans (Nat.mod_eq_of_lt v.isLt)
  simp [mbxWords, length_leBytes, numAt_leBytes_two ho, hv]

theorem mbxReadOk_word : mbxReadOk (leBytes 2 o ++ [4]) = true := by
  rw [mbxReadOk, numAt_size, numAt_leBytes_two ho, h4, List.length_append, length_leBytes]
  rfl

end

/-! Host Notify (R529, R530). -/

section
variable {s : State} {x : NotifyResult}

theorem notify_acked : s.notify .acked = { s with smb := { s.smb with
    running := false, attempts := 0
    sent := some (BitVec.ofNat 8 (0x58 + s.straps.smbAddr.toNat), (s.port 16).intStatus.setWidth 16) } } := rfl

theorem notify_failsAgain (hx : x ≠ .acked) (h : s.smb.attempts < 3) :
    s.notify x = { s with smb := { s.smb with attempts := s.smb.attempts + 1, since := s.time } } := by
  have hlt : s.smb.attempts + 1 < 4 := Nat.succ_lt_succ h
  cases x with
  | acked => exact absurd rfl hx
  | nack => exact if_pos hlt
  | lostArbitration => exact if_pos hlt

theorem notify_failsLast (hx : x ≠ .acked) (h : 3 ≤ s.smb.attempts) : s.notify x
    = { s.bump 0x0C with smb := { s.smb with running := false, attempts := 0, notifyFailed := true, since := s.time } } := by
  have hge : ¬ s.smb.attempts + 1 < 4 := by omega
  cases x with
  | acked => exact absurd rfl hx
  | nack => exact if_neg hge
  | lostArbitration => exact if_neg hge

theorem execHostNotifyAttempt_idle (h : s.awake = false ∨ s.smb.running = false ∨ s.smb.attempts ≠ 0) :
    execHostNotifyAttempt x s = .next s := by
  refine if_neg ?_
  rcases h with h | h | h <;> simp [h]

theorem execHostNotifyAttempt_due (h : s.awake = true) (hr : s.smb.running = true) (h0 : s.smb.attempts = 0) :
    execHostNotifyAttempt x s = .next (s.notify x) := if_pos (by simp [h, hr, h0])

theorem execHostNotifyRetry_idle (h : s.awake = false ∨ s.smb.running = false ∨ s.smb.attempts = 0 ∨ s.timedOut s.smb.since 1000000 = false) :
    execHostNotifyRetry x s = .next s := by
  refine if_neg ?_
  rcases h with h | h | h | h <;> simp [h]

theorem execHostNotifyRetry_due (h : s.awake = true) (hr : s.smb.running = true) (h0 : s.smb.attempts ≠ 0)
    (ht : s.timedOut s.smb.since 1000000 = true) : execHostNotifyRetry x s = .next (s.notify x) := if_pos (by simp [h, hr, h0, ht])

end

/-- Settles O56: the transactions by the outcomes of their checks, Host Notify by the outcomes of one attempt. -/
theorem smbusTarget : Obligations.SmbusTarget := by
  unfold Obligations.SmbusTarget
  refine ⟨fun s => ⟨rfl, fun h r => ?asleep, fun h i hi => exec_smb_inReset h hi, fun c data pec h => smbRow_unlisted h data pec⟩,
    fun s h w r hw hr => ?awake⟩
  case asleep => exact ⟨execHostNotifyAttempt_idle (.inl h), execHostNotifyRetry_idle (.inl h)⟩
  obtain rfl : s.smbAddr false = w := (smbAddr_write s).trans hw.symm
  obtain rfl : s.smbAddr true = r := by rw [hr, smbAddr_write, smbAddr_read]
  refine ⟨execSmbBlkVersion_reads h, ⟨_, execSmbStatus_reads h, smbStatusByte_bits s⟩, fun d pec => ⟨fun hd hp => ?_, fun hd => ?_⟩,
    fun data pec x hx => ?write, fun o v h4 ho => ?word, fun data n hd => execSmbMbxRead_nacks hd, fun data out hd hout => ?read,
    fun x hx => execHostNotifyAttempt_idle (.inr hx), fun x hx => execHostNotifyRetry_idle (.inr hx), fun hrun => ?notify⟩
  · exact execSmbNotifyCtrl_writes h hd (pecOk_iff.mpr hp)
  · refine execSmbNotifyCtrl_nacks (hd.imp_right ?_)
    rintro ⟨x, rfl, hx⟩
    exact Bool.eq_false_iff.mpr fun hok => (pecOk_iff.mp hok).elim nofun fun he => hx (Option.some.inj he)
  case write =>
    subst hx
    refine ⟨fun hd hp => execSmbMbxWrite_writes h hd (pecOk_iff.mpr hp), fun hd => execSmbMbxWrite_nacks (hd.imp_right ?_)⟩
    rintro ⟨hn, hx⟩
    exact Bool.eq_false_iff.mpr fun hok => (pecOk_iff.mp hok).elim hn hx
  case word =>
    have hwrite := execSmbMbxWrite_writes h (mbxWriteOk_word h4 ho v) (pecOk_iff.mpr (.inl rfl))
    have hread := execSmbMbxRead_reads h (mbxReadOk_word h4 ho)
    rw [mbxWords_word ho v] at hwrite
    rw [numAt_leBytes_two ho, numAt_size] at hread
    exact ⟨hwrite, hread⟩
  case read =>
    subst hout
    exact ⟨_, execSmbMbxRead_reads h hd⟩
  case notify =>
    refine ⟨fun h0 => ⟨(execHostNotifyAttempt_due h hrun h0).trans (congrArg _ notify_acked), fun x hx => ?_⟩,
      fun h0 ht => ⟨(execHostNotifyRetry_due h hrun h0 ht).trans (congrArg _ notify_acked), fun x hx => ⟨fun h3 => ?_, fun h3 => ?_⟩⟩⟩
    · rw [exec_hostNotifyAttempt, execHostNotifyAttempt_due h hrun h0, notify_failsAgain hx (by omega), h0]
    · rw [exec_hostNotifyRetry, execHostNotifyRetry_due h hrun h0 ht, notify_failsAgain hx h3]
    · rw [exec_hostNotifyRetry, execHostNotifyRetry_due h hrun h0 ht, notify_failsLast hx h3]

end Sys2Proof.Proofs

/-! ### O57: the test port's instructions and the trace port -/

namespace Sys2Proof.Proofs
open Sys2Proof.Machine

theorem exec_idcode (s : State) : exec .idcode s = .next (s.scan 0x01 (bitsOf 32 s.idcode)) := rfl
theorem exec_cxMbx (w : BitVec 64) (s : State) : exec (.cxMbx w) s = execCxMbx w s := rfl
theorem exec_traceRecordSend (s : State) : exec .traceRecordSend s = execTraceRecordSend s := rfl

/-! Fields of numbers. -/

/-- A field of a word is the bits that it spans. -/
theorem slice_toNat {w : Nat} (v : BitVec w) (lo n : Nat) : slice v.toNat lo n = (v.extractLsb' lo n).toNat := rfl

theorem slice_eq_div_mod (v lo n : Nat) : slice v lo n = v / 2 ^ lo % 2 ^ n := by rw [slice, Nat.shiftRight_eq_div_pow]

theorem toNat_append_eq_add {m n : Nat} (x : BitVec m) (y : BitVec n) : (x ++ y).toNat = x.toNat * 2 ^ n + y.toNat := by
  rw [BitVec.toNat_append, ← Nat.shiftLeft_add_eq_or_of_lt y.isLt, Nat.shiftLeft_eq]

/-! IDCODE and the code of an unlisted instruction (R523, R524). -/

theorem idcode_eq (s : State) : s.idcode = (s.blkVersion.extractLsb' 16 4).toNat * 2 ^ 28 + 0x0C08 * 2 ^ 12 + s.straps.mfrId.toNat * 2 + 1 := rfl

/-- The identification code as a word. -/
def idWord (s : State) : BitVec 32 := BitVec.ofNat 32 s.idcode

theorem idWord_toNat (s : State) : (idWord s).toNat = s.idcode := by
  have hstep := (s.blkVersion.extractLsb' 16 4).isLt
  have hmfr := s.straps.mfrId.isLt
  rw [idWord, BitVec.toNat_ofNat, idcode_eq]
  omega

/-- The fields of the identification code. -/
theorem idWord_fields (s : State) : (idWord s).extractLsb' 28 4 = s.blkVersion.extractLsb' 16 4 ∧ (idWord s).extractLsb' 12 16 = 0x0C08
    ∧ (idWord s).extractLsb' 1 11 = s.straps.mfrId ∧ (idWord s).extractLsb' 0 1 = 1 := by
  have hstep := (s.blkVersion.extractLsb' 16 4).isLt
  have hmfr := s.straps.mfrId.isLt
  refine ⟨BitVec.eq_of_toNat_eq ?_, BitVec.eq_of_toNat_eq ?_, BitVec.eq_of_toNat_eq ?_, BitVec.eq_of_toNat_eq ?_⟩
  all_goals rw [← slice_toNat, slice_eq_div_mod, idWord_toNat, idcode_eq]
  · omega
  · change _ = 0x0C08
    omega
  · omega
  · change _ = 1
    omega

theorem tapRow_unlisted {ir : Byte} (h : ir.toNat ∉ [0x00, 0x01, 0x02, 0x20, 0x21, 0x22, 0x23, 0x24, 0x25]) (pins din : List Bool) (u : Bool) :
    tapRow ir pins din u = .bypass := by
  unfold tapRow
  split
  case h_10 => rfl
  all_goals
    next hir => exact absurd (hir ▸ h) (by decide)

/-! A store to a mailbox window leaves the test port alone. -/

section
variable (s : State)

theorem test_modPort (p : Nat) (f : Port → Port) : (s.modPort p f).test = s.test := setPort_test ..
theorem test_endSession (p : Nat) : (s.endSession p).test = s.test := by rw [endSession_eq]

theorem test_replyFail (q : Req) (v : Byte × Byte) (err d : Nat) (tagged : Bool) : (s.replyFail q v err d tagged).test = s.test := by
  rw [State.replyFail, test_modPort]
  split
  · exact test_endSession ..
  · rfl

/-- Answering a request with a reserved code. -/
theorem test_carryOut_refuse (q : Req) (err d : Nat) : (s.carryOut q (fun t _ => .refuse t err d)).test = s.test := by
  unfold State.carryOut
  dsimp only
  split
  · rw [test_modPort]
    rfl
  · rw [test_replyFail]
    rfl
  · rw [Reply.put, test_modPort]
    rfl

theorem test_takeReserved (k : Nat) : ∀ s : State, (s.takeReserved k).test = s.test := by
  induction k with
  | zero => exact fun _ => rfl
  | succ k ih =>
    intro s
    rw [State.takeReserved]
    split
    · rfl
    · exact (ih _).trans (test_carryOut_refuse ..)

theorem test_nextRequest : s.nextRequest.test = s.test := test_takeReserved 18 s

theorem test_ring (p : Nat) : (s.ring p).test = s.test := by
  unfold State.ring
  dsimp only
  split
  · exact test_modPort ..
  · split
    · exact test_modPort ..
    · exact (test_nextRequest _).trans (test_modPort ..)

theorem test_portReset (p : Nat) : (s.portReset p).test = s.test :=
  (test_nextRequest _).trans ((test_modPort ..).trans (test_endSession ..))

theorem test_mbxDoorbell (p : Nat) (v : Word) : (s.mbxDoorbell p v).test = s.test := by
  unfold State.mbxDoorbell
  cases bitOf v.toNat 1 <;> cases bitOf v.toNat 0
  · rfl
  · exact test_ring ..
  · exact test_portReset ..
  · exact (test_ring ..).trans (test_portReset ..)

theorem test_windowWrite (p off : Nat) (v : Word) : (s.windowWrite p off v).test = s.test := by
  unfold State.windowWrite
  dsimp only
  split
  · rfl
  · split
    · split
      · rfl
      · exact test_modPort ..
    · split
      · exact test_mbxDoorbell ..
      · exact test_modPort ..
      · exact test_modPort ..
      · rfl

end

/-! CX_MBX (R525). -/

section
variable (op : BitVec 2) (z : BitVec 16) (o : BitVec 14) (v : Word)

theorem toNat_mbxScan : (op ++ z ++ o ++ v).toNat = ((op.toNat * 2 ^ 16 + z.toNat) * 2 ^ 14 + o.toNat) * 2 ^ 32 + v.toNat := by
  rw [toNat_append_eq_add, toNat_append_eq_add, toNat_append_eq_add]

theorem mbxScan_op : slice (op ++ z ++ o ++ v).toNat 62 2 = op.toNat := by
  have hop := op.isLt
  have hz := z.isLt
  have ho := o.isLt
  have hv := v.isLt
  rw [slice_eq_div_mod, toNat_mbxScan]
  omega

theorem mbxScan_offset : slice (op ++ z ++ o ++ v).toNat 32 14 = o.toNat := by
  have ho := o.isLt
  have hv := v.isLt
  rw [slice_eq_div_mod, toNat_mbxScan]
  omega

theorem mbxScan_word : BitVec.ofNat 32 (op ++ z ++ o ++ v).toNat = v := by
  have hv := v.isLt
  refine BitVec.eq_of_toNat_eq ?_
  rw [BitVec.toNat_ofNat, toNat_mbxScan]
  omega

variable {s t : State} (ht : t = s.scan 0x21 (bitsOf 64 s.test.mbxWord))
include ht

/-- CX_MBX carries out the operation that its scan names, where the block is awake. -/
theorem execCxMbx_operates (h : s.awake = true) : execCxMbx (op ++ z ++ o ++ v) s = .next (t.mbxOp op.toNat (4 * o.toNat) v) := by
  rw [execCxMbx, if_pos h, mbxScan_op, mbxScan_offset, mbxScan_word, ht]

omit op z o v in
theorem execCxMbx_inReset (h : s.awake = false) (w : BitVec 64) : execCxMbx w s = .next t := by
  rw [execCxMbx, h, ht]
  rfl

omit ht op z in
theorem mbxOp_write (t : State) : t.mbxOp 1 (4 * o.toNat) v
    = { t.windowWrite 17 (4 * o.toNat) v with test := { t.test with mbxDone := true } } := by
  rw [← test_windowWrite t 17 (4 * o.toNat) v]
  rfl

end

/-! CX_RESET (R526). -/

section
variable (s : State)

theorem execCxReset_key : execCxReset 0xC0800000 s = .next (s.assertReset .cxReset) := if_pos rfl

theorem execCxReset_other {w : Word} (h : w ≠ 0xC0800000) : execCxReset w s
    = .next ((s.scan 0x22 ((List.range 4).flatMap (fun i => bitsOf 8 (Config.openByte s.tick i).toNat))).tock) := if_neg h

end

/-! CX_TRACE_CFG and the trace port (R519, R522, R526). -/

section
variable {s : State}

theorem execTraceRecordSend_idle (h : s.awake = false ∨ s.refLost = true ∨ bitOf s.trace.cfg.toNat 31 = false) :
    execTraceRecordSend s = .next s := by
  refine if_neg ?_
  rcases h with h | h | h <;> simp [h]

theorem execTraceRecordSend_sends (h : s.awake = true) (hr : s.refLost = false) (hc : bitOf s.trace.cfg.toNat 31 = true) :
    execTraceRecordSend s = .next { s with trace := s.trace.send } := if_pos (by simp [h, hr, hc])

theorem send_lost {x : Trace} (h : x.dropped ≠ 0) :
    x.send = { x with out := trcTransfers x.lost, seq := x.seq + 1, dropped := 0 } := if_pos (bne_iff_ne.mpr h)

/-- With nothing dropped the queue's front goes out. -/
theorem send_queued {x : Trace} (h : x.dropped = 0) {r : BitVec 320} {rs : List (BitVec 320)} (hq : x.queue = r :: rs) :
    x.send = { x with out := trcTransfers r, queue := rs } := by
  rw [Trace.send, if_neg (by simp [h]), hq]

theorem send_nothing {x : Trace} (h : x.dropped = 0) (hq : x.queue = []) : x.send = x := by
  rw [Trace.send, if_neg (by simp [h]), hq]

theorem length_trcTransfers (r : BitVec 320) : (trcTransfers r).length = 20 := by simp [trcTransfers]

theorem getElem?_trcTransfers (r : BitVec 320) {i : Nat} (hi : i < 20) :
    (trcTransfers r)[i]? = some (r.extractLsb' (16 * i) 16, decide (i = 0)) := by
  have hdata : BitVec.ofNat 16 (slice r.toNat (16 * i) 16) = r.extractLsb' (16 * i) 16 := by
    rw [slice_toNat, BitVec.ofNat_toNat, BitVec.setWidth_eq]
  rw [trcTransfers, List.getElem?_map, List.getElem?_range hi, Option.map_some, hdata]
  rfl

end

/-- Settles O57: each instruction by its scan; CX_MBX by the fields of what is shifted in; the trace port by the three forms of what it
sends. -/
theorem testAndTrace : Obligations.TestAndTrace := by
  unfold Obligations.TestAndTrace
  refine ⟨fun pins din s => ⟨rfl, rfl⟩, fun s => ⟨⟨idWord s, ?idcode, idWord_fields s⟩, rfl, fun ir pins din u h => tapRow_unlisted h pins din u,
    rfl, rfl, rfl⟩, fun d s => rfl, fun z o v s t ht => ⟨fun h => ?mbx, fun h w => execCxMbx_inReset ht h w⟩,
    fun w s => ⟨execCxReset_key s, ⟨_, execCxReset_key s⟩, fun h => ⟨_, execCxReset_other s h, rfl⟩⟩, fun w s t ht => ?traceCfg, fun s h => execTraceRecordSend_idle h,
    fun r => ⟨length_trcTransfers r, fun i hi => getElem?_trcTransfers r hi⟩, fun s h hr hc => ?trace⟩
  case idcode => rw [idWord_toNat]; exact exec_idcode s
  case mbx =>
    refine ⟨?_, ?_, ?_, ?_⟩
    all_goals rw [exec_cxMbx, execCxMbx_operates _ z o v ht h]
    · exact congrArg _ (mbxOp_write o v t)
    all_goals rfl
  case traceCfg =>
    subst ht
    exact ⟨rfl, fun h => congrArg _ (if_pos h), fun h => congrArg _ (if_neg (by rw [h]; decide))⟩
  case trace =>
    have hsend := execTraceRecordSend_sends h hr hc
    refine ⟨fun h0 hq => ?_, fun h0 r rs hq => ?_, fun h0 => ?_⟩
    · rw [exec_traceRecordSend, hsend, send_nothing h0 hq]
    · rw [exec_traceRecordSend, hsend, send_queued h0 hq]
    · rw [exec_traceRecordSend, hsend, send_lost h0]
      rfl

end Sys2Proof.Proofs

/-! ### O58: the gateway port -/

namespace Sys2Proof.Proofs
open Sys2Proof.Machine

theorem exec_gwTxFlitAccept (b : Nat) (s : State) : exec (.gwTxFlitAccept b) s = execGwTxFlitAccept b s := rfl
theorem exec_gwRxFlit (f : BitVec 664) (s : State) : exec (.gwRxFlit f) s = execGwRxFlit f s := rfl

/-- A row of the gateway port. -/
def gatewayRow (i : Instr) : Prop :=
  (∃ r, i = .gwPkgRankSample r) ∨ i = .gwPkgRankValidFall ∨ (∃ w b h, i = .gwTxHdr w b h) ∨ (∃ w b o d, i = .transmitData w b o d)
    ∨ (∃ w b v, i = .gwTxGo w b v) ∨ (∃ b, i = .gwTxFlitAccept b) ∨ (∃ b, i = .gwClaimExpire b) ∨ (∃ f, i = .gwRxFlit f)
    ∨ (∃ x, i = .gwBoxStale x) ∨ i = .gwCollideExpire ∨ ∃ w x v, i = .gwBoxFree w x v

/-- While the block is in reset no row of the gateway port changes anything (R514). -/
theorem exec_gateway_inReset {s : State} (h : s.awake = false) {i : Instr} (hi : gatewayRow i) : exec i s = .next s := by
  rcases hi with ⟨r, rfl⟩ | rfl | ⟨w, b, hd, rfl⟩ | ⟨w, b, o, d, rfl⟩ | ⟨w, b, v, rfl⟩ | ⟨b, rfl⟩ | ⟨b, rfl⟩ | ⟨f, rfl⟩ | ⟨x, rfl⟩ | rfl
    | ⟨w, x, v, rfl⟩
  case inl | inr.inl => exact if_neg (by simp [h])
  case inr.inr.inr.inr.inr.inr.inl => exact if_neg (by simp [h])
  case inr.inr.inr.inr.inr.inr.inr.inr.inl => exact if_neg (by simp [h])
  case inr.inr.inr.inr.inr.inr.inr.inr.inr.inl => exact if_neg (by simp [h])
  all_goals exact if_pos (by simp [h])

section
variable {s : State} (h : s.awake = true)
include h

/-! The package rank (R534). -/

theorem execGwPkgRankSample_sets {r : BitVec 16} (hr : s.gw.rank = none) :
    execGwPkgRankSample r s = .next { s with gw := { s.gw with rank := some r } } := if_pos (by simp [h, hr])

omit h in
theorem execGwPkgRankSample_ignored {r : BitVec 16} (hr : s.gw.rank ≠ none) : execGwPkgRankSample r s = .next s :=
  if_neg (by simp [hr])

theorem execGwPkgRankValidFall_clears : execGwPkgRankValidFall s = .next { s with gw := { s.gw with rank := none } } := if_pos h

/-! A header store claims a buffer (R535, R536). -/

section
variable {who : BitVec 16} {b : Nat} {hd : BitVec 128}

omit h in
theorem execGwTxHdr_noBuffer (hb : 64 ≤ b) : execGwTxHdr who b hd s = .next s := if_pos (by simp [hb])

variable (hb : b < 64)
include hb

theorem execGwTxHdr_refused (hm : s.gwMember who (hGroup hd.toNat) = false) : execGwTxHdr who b hd s = .next (s.bump 0x07) :=
  (if_neg (by simp [h, hb])).trans (if_pos (by rw [hm]; rfl))

/-- What a member's store of a header does, by the state of its buffer. -/
theorem execGwTxHdr_member (hm : s.gwMember who (hGroup hd.toNat) = true) : execGwTxHdr who b hd s =
    if (s.txBuf b).st = 0 then .next (s.modTx b (fun t => { t with hdr := hd, owner := who, st := 1, result := 0, since := s.time }))
    else if (s.txBuf b).st = 1 && (s.txBuf b).owner == who then .next (s.modTx b (fun t => { t with hdr := hd })) else .next s :=
  (if_neg (by simp [h, hb])).trans (if_neg (by rw [hm]; decide))

theorem execGwTxHdr_claims (hm : s.gwMember who (hGroup hd.toNat) = true) (hst : (s.txBuf b).st = 0) : execGwTxHdr who b hd s
    = .next (s.modTx b (fun t => { t with hdr := hd, owner := who, st := 1, result := 0, since := s.time })) := by
  rw [execGwTxHdr_member h hb hm, if_pos hst]

theorem execGwTxHdr_claimed (hm : s.gwMember who (hGroup hd.toNat) = true) (hst : (s.txBuf b).st = 1) : execGwTxHdr who b hd s
    = .next (if (s.txBuf b).owner = who then s.modTx b (fun t => { t with hdr := hd }) else s) := by
  rw [execGwTxHdr_member h hb hm, hst, if_neg (by decide)]
  by_cases ho : (s.txBuf b).owner = who
  · rw [if_pos ho, if_pos (by simp [ho])]
  · rw [if_neg ho, if_neg (by simp [ho])]

theorem execGwTxHdr_busy (hm : s.gwMember who (hGroup hd.toNat) = true) (h0 : (s.txBuf b).st ≠ 0) (h1 : (s.txBuf b).st ≠ 1) :
    execGwTxHdr who b hd s = .next s := by
  rw [execGwTxHdr_member h hb hm, if_neg h0,
    if_neg fun hb => h1 (of_decide_eq_true (Bool.and_eq_true .. ▸ hb).1)]

end

/-! A store of data (R535). -/

section
variable {who : BitVec 16} {b off : Nat} {data : List Byte}

omit h in
theorem execTransmitData_outside (hb : 64 ≤ b ∨ 4096 < off + data.length ∨ gwAligned off data.length = false) :
    execTransmitData who b off data s = .next s := by
  refine if_pos ?_
  rcases hb with hb | hb | hb <;> simp [hb]

variable (hb : b < 64) (hlen : off + data.length ≤ 4096) (ha : gwAligned off data.length = true)
include hb hlen ha

theorem transmitData_fits : ¬ (!s.awake || decide (64 ≤ b) || decide (4096 < off + data.length) || !gwAligned off data.length) = true := by
  simp [h, hb, Nat.not_lt.mpr hlen, ha]

theorem execTransmitData_refused (hm : s.gwMember who (hGroup (s.txBuf b).hdr.toNat) = false) :
    execTransmitData who b off data s = .next (s.bump 0x07) :=
  (if_neg (transmitData_fits h hb hlen ha)).trans (if_pos (by rw [hm]; rfl))

theorem execTransmitData_member (hm : s.gwMember who (hGroup (s.txBuf b).hdr.toNat) = true) : execTransmitData who b off data s
    = .next (if (s.txBuf b).st = 1 ∧ (s.txBuf b).owner = who then s.modTx b (fun t => { t with data := tsetRun 0 t.data off data }) else s) := by
  refine (if_neg (transmitData_fits h hb hlen ha)).trans ((if_neg (by rw [hm]; decide)).trans ?_)
  by_cases ho : (s.txBuf b).st = 1 ∧ (s.txBuf b).owner = who
  · rw [if_pos ho]
    exact if_pos (by simp [ho.1, ho.2])
  · rw [if_neg ho]
    exact if_neg (by simpa using ho)

end

/-! GW_TX_GO (R536). -/

section
variable {b : Nat} {v : Word}

omit h in
theorem execGwTxGo_noBuffer {who : BitVec 16} (hb : 64 ≤ b) : execGwTxGo who b v s = .next s := if_pos (by simp [hb])

variable (hb : b < 64)
include hb

theorem execGwTxGo_notOwner {who : BitVec 16} (ho : (s.txBuf b).st ≠ 1 ∨ who ≠ (s.txBuf b).owner) : execGwTxGo who b v s
    = .next (if s.gwMember who (hGroup (s.txBuf b).hdr.toNat) = true then s else s.bump 0x07) := by
  refine (if_neg (by simp [h, hb])).trans (if_pos ?_)
  rcases ho with ho | ho
  · simp only [bne_iff_ne.mpr ho, Bool.or_true]
  · simp only [bne_iff_ne.mpr (Ne.symm ho), Bool.true_or]

variable (hst : (s.txBuf b).st = 1)
include hst

/-- What the owner's GO does, by its result. -/
theorem execGwTxGo_owner : execGwTxGo (s.txBuf b).owner b v s = (s.goResult (s.txBuf b) v).elim
    (.next (s.modTx b (fun t => { t with
      st := 2, length := slice v.toNat 0 13, sent := 0
      hdr := BitVec.ofNat 128 (fillHeader t.hdr.toNat (s.gw.rank.elim 0 (·.toNat)) (slice v.toNat 0 13)) })))
    (fun r => .next (s.modTx b (fun t => { t with st := 0, result := r }))) := by
  refine (if_neg (by simp [h, hb])).trans ((if_neg ?_).trans ?_)
  · rw [hst, bne_self_eq_false]
    decide
  · cases s.goResult (s.txBuf b) v <;> rfl

theorem execGwTxGo_result {r : BitVec 4} (hr : s.goResult (s.txBuf b) v = some r) :
    execGwTxGo (s.txBuf b).owner b v s = .next (s.modTx b (fun t => { t with st := 0, result := r })) := by
  rw [execGwTxGo_owner h hb hst, hr, Option.elim_some]

theorem execGwTxGo_sends {r : BitVec 16} (hrank : s.gw.rank = some r) (hr : s.goResult (s.txBuf b) v = none) :
    execGwTxGo (s.txBuf b).owner b v s = .next (s.modTx b (fun t => { t with
      st := 2, length := v.toNat % 2 ^ 13, sent := 0
      hdr := BitVec.ofNat 128 (fillHeader t.hdr.toNat r.toNat (v.toNat % 2 ^ 13)) })) := by
  rw [execGwTxGo_owner h hb hst, hr, hrank]
  rfl

end

omit h in
theorem goResult_noRank {t : TxBuf} {v : Word} (hr : s.gw.rank = none) : s.goResult t v = some 5 := if_pos (by rw [hr]; rfl)

section
variable {t : TxBuf} {v : Word} {r : BitVec 16} (hr : s.gw.rank = some r)
include hr

omit h in
theorem goResult_noMember (hm : s.gwMember t.owner (hGroup t.hdr.toNat) = false) : s.goResult t v = some 2 :=
  (if_neg (by rw [hr]; exact Bool.false_ne_true)).trans (if_pos (by rw [hm]; rfl))

omit h in
theorem goResult_member (hm : s.gwMember t.owner (hGroup t.hdr.toNat) = true) :
    s.goResult t v = if goInvalid t.hdr.toNat v then some 3 else none :=
  (if_neg (by rw [hr]; exact Bool.false_ne_true)).trans (if_neg (by rw [hm]; decide))

end

/-! GW_TX_FLIT_ACCEPT (R537). -/

section
variable {b : Nat}

omit h in
theorem execGwTxFlitAccept_idle (hb : 64 ≤ b ∨ (s.txBuf b).st ≠ 2) : execGwTxFlitAccept b s = .next s := by
  refine if_pos ?_
  rcases hb with hb | hb
  · simp [hb]
  · simp only [bne_iff_ne.mpr hb, Bool.or_true]

variable (hb : b < 64) (hst : (s.txBuf b).st = 2)
include hb hst

theorem flitAccept_goes : ¬ (!s.awake || decide (64 ≤ b) || (s.txBuf b).st != 2) = true := by simp [h, hb, hst]

theorem execGwTxFlitAccept_sends (hd : hDst (s.txBuf b).hdr.toNat ≠ hSrc (s.txBuf b).hdr.toNat) : execGwTxFlitAccept b s
    = .next { (s.modTx b TxBuf.accepted).bump 0x01 with gw := { (s.modTx b TxBuf.accepted).gw with out := some (s.txBuf b).next } } :=
  (if_neg (flitAccept_goes h hb hst)).trans (if_neg hd)

/-- A flit for this package goes into the receive path, where no collision holds it back. -/
theorem execGwTxFlitAccept_home (hd : hDst (s.txBuf b).hdr.toNat = hSrc (s.txBuf b).hdr.toNat) : execGwTxFlitAccept b s
    = if s.gw.hold.isSome then .next s else .next ((s.modTx b TxBuf.accepted).gwReceive (s.txBuf b).next) :=
  (if_neg (flitAccept_goes h hb hst)).trans (if_pos hd)

end

/-! Times that run out (R537, R539, R540). -/

theorem execGwClaimExpire_expires {b : Nat} (hst : (s.txBuf b).st = 1) (ht : s.timedOut (s.txBuf b).since 1000000 = true) :
    execGwClaimExpire b s = .next (s.modTx b (fun t => { t with st := 0, result := 4 })) := if_pos (by simp [h, hst, ht])

omit h in
theorem execGwClaimExpire_idle {b : Nat} (hb : (s.txBuf b).st ≠ 1 ∨ s.timedOut (s.txBuf b).since 1000000 = false) :
    execGwClaimExpire b s = .next s := by
  refine if_neg ?_
  rcases hb with hb | hb
  · simp only [beq_eq_false_iff_ne.mpr hb, Bool.and_false, Bool.false_and, Bool.false_eq_true, not_false_iff]
  · simp [hb]

theorem execGwBoxStale_stale {x : Nat} (hst : (s.rxBox x).st = 1) (ht : s.timedOut (s.rxBox x).since 10000000 = true) :
    execGwBoxStale x s = .next (s.modBox x (fun y => { y with st := 4 })) := if_pos (by simp [h, hst, ht])

omit h in
theorem execGwBoxStale_idle {x : Nat} (hx : (s.rxBox x).st ≠ 1 ∨ s.timedOut (s.rxBox x).since 10000000 = false) :
    execGwBoxStale x s = .next s := by
  refine if_neg ?_
  rcases hx with hx | hx
  · simp only [beq_eq_false_iff_ne.mpr hx, Bool.and_false, Bool.false_and, Bool.false_eq_true, not_false_iff]
  · simp [hx]

theorem execGwCollideExpire_expires {f : BitVec 664} (hf : s.gw.hold = some f) (ht : s.timedOut s.gw.since 1000000 = true) :
    execGwCollideExpire s = .next { s.bump 0x05 with gw := { s.gw with hold := none } } := if_pos (by simp [h, hf, ht])

omit h in
theorem execGwCollideExpire_idle (hf : s.gw.hold = none ∨ s.timedOut s.gw.since 1000000 = false) : execGwCollideExpire s = .next s := by
  refine if_neg ?_
  rcases hf with hf | hf <;> simp [hf]

/-! GW_BOX_FREE (R539, R540). -/

section
variable {who : BitVec 16} {x : Nat} {v : Word}

omit h in
theorem execGwBoxFree_noBox (hx : 256 ≤ x) : execGwBoxFree who x v s = .next s := if_pos (by simp [hx])

variable (hx : x < 256)
include hx

theorem execGwBoxFree_refused (hm : s.gwMember who (hGroup (s.rxBox x).hdr.toNat) = false) : execGwBoxFree who x v s = .next (s.bump 0x07) :=
  (if_neg (by simp [h, hx])).trans (if_pos (by rw [hm]; rfl))

variable (hm : s.gwMember who (hGroup (s.rxBox x).hdr.toNat) = true)
include hm

theorem execGwBoxFree_zero (hv : bitOf v.toNat 0 = false) : execGwBoxFree who x v s = .next s :=
  (if_neg (by simp [h, hx])).trans ((if_neg (by rw [hm]; decide)).trans (if_pos (by rw [hv]; rfl)))

/-- An emptied box takes the flit that is held for it. -/
theorem execGwBoxFree_empties (hv : bitOf v.toNat 0 = true) : execGwBoxFree who x v s = s.gw.hold.elim (.next (s.modBox x (fun _ => {})))
    (fun f => if hBox (numAt (gwBytes f) 0 16) = x
      then .next (({ s with gw := { s.gw with box := tmod {} s.gw.box x (fun _ => {}), hold := none } } : State).gwReceive f)
      else .next (s.modBox x (fun _ => {}))) := by
  refine (if_neg (by simp [h, hx])).trans ((if_neg (by rw [hm]; decide)).trans ((if_neg (by rw [hv]; decide)).trans ?_))
  cases s.gw.hold <;> rfl

theorem execGwBoxFree_notHeld (hv : bitOf v.toNat 0 = true) (hf : ∀ f, s.gw.hold = some f → hBox (numAt (gwBytes f) 0 16) ≠ x) :
    execGwBoxFree who x v s = .next (s.modBox x (fun _ => {})) := by
  rw [execGwBoxFree_empties h hx hm hv]
  cases hold : s.gw.hold with
  | none => rfl
  | some f => exact if_neg (hf f hold)

theorem execGwBoxFree_held (hv : bitOf v.toNat 0 = true) {f : BitVec 664} (hf : s.gw.hold = some f)
    (hbox : hBox (numAt (gwBytes f) 0 16) = x) : execGwBoxFree who x v s
    = .next (({ s with gw := { s.gw with box := tmod {} s.gw.box x (fun _ => {}), hold := none } } : State).gwReceive f) := by
  rw [execGwBoxFree_empties h hx hm hv, hf, Option.elim_some, if_pos hbox]

end

/-! A flit into the receive path (R538, R540). -/

theorem execGwRxFlit_receives {f : BitVec 664} (hf : s.gw.hold = none) : execGwRxFlit f s = .next ((s.bump 0x02).gwReceive f) :=
  if_neg (by simp [h, hf])

omit h in
theorem execGwRxFlit_held {f : BitVec 664} (hf : s.gw.hold ≠ none) : execGwRxFlit f s = .next s :=
  if_pos (by simp [Option.isSome_iff_ne_none.mpr hf])

end

section
variable {s : State} {f : BitVec 664}

theorem gwReceive_corrupt (hc : numAt (gwBytes f) 80 3 ≠ crc24 ((gwBytes f).take 80)) : s.gwReceive f = s.bump 0x03 := by
  rw [State.gwReceive, if_pos (bne_iff_ne.mpr hc)]

variable (hc : numAt (gwBytes f) 80 3 = crc24 ((gwBytes f).take 80)) {h : Nat} (hh : h = numAt (gwBytes f) 0 16)
include hc hh

theorem gwReceive_misrouted (hr : ∀ r, s.gw.rank = some r → r.toNat ≠ hDst h) : s.gwReceive f = s.bump 0x04 := by
  rw [State.gwReceive, ← hh, if_neg (by simp [hc]), if_pos]
  cases hrank : s.gw.rank with
  | none => rfl
  | some r => exact bne_iff_ne.mpr (hr r hrank)

omit hc hh in
theorem hDst_toNat (h : Nat) : (BitVec.ofNat 16 (hDst h)).toNat = hDst h := toNat_ofNat_slice ..

variable (hr : s.gw.rank = some (BitVec.ofNat 16 (hDst h)))
include hr

/-- A good flit for this package, by the state of its box. -/
theorem gwReceive_routed : s.gwReceive f =
    if (s.rxBox (hBox h)).st = 0 then s.modBox (hBox h) (fun _ =>
      ({ hdr := BitVec.ofNat 128 (boxHeader h), st := 1 } : RxBox).store h (bytesAt (gwBytes f) 16 64) s.time)
    else if hKey (s.rxBox (hBox h)).hdr.toNat != hKey h then { s with gw := { s.gw with hold := some f, since := s.time } }
    else if (s.rxBox (hBox h)).st != 1 then s.bump 0x06
    else if hRecord (s.rxBox (hBox h)).hdr.toNat != hRecord h then s.modBox (hBox h) (fun x => { x with st := 3 })
    else if (s.rxBox (hBox h)).got.contains (hFlit h) then s.bump 0x06
    else s.modBox (hBox h) (fun x => x.store h (bytesAt (gwBytes f) 16 64) s.time) := by
  have hrank : ¬ s.gw.rank.all (fun r => r.toNat != hDst h) = true := by
    rw [hr, Option.all_some, hDst_toNat, bne_self_eq_false]
    exact Bool.false_ne_true
  rw [State.gwReceive, ← hh, if_neg (by simp [hc]), if_neg hrank]

variable {x : RxBox} (hx : x = s.rxBox (hBox h))
include hx

theorem gwReceive_opens (hst : x.st = 0) : s.gwReceive f = s.modBox (hBox h) (fun _ =>
    ({ hdr := BitVec.ofNat 128 (boxHeader h), st := 1 } : RxBox).store h (bytesAt (gwBytes f) 16 64) s.time) := by
  rw [gwReceive_routed hc hh hr, ← hx, if_pos hst]

variable (h0 : x.st ≠ 0)
include h0

theorem gwReceive_collides (hk : hKey x.hdr.toNat ≠ hKey h) : s.gwReceive f = { s with gw := { s.gw with hold := some f, since := s.time } } := by
  rw [gwReceive_routed hc hh hr, ← hx, if_neg h0, if_pos (bne_iff_ne.mpr hk)]

variable (hk : hKey x.hdr.toNat = hKey h)
include hk

theorem gwReceive_late (h1 : x.st ≠ 1) : s.gwReceive f = s.bump 0x06 := by
  rw [gwReceive_routed hc hh hr, ← hx, if_neg h0, if_neg (by simp [hk]), if_pos (bne_iff_ne.mpr h1)]

variable (h1 : x.st = 1)
include h1

theorem gwReceive_damages (hrec : hRecord x.hdr.toNat ≠ hRecord h) : s.gwReceive f = s.modBox (hBox h) (fun y => { y with st := 3 }) := by
  rw [gwReceive_routed hc hh hr, ← hx, if_neg h0, if_neg (by simp [hk]), if_neg (by simp [h1]), if_pos (bne_iff_ne.mpr hrec)]

variable (hrec : hRecord x.hdr.toNat = hRecord h)
include hrec

theorem gwReceive_repeated (hg : hFlit h ∈ x.got) : s.gwReceive f = s.bump 0x06 := by
  rw [gwReceive_routed hc hh hr, ← hx, if_neg h0, if_neg (by simp [hk]), if_neg (by simp [h1]), if_neg (by simp [hrec]),
    if_pos (List.contains_iff_mem.mpr hg)]

theorem gwReceive_stores (hg : hFlit h ∉ x.got) :
    s.gwReceive f = s.modBox (hBox h) (fun y => y.store h (bytesAt (gwBytes f) 16 64) s.time) := by
  rw [gwReceive_routed hc hh hr, ← hx, if_neg h0, if_neg (by simp [hk]), if_neg (by simp [h1]), if_neg (by simp [hrec]),
    if_neg (by simpa using hg)]

end

/-- A header of the three parts that a box records, by its fields. -/
theorem recorded_fields {a b c : Nat} (hb : b < 2 ^ 13) (hc : c < 2 ^ 19) :
    hReserved (at' a 44 + at' b 25 + at' c 5) = 0 ∧ hKey (at' a 44 + at' b 25 + at' c 5) = a / 2 ^ 8 % 2 ^ 60
      ∧ hRecord (at' a 44 + at' b 25 + at' c 5) = (b, c) ∧ hFlit (at' a 44 + at' b 25 + at' c 5) = 0 := by
  simp only [hReserved, hKey, hRecord, hFlit, slice_eq_div_mod, at', Prod.mk.injEq]
  omega

theorem hKey_eq (h : Nat) : hKey h = slice h 44 84 / 2 ^ 8 % 2 ^ 60 := by
  have hpart : slice h 44 84 / 2 ^ 8 = h / 2 ^ 52 % 2 ^ 76 := by
    rw [slice_eq_div_mod, show (2 : Nat) ^ 84 = 2 ^ 8 * 2 ^ 76 by decide, Nat.mod_mul_right_div_self, Nat.div_div_eq_div_mul, ← Nat.pow_add]
  rw [hpart, Nat.mod_mod_of_dvd _ (by decide : 2 ^ 60 ∣ 2 ^ 76), hKey, slice_eq_div_mod]

theorem slice_lt (v lo n : Nat) : slice v lo n < 2 ^ n := Nat.mod_lt _ (Nat.two_pow_pos n)

/-- The fields of the header that a box records. -/
theorem boxHeader_fields (h : Nat) : hReserved (boxHeader h) = 0 ∧ hKey (boxHeader h) = hKey h ∧ hRecord (boxHeader h) = hRecord h
    ∧ hFlit (boxHeader h) = 0 := by
  rw [hKey_eq h]
  exact recorded_fields (slice_lt h 25 13) (slice_lt h 5 19)

/-- Settles O58: each row by its checks and by the state of its buffer or box; a received flit by what its box holds. -/
theorem gatewayPort : Obligations.GatewayPort := by
  unfold Obligations.GatewayPort
  refine ⟨fun s i h hi => exec_gateway_inReset h hi, fun s h => ⟨fun r hr => execGwPkgRankSample_sets h hr,
    fun r hr => execGwPkgRankSample_ignored hr, execGwPkgRankValidFall_clears h, fun who b hd hb => ?noBuffer, fun who b hd hb => ?header,
    fun who b off data hb => ?data, fun b v hb => ?go, fun b hb => ?accept,
    fun b => ⟨fun hst ht => execGwClaimExpire_expires h hst ht, execGwClaimExpire_idle⟩, fun f hf => execGwRxFlit_held hf,
    fun f hf hd x hh hx => ?receive, boxHeader_fields, fun x => ⟨fun hst ht => execGwBoxStale_stale h hst ht, execGwBoxStale_idle⟩,
    ⟨fun f hf ht => execGwCollideExpire_expires h hf ht, execGwCollideExpire_idle⟩, fun who x v => ?free⟩⟩
  case noBuffer =>
    exact ⟨execGwTxHdr_noBuffer hb, execGwTxFlitAccept_idle (.inl hb), fun off data => execTransmitData_outside (.inl hb),
      fun v => execGwTxGo_noBuffer hb⟩
  case header =>
    exact ⟨execGwTxHdr_claims h hb, execGwTxHdr_claimed h hb, execGwTxHdr_busy h hb, execGwTxHdr_refused h hb⟩
  case data =>
    exact ⟨fun ho => execTransmitData_outside (.inr ho),
      fun hlen ha => ⟨execTransmitData_refused h hb hlen ha, execTransmitData_member h hb hlen ha⟩⟩
  case go =>
    refine ⟨fun hst who hwho => ⟨fun hr => ?_, fun r hr => ⟨fun hm => ?_, fun hm => ⟨fun hi => ?_, fun hi => ?_⟩⟩⟩,
      fun who ho => execGwTxGo_notOwner h hb ho⟩
    all_goals subst hwho
    · exact execGwTxGo_result h hb hst (goResult_noRank hr)
    · exact execGwTxGo_result h hb hst (goResult_noMember hr hm)
    · exact execGwTxGo_result h hb hst ((goResult_member hr hm).trans (if_pos hi))
    · exact execGwTxGo_sends h hb hst hr ((goResult_member hr hm).trans (if_neg (by rw [hi]; decide)))
  case accept =>
    refine ⟨fun hst => execGwTxFlitAccept_idle (.inr hst), fun hst => ⟨fun hd => ⟨_, execGwTxFlitAccept_sends h hb hst hd, rfl⟩,
      fun hd => ⟨fun hf => ?_, fun hf => ?_⟩⟩⟩
    · rw [exec_gwTxFlitAccept, execGwTxFlitAccept_home h hb hst hd, hf]
      rfl
    · rw [exec_gwTxFlitAccept, execGwTxFlitAccept_home h hb hst hd, if_pos (Option.isSome_iff_ne_none.mpr hf)]
  case receive =>
    have hx : x = (s.bump 0x02).rxBox (hBox hd) := hx
    have hrow := (exec_gwRxFlit f s).trans (execGwRxFlit_receives h hf)
    refine ⟨hrow, fun hc => ?_, fun hc hr => ?_, fun hc hr => ⟨fun h0 => ?_, fun h0 hk => ?_, fun h0 h1 hk => ?_, fun h1 hk hrec => ?_,
      fun h1 hk hrec hg => ?_, fun h1 hk hrec hg => ?_⟩⟩
    · exact hrow.trans (congrArg _ (gwReceive_corrupt hc))
    · exact hrow.trans (congrArg _ (gwReceive_misrouted (s := s.bump 0x02) hc hh hr))
    · exact hrow.trans (congrArg _ (gwReceive_opens (s := s.bump 0x02) hc hh hr hx h0))
    · exact hrow.trans (congrArg _ (gwReceive_collides (s := s.bump 0x02) hc hh hr hx h0 hk))
    · exact hrow.trans (congrArg _ (gwReceive_late (s := s.bump 0x02) hc hh hr hx h0 hk h1))
    · exact hrow.trans (congrArg _ (gwReceive_damages (s := s.bump 0x02) hc hh hr hx (by rw [h1]; decide) hk h1 hrec))
    · exact hrow.trans (congrArg _ (gwReceive_repeated (s := s.bump 0x02) hc hh hr hx (by rw [h1]; decide) hk h1 hrec hg))
    · exact hrow.trans (congrArg _ (gwReceive_stores (s := s.bump 0x02) hc hh hr hx (by rw [h1]; decide) hk h1 hrec hg))
  case free =>
    exact ⟨execGwBoxFree_noBox, execGwBoxFree_refused h, fun hx hm => ⟨execGwBoxFree_zero h hx hm, fun hv =>
      ⟨execGwBoxFree_notHeld h hx hm hv, fun f hf hbox => execGwBoxFree_held h hx hm hv hf hbox⟩⟩⟩

end Sys2Proof.Proofs
